-- ==== Sys2Proof/Syntax.lean ====
section
/-!
DEFINITION. The instructions and device steps of the opcode table, one constructor a row.
Fields hold the raw field values of the word (R210). ea and eb are the empty-source bits (R215); an
instruction with no source field ignores them and carries none. A row that is a step of another agent
carries no field: what the outside world supplies with it stands in State (its payload).
-/

namespace Sys2Proof

/-- One row of the opcode table: an encoded instruction (R221 to R224, R301, R316, R332) or a step
of another agent of the device. -/
inductive Instr where
  /-- SADD (R231). Writes the 32-bit wrapping sum of two scalar operands to a scalar register. -/
  | sadd (d : Nat) (a : Nat) (b : Nat) (ea : Bool) (eb : Bool)
  /-- SSUB (R231). Writes the 32-bit wrapping difference a minus b. -/
  | ssub (d : Nat) (a : Nat) (b : Nat) (ea : Bool) (eb : Bool)
  /-- SAND (R231). Writes the bitwise AND of two scalars. -/
  | sand (d : Nat) (a : Nat) (b : Nat) (ea : Bool) (eb : Bool)
  /-- SOR (R231). Writes the bitwise OR of two scalars. -/
  | sor (d : Nat) (a : Nat) (b : Nat) (ea : Bool) (eb : Bool)
  /-- SXOR (R231). Writes the bitwise XOR of two scalars. -/
  | sxor (d : Nat) (a : Nat) (b : Nat) (ea : Bool) (eb : Bool)
  /-- SSHL (R231). Shifts a left by b[4:0]. -/
  | sshl (d : Nat) (a : Nat) (b : Nat) (ea : Bool) (eb : Bool)
  /-- SSHR (R231). Shifts a right by b[4:0], filling with zeros. -/
  | sshr (d : Nat) (a : Nat) (b : Nat) (ea : Bool) (eb : Bool)
  /-- SSRA (R231). Shifts a right by b[4:0], filling with the sign bit. -/
  | ssra (d : Nat) (a : Nat) (b : Nat) (ea : Bool) (eb : Bool)
  /-- SMUL (R232). Writes the low 32 bits of the product. -/
  | smul (d : Nat) (a : Nat) (b : Nat) (ea : Bool) (eb : Bool)
  /-- SMULH (R232). Writes the high 32 bits of the signed product. -/
  | smulh (d : Nat) (a : Nat) (b : Nat) (ea : Bool) (eb : Bool)
  /-- SMULHU (R232). Writes the high 32 bits of the unsigned product. -/
  | smulhu (d : Nat) (a : Nat) (b : Nat) (ea : Bool) (eb : Bool)
  /-- SDIV (R232). Writes the signed quotient, with fixed results for division by zero and overflow. -/
  | sdiv (d : Nat) (a : Nat) (b : Nat) (ea : Bool) (eb : Bool)
  /-- SDIVU (R232). Writes the unsigned quotient. -/
  | sdivu (d : Nat) (a : Nat) (b : Nat) (ea : Bool) (eb : Bool)
  /-- SREM (R232). Writes the signed remainder with the sign of a. -/
  | srem (d : Nat) (a : Nat) (b : Nat) (ea : Bool) (eb : Bool)
  /-- SREMU (R232). Writes the unsigned remainder. -/
  | sremu (d : Nat) (a : Nat) (b : Nat) (ea : Bool) (eb : Bool)
  /-- SSEL (R233). Selects a or b by whether the old destination is non-zero. -/
  | ssel (d : Nat) (a : Nat) (b : Nat) (ea : Bool) (eb : Bool)
  /-- SMIN (R234). Writes the signed minimum. -/
  | smin (d : Nat) (a : Nat) (b : Nat) (ea : Bool) (eb : Bool)
  /-- SMAX (R234). Writes the signed maximum. -/
  | smax (d : Nat) (a : Nat) (b : Nat) (ea : Bool) (eb : Bool)
  /-- SMINU (R234). Writes the unsigned minimum. -/
  | sminu (d : Nat) (a : Nat) (b : Nat) (ea : Bool) (eb : Bool)
  /-- SMAXU (R234). Writes the unsigned maximum. -/
  | smaxu (d : Nat) (a : Nat) (b : Nat) (ea : Bool) (eb : Bool)
  /-- SSLT (R234). Writes 1 if a is below b, signed. -/
  | sslt (d : Nat) (a : Nat) (b : Nat) (ea : Bool) (eb : Bool)
  /-- SSLTU (R234). Writes 1 if a is below b, unsigned. -/
  | ssltu (d : Nat) (a : Nat) (b : Nat) (ea : Bool) (eb : Bool)
  /-- SSEQ (R234). Writes 1 if a equals b. -/
  | sseq (d : Nat) (a : Nat) (b : Nat) (ea : Bool) (eb : Bool)
  /-- SSNE (R234). Writes 1 if a differs from b. -/
  | ssne (d : Nat) (a : Nat) (b : Nat) (ea : Bool) (eb : Bool)
  /-- SCLZ (R235). Counts leading zero bits of a scalar. -/
  | sclz (d : Nat) (a : Nat) (ea : Bool) (eb : Bool)
  /-- SPOPC (R235). Counts set bits of a scalar. -/
  | spopc (d : Nat) (a : Nat) (ea : Bool) (eb : Bool)
  /-- SADD64 (R235). Adds two 64-bit pairs modulo 2^64. -/
  | sadd64 (d : Nat) (a : Nat) (b : Nat) (ea : Bool) (eb : Bool)
  /-- SSUB64 (R235). Subtracts two 64-bit pairs modulo 2^64. -/
  | ssub64 (d : Nat) (a : Nat) (b : Nat) (ea : Bool) (eb : Bool)
  /-- SMUL64 (R235). Multiplies two 64-bit pairs modulo 2^64. -/
  | smul64 (d : Nat) (a : Nat) (b : Nat) (ea : Bool) (eb : Bool)
  /-- SSHL64 (R235). Shifts a 64-bit pair left by b[5:0]. -/
  | sshl64 (d : Nat) (a : Nat) (b : Nat) (ea : Bool) (eb : Bool)
  /-- SSHR64 (R235). Shifts a 64-bit pair right by b[5:0], filling with zeros. -/
  | sshr64 (d : Nat) (a : Nat) (b : Nat) (ea : Bool) (eb : Bool)
  /-- SEMPTY (R13). Writes 1 if the source's full/empty bit shows empty, without waiting or emptying it. -/
  | sempty (d : Nat) (a : Nat) (ea : Bool) (eb : Bool)
  /-- SADDI (R236). Adds a sign-extended 12-bit immediate. -/
  | saddi (d : Nat) (a : Nat) (imm : Nat)
  /-- SANDI (R236). ANDs a sign-extended 12-bit immediate. -/
  | sandi (d : Nat) (a : Nat) (imm : Nat)
  /-- SORI (R236). ORs a sign-extended 12-bit immediate. -/
  | sori (d : Nat) (a : Nat) (imm : Nat)
  /-- SXORI (R236). XORs a sign-extended 12-bit immediate. -/
  | sxori (d : Nat) (a : Nat) (imm : Nat)
  /-- SSHI_SHL (R237). Shifts left by an immediate amount. -/
  | sshiShl (d : Nat) (a : Nat) (sh : Nat)
  /-- SSHI_SHR (R237). Shifts right logically by an immediate amount. -/
  | sshiShr (d : Nat) (a : Nat) (sh : Nat)
  /-- SSHI_SRA (R237). Shifts right arithmetically by an immediate amount. -/
  | sshiSra (d : Nat) (a : Nat) (sh : Nat)
  /-- SSHI_ROR (R237). Rotates right by an immediate amount. -/
  | sshiRor (d : Nat) (a : Nat) (sh : Nat)
  /-- SLUI (R236). Loads a 12-bit immediate into the top bits, keeping a[19:0]. -/
  | slui (d : Nat) (a : Nat) (imm : Nat)
  /-- LIMM (R238). Writes its 32-bit extension word to a scalar register. -/
  | limm (d : Nat) (value : Nat)
  /-- SETM (R239). Writes MODE[11:0] of the issuing arm from its immediate. -/
  | setm (imm : Nat)
  /-- BRA (R240). Branches the whole arm by a 26-bit word offset. -/
  | bra (off : Nat)
  /-- CALL (R240). Writes the return address to s58:s59 and branches. -/
  | call (off : Nat)
  /-- BEQZ (R241). Branches when the scalar is zero. -/
  | beqz (x : Nat) (off : Nat)
  /-- BNEZ (R241). Branches when the scalar is non-zero. -/
  | bnez (x : Nat) (off : Nat)
  /-- BLTZ (R241). Branches when the scalar's sign bit is set. -/
  | bltz (x : Nat) (off : Nat)
  /-- BGEZ (R241). Branches when the scalar's sign bit is clear. -/
  | bgez (x : Nat) (off : Nat)
  /-- BANY (R241). Branches when the predicate meets the arm's mask. -/
  | bany (x : Nat) (off : Nat)
  /-- BALL (R241). Branches when the predicate covers the arm's mask. -/
  | ball (x : Nat) (off : Nat)
  /-- BNONE (R241). Branches when the predicate misses every active lane. -/
  | bnone (x : Nat) (off : Nat)
  /-- BRD (R244). Divergent branch on a predicate: falls through, jumps, splits the arm or pushes the taken side. -/
  | brd (x : Nat) (off : Nat)
  /-- BRDN (R244). Divergent branch on the negated predicate. -/
  | brdn (x : Nat) (off : Nat)
  /-- DIVR (R246). Pushes a kind 0 record opening a divergence region closed at the target RCV. -/
  | divr (off : Nat)
  /-- YLD (R248). Releases the arm to wait with its continuation PC at the target. -/
  | yld (off : Nat)
  /-- JMPR (R242). Jumps to the address held in a register pair. -/
  | jmpr (a : Nat) (ea : Bool) (eb : Bool)
  /-- CALLR (R242). Jumps to a register pair's address and writes the return address to s58:s59. -/
  | callr (a : Nat) (ea : Bool) (eb : Bool)
  /-- EXIT (R249). Stops issue in both arms and begins ending the group with an exit value. -/
  | exit (a : Nat) (ea : Bool) (eb : Bool)
  /-- TRAP (R250). Takes a SOFT trap with TINFO set to its operand. -/
  | trap (a : Nat) (ea : Bool) (eb : Bool)
  /-- VADD (R258). Adds elements, wrapping or clamping under SAT. -/
  | vadd (d : Nat) (a : Nat) (b : Nat) (ea : Bool) (eb : Bool)
  /-- VSUB (R258). Subtracts elements. -/
  | vsub (d : Nat) (a : Nat) (b : Nat) (ea : Bool) (eb : Bool)
  /-- VMUL (R258). Multiplies elements. -/
  | vmul (d : Nat) (a : Nat) (b : Nat) (ea : Bool) (eb : Bool)
  /-- VMULH (R258). Writes the high half of each element product. -/
  | vmulh (d : Nat) (a : Nat) (b : Nat) (ea : Bool) (eb : Bool)
  /-- VMAD (R258). Writes a times b plus the old destination per element. -/
  | vmad (d : Nat) (a : Nat) (b : Nat) (ea : Bool) (eb : Bool)
  /-- VMIN (R258). Writes the element minimum. -/
  | vmin (d : Nat) (a : Nat) (b : Nat) (ea : Bool) (eb : Bool)
  /-- VMAX (R258). Writes the element maximum. -/
  | vmax (d : Nat) (a : Nat) (b : Nat) (ea : Bool) (eb : Bool)
  /-- VABSD (R258). Writes the absolute difference per element. -/
  | vabsd (d : Nat) (a : Nat) (b : Nat) (ea : Bool) (eb : Bool)
  /-- VAND (R259). Bitwise AND of vectors. -/
  | vand (d : Nat) (a : Nat) (b : Nat) (ea : Bool) (eb : Bool)
  /-- VOR (R259). Bitwise OR of vectors. -/
  | vor (d : Nat) (a : Nat) (b : Nat) (ea : Bool) (eb : Bool)
  /-- VXOR (R259). Bitwise XOR of vectors. -/
  | vxor (d : Nat) (a : Nat) (b : Nat) (ea : Bool) (eb : Bool)
  /-- VSHL (R259). Shifts elements left. -/
  | vshl (d : Nat) (a : Nat) (b : Nat) (ea : Bool) (eb : Bool)
  /-- VSHR (R259). Shifts elements right logically. -/
  | vshr (d : Nat) (a : Nat) (b : Nat) (ea : Bool) (eb : Bool)
  /-- VSRA (R259). Shifts elements right arithmetically. -/
  | vsra (d : Nat) (a : Nat) (b : Nat) (ea : Bool) (eb : Bool)
  /-- VSEL (R259). Selects bits of a or b under the old destination as selector. -/
  | vsel (d : Nat) (a : Nat) (b : Nat) (ea : Bool) (eb : Bool)
  /-- VMOV (R259). Copies a vector register. -/
  | vmov (d : Nat) (a : Nat) (ea : Bool) (eb : Bool)
  /-- VNOT (R260). Bitwise complement. -/
  | vnot (d : Nat) (a : Nat) (ea : Bool) (eb : Bool)
  /-- VNEG (R260). Negates elements. -/
  | vneg (d : Nat) (a : Nat) (ea : Bool) (eb : Bool)
  /-- VABS (R260). Absolute value of elements. -/
  | vabs (d : Nat) (a : Nat) (ea : Bool) (eb : Bool)
  /-- VCLZ (R260). Counts leading zeros per element. -/
  | vclz (d : Nat) (a : Nat) (ea : Bool) (eb : Bool)
  /-- VPOPC (R260). Counts set bits per element. -/
  | vpopc (d : Nat) (a : Nat) (ea : Bool) (eb : Bool)
  /-- VBREV (R260). Reverses bits per element. -/
  | vbrev (d : Nat) (a : Nat) (ea : Bool) (eb : Bool)
  /-- VLANE (R260). Writes each lane's index converted into ET. -/
  | vlane (d : Nat) (ea : Bool) (eb : Bool)
  /-- VBCAST (R260). Broadcasts a scalar into every lane. -/
  | vbcast (d : Nat) (a : Nat) (ea : Bool) (eb : Bool)
  /-- VCMP_EQ (R261). Integer equality compare into a predicate. -/
  | vcmpEq (d : Nat) (a : Nat) (b : Nat) (ea : Bool) (eb : Bool)
  /-- VCMP_NE (R261). Integer inequality compare into a predicate. -/
  | vcmpNe (d : Nat) (a : Nat) (b : Nat) (ea : Bool) (eb : Bool)
  /-- VCMP_LT (R261). Integer less-than compare into a predicate. -/
  | vcmpLt (d : Nat) (a : Nat) (b : Nat) (ea : Bool) (eb : Bool)
  /-- VCMP_LE (R261). Integer less-or-equal compare into a predicate. -/
  | vcmpLe (d : Nat) (a : Nat) (b : Nat) (ea : Bool) (eb : Bool)
  /-- VCMP_GT (R261). Integer greater-than compare into a predicate. -/
  | vcmpGt (d : Nat) (a : Nat) (b : Nat) (ea : Bool) (eb : Bool)
  /-- VCMP_GE (R261). Integer greater-or-equal compare into a predicate. -/
  | vcmpGe (d : Nat) (a : Nat) (b : Nat) (ea : Bool) (eb : Bool)
  /-- VFCMP_EQ (R261). Floating equality compare into a predicate. -/
  | vfcmpEq (d : Nat) (a : Nat) (b : Nat) (ea : Bool) (eb : Bool)
  /-- VFCMP_NE (R261). Floating inequality compare. -/
  | vfcmpNe (d : Nat) (a : Nat) (b : Nat) (ea : Bool) (eb : Bool)
  /-- VFCMP_LT (R261). Floating less-than compare. -/
  | vfcmpLt (d : Nat) (a : Nat) (b : Nat) (ea : Bool) (eb : Bool)
  /-- VFCMP_LE (R261). Floating less-or-equal compare. -/
  | vfcmpLe (d : Nat) (a : Nat) (b : Nat) (ea : Bool) (eb : Bool)
  /-- VFCMP_GT (R261). Floating greater-than compare. -/
  | vfcmpGt (d : Nat) (a : Nat) (b : Nat) (ea : Bool) (eb : Bool)
  /-- VFCMP_GE (R261). Floating greater-or-equal compare. -/
  | vfcmpGe (d : Nat) (a : Nat) (b : Nat) (ea : Bool) (eb : Bool)
  /-- VFCMP_UN (R261). True where either element is NaN. -/
  | vfcmpUn (d : Nat) (a : Nat) (b : Nat) (ea : Bool) (eb : Bool)
  /-- VFCMP_OR (R261). True where neither element is NaN. -/
  | vfcmpOr (d : Nat) (a : Nat) (b : Nat) (ea : Bool) (eb : Bool)
  /-- VFADD (R262). Floating add with one rounding. -/
  | vfadd (d : Nat) (a : Nat) (b : Nat) (ea : Bool) (eb : Bool)
  /-- VFSUB (R262). Floating subtract with one rounding. -/
  | vfsub (d : Nat) (a : Nat) (b : Nat) (ea : Bool) (eb : Bool)
  /-- VFMUL (R262). Floating multiply with one rounding. -/
  | vfmul (d : Nat) (a : Nat) (b : Nat) (ea : Bool) (eb : Bool)
  /-- VFMA (R262). Fused multiply-add into the destination. -/
  | vfma (d : Nat) (a : Nat) (b : Nat) (ea : Bool) (eb : Bool)
  /-- VFMIN (R262). Floating minimum, -0 below +0. -/
  | vfmin (d : Nat) (a : Nat) (b : Nat) (ea : Bool) (eb : Bool)
  /-- VFMAX (R262). Floating maximum. -/
  | vfmax (d : Nat) (a : Nat) (b : Nat) (ea : Bool) (eb : Bool)
  /-- VFSCALE (R263). Multiplies a by 2 to a clamped integer power taken from b. -/
  | vfscale (d : Nat) (a : Nat) (b : Nat) (ea : Bool) (eb : Bool)
  /-- VDOT (R264). Accumulates a packed dot product into an FP32 destination with one rounding. -/
  | vdot (d : Nat) (a : Nat) (b : Nat) (ea : Bool) (eb : Bool)
  /-- VRCP (R265). Issues a reciprocal to the special-function unit. -/
  | vrcp (d : Nat) (a : Nat) (ea : Bool) (eb : Bool)
  /-- VRSQ (R265). Issues a reciprocal square root. -/
  | vrsq (d : Nat) (a : Nat) (ea : Bool) (eb : Bool)
  /-- VSQRT (R265). Issues a correctly rounded square root. -/
  | vsqrt (d : Nat) (a : Nat) (ea : Bool) (eb : Bool)
  /-- VEXP2 (R265). Issues a base-2 exponential. -/
  | vexp2 (d : Nat) (a : Nat) (ea : Bool) (eb : Bool)
  /-- VLOG2 (R265). Issues a base-2 logarithm. -/
  | vlog2 (d : Nat) (a : Nat) (ea : Bool) (eb : Bool)
  /-- VSIN (R265). Issues a sine in radians. -/
  | vsin (d : Nat) (a : Nat) (ea : Bool) (eb : Bool)
  /-- VCOS (R265). Issues a cosine in radians. -/
  | vcos (d : Nat) (a : Nat) (ea : Bool) (eb : Bool)
  /-- VTANH (R265). Issues a hyperbolic tangent. -/
  | vtanh (d : Nat) (a : Nat) (ea : Bool) (eb : Bool)
  /-- VCVT (R268). Converts each source element by its tag into ET. -/
  | vcvt (d : Nat) (a : Nat) (ea : Bool) (eb : Bool)
  /-- VPACK (R268). Converts and packs two registers' elements into one. -/
  | vpack (d : Nat) (a : Nat) (b : Nat) (ea : Bool) (eb : Bool)
  /-- VUNPKL (R268). Converts the low source elements. -/
  | vunpkl (d : Nat) (a : Nat) (ea : Bool) (eb : Bool)
  /-- VUNPKH (R268). Converts the high source elements. -/
  | vunpkh (d : Nat) (a : Nat) (ea : Bool) (eb : Bool)
  /-- VQNT (R269). Quantises a group of registers by a scalar scale into ET. -/
  | vqnt (d : Nat) (a : Nat) (b : Nat) (ea : Bool) (eb : Bool)
  /-- VDQNT (R269). Dequantises into a group of FP32 registers by a scalar scale. -/
  | vdqnt (d : Nat) (a : Nat) (b : Nat) (ea : Bool) (eb : Bool)
  /-- VFCLASS (R270). Writes each element's class and NaN event code. -/
  | vfclass (d : Nat) (a : Nat) (ea : Bool) (eb : Bool)
  /-- VRND (R271). Rounds elements to integral values and converts to ET. -/
  | vrnd (d : Nat) (a : Nat) (ea : Bool) (eb : Bool)
  /-- VSHUF (R272). Permutes lanes by per-lane indices. -/
  | vshuf (d : Nat) (a : Nat) (b : Nat) (ea : Bool) (eb : Bool)
  /-- VROT (R272). Rotates lanes by a scalar amount. -/
  | vrot (d : Nat) (a : Nat) (b : Nat) (ea : Bool) (eb : Bool)
  /-- VRDL (R272). Reads one lane into a scalar. -/
  | vrdl (d : Nat) (a : Nat) (b : Nat) (ea : Bool) (eb : Bool)
  /-- VWRL (R272). Writes a scalar into one lane. -/
  | vwrl (d : Nat) (a : Nat) (b : Nat) (ea : Bool) (eb : Bool)
  /-- VRED (R273). Sums taking-part lanes exactly into a scalar with one rounding. -/
  | vred (d : Nat) (a : Nat) (ea : Bool) (eb : Bool)
  /-- VSCAN (R273). Writes inclusive prefix sums across lanes. -/
  | vscan (d : Nat) (a : Nat) (ea : Bool) (eb : Bool)
  /-- VBALLOT (R274). Sets a predicate bit per non-zero lane. -/
  | vballot (d : Nat) (a : Nat) (ea : Bool) (eb : Bool)
  /-- VCOMPACT (R274). Packs predicate-selected lanes into the lowest taking-part lanes. -/
  | vcompact (d : Nat) (a : Nat) (b : Nat) (ea : Bool) (eb : Bool)
  /-- PAND (R275). Predicate AND. -/
  | pand (d : Nat) (a : Nat) (b : Nat) (ea : Bool) (eb : Bool)
  /-- POR (R275). Predicate OR. -/
  | por (d : Nat) (a : Nat) (b : Nat) (ea : Bool) (eb : Bool)
  /-- PXOR (R275). Predicate XOR. -/
  | pxor (d : Nat) (a : Nat) (b : Nat) (ea : Bool) (eb : Bool)
  /-- PANDN (R275). Predicate AND NOT. -/
  | pandn (d : Nat) (a : Nat) (b : Nat) (ea : Bool) (eb : Bool)
  /-- PNOT (R275). Predicate complement. -/
  | pnot (d : Nat) (a : Nat) (ea : Bool) (eb : Bool)
  /-- PFROMS (R275). Loads a predicate from three scalars. -/
  | pfroms (d : Nat) (a : Nat) (ea : Bool) (eb : Bool)
  /-- PTOS (R275). Writes a predicate into three scalars. -/
  | ptos (d : Nat) (a : Nat) (ea : Bool) (eb : Bool)
  /-- PMOV (R275). Copies a predicate. -/
  | pmov (d : Nat) (a : Nat) (ea : Bool) (eb : Bool)
  /-- EXPR (R276). Evaluates a token string per lane on a small stack and writes the result. -/
  | expr (d : Nat) (a : Nat) (b : Nat) (n : Nat) (ea : Bool) (eb : Bool) (tokens : Nat)
  /-- LD (R282). Vector load with per-lane addresses from a register pair. -/
  | ld (d : Nat) (a : Nat) (pol : Nat) (sz : Nat) (off : Nat)
  /-- ST (R282). Vector store with per-lane addresses. -/
  | st (d : Nat) (a : Nat) (pol : Nat) (sz : Nat) (off : Nat)
  /-- LDS (R282). Scalar load. -/
  | lds (d : Nat) (a : Nat) (pol : Nat) (sz : Nat) (off : Nat)
  /-- STS (R282). Scalar store. -/
  | sts (d : Nat) (a : Nat) (pol : Nat) (sz : Nat) (off : Nat)
  /-- LDB (R282). Loads a contiguous block into the lanes. -/
  | ldb (d : Nat) (a : Nat) (pol : Nat) (sz : Nat) (off : Nat)
  /-- STB (R282). Stores the lanes as a contiguous block. -/
  | stb (d : Nat) (a : Nat) (pol : Nat) (sz : Nat) (off : Nat)
  /-- LDAQ_SCALAR (R283). Scalar load-acquire at the policy register's scope. -/
  | ldaqScalar (d : Nat) (a : Nat) (pol : Nat) (sz : Nat) (off : Nat)
  /-- LDAQ_VECTOR (R283). Vector load-acquire. -/
  | ldaqVector (d : Nat) (a : Nat) (pol : Nat) (sz : Nat) (off : Nat)
  /-- STRL_SCALAR (R283). Scalar store-release, cumulative. -/
  | strlScalar (d : Nat) (a : Nat) (pol : Nat) (sz : Nat) (off : Nat)
  /-- STRL_VECTOR (R283). Vector store-release. -/
  | strlVector (d : Nat) (a : Nat) (pol : Nat) (sz : Nat) (off : Nat)
  /-- ATOM_ADD (R286). Vector fetch-and-add, lanes at one location combined. -/
  | atomAdd (d : Nat) (a : Nat) (b : Nat) (ea : Bool) (eb : Bool)
  /-- ATOM_AND (R286). Vector fetch-and-AND. -/
  | atomAnd (d : Nat) (a : Nat) (b : Nat) (ea : Bool) (eb : Bool)
  /-- ATOM_OR (R286). Vector fetch-and-OR. -/
  | atomOr (d : Nat) (a : Nat) (b : Nat) (ea : Bool) (eb : Bool)
  /-- ATOM_XOR (R286). Vector fetch-and-XOR. -/
  | atomXor (d : Nat) (a : Nat) (b : Nat) (ea : Bool) (eb : Bool)
  /-- ATOM_MIN (R286). Vector fetch-and-min. -/
  | atomMin (d : Nat) (a : Nat) (b : Nat) (ea : Bool) (eb : Bool)
  /-- ATOM_MAX (R286). Vector fetch-and-max. -/
  | atomMax (d : Nat) (a : Nat) (b : Nat) (ea : Bool) (eb : Bool)
  /-- ATOM_XCHG (R286). Vector exchange. -/
  | atomXchg (d : Nat) (a : Nat) (b : Nat) (ea : Bool) (eb : Bool)
  /-- ATOM_FADD (R286). Vector floating fetch-and-add rounded RNE. -/
  | atomFadd (d : Nat) (a : Nat) (b : Nat) (ea : Bool) (eb : Bool)
  /-- ACAS_VECTOR (R287). Vector compare-and-swap with the destination as compare value. -/
  | acasVector (d : Nat) (a : Nat) (b : Nat) (ea : Bool) (eb : Bool)
  /-- ACAS_SCALAR (R287). Scalar compare-and-swap. -/
  | acasScalar (d : Nat) (a : Nat) (b : Nat) (ea : Bool) (eb : Bool)
  /-- ATOMS_ADD (R286). Scalar fetch-and-add. -/
  | atomsAdd (d : Nat) (a : Nat) (b : Nat) (ea : Bool) (eb : Bool)
  /-- ATOMS_AND (R286). Scalar fetch-and-AND. -/
  | atomsAnd (d : Nat) (a : Nat) (b : Nat) (ea : Bool) (eb : Bool)
  /-- ATOMS_OR (R286). Scalar fetch-and-OR. -/
  | atomsOr (d : Nat) (a : Nat) (b : Nat) (ea : Bool) (eb : Bool)
  /-- ATOMS_XOR (R286). Scalar fetch-and-XOR. -/
  | atomsXor (d : Nat) (a : Nat) (b : Nat) (ea : Bool) (eb : Bool)
  /-- ATOMS_MIN (R286). Scalar fetch-and-min. -/
  | atomsMin (d : Nat) (a : Nat) (b : Nat) (ea : Bool) (eb : Bool)
  /-- ATOMS_MAX (R286). Scalar fetch-and-max. -/
  | atomsMax (d : Nat) (a : Nat) (b : Nat) (ea : Bool) (eb : Bool)
  /-- ATOMS_XCHG (R286). Scalar exchange. -/
  | atomsXchg (d : Nat) (a : Nat) (b : Nat) (ea : Bool) (eb : Bool)
  /-- ATOMS_FADD (R286). Scalar floating fetch-and-add. -/
  | atomsFadd (d : Nat) (a : Nat) (b : Nat) (ea : Bool) (eb : Bool)
  /-- RED_ADD (R290). Enters integer add contributions into the atomic buffer. -/
  | redAdd (a : Nat) (b : Nat) (ea : Bool) (eb : Bool)
  /-- RED_FADD (R290). Enters FP32 add contributions into the atomic buffer. -/
  | redFadd (a : Nat) (b : Nat) (ea : Bool) (eb : Bool)
  /-- RED_MIN (R290). Enters min contributions. -/
  | redMin (a : Nat) (b : Nat) (ea : Bool) (eb : Bool)
  /-- RED_MAX (R290). Enters max contributions. -/
  | redMax (a : Nat) (b : Nat) (ea : Bool) (eb : Bool)
  /-- RED_AND (R290). Enters AND contributions. -/
  | redAnd (a : Nat) (b : Nat) (ea : Bool) (eb : Bool)
  /-- RED_OR (R290). Enters OR contributions. -/
  | redOr (a : Nat) (b : Nat) (ea : Bool) (eb : Bool)
  /-- RED_XOR (R290). Enters XOR contributions. -/
  | redXor (a : Nat) (b : Nat) (ea : Bool) (eb : Bool)
  /-- PREF (R293). Prefetches the covered lines into L1 and L2. -/
  | pref (a : Nat) (b : Nat) (ea : Bool) (eb : Bool)
  /-- DISC (R293). Discards covered lines without write-back. -/
  | disc (a : Nat) (b : Nat) (ea : Bool) (eb : Bool)
  /-- WBK (R293). Writes back dirty covered lines to MODE.SCOPE depth. -/
  | wbk (a : Nat) (b : Nat) (ea : Bool) (eb : Bool)
  /-- INV (R293). Writes back and invalidates covered lines. -/
  | inv (a : Nat) (b : Nat) (ea : Bool) (eb : Bool)
  /-- RFLUSH (R291). Drains the group's atomic-buffer entries and optionally closes its reduction epoch. -/
  | rflush (b : Nat) (ea : Bool) (eb : Bool)
  /-- FENCE (R93). Orders predecessor classes before successor classes at a scope. -/
  | fence (eng : Bool) (cum : Bool) (scope : Nat) (pred : Nat) (succ : Nat)
  /-- BARI (R295). Initialises a barrier's count per phase. -/
  | bari (a : Nat) (b : Nat) (ea : Bool) (eb : Bool)
  /-- BARA (R295). Arrives at the arm's next phase with a contribution. -/
  | bara (a : Nat) (b : Nat) (ea : Bool) (eb : Bool)
  /-- BARW (R295). Waits until a named earlier phase completes. -/
  | barw (a : Nat) (b : Nat) (ea : Bool) (eb : Bool)
  /-- BARX (R295). Arrives and waits for that phase as one instruction. -/
  | barx (a : Nat) (b : Nat) (ea : Bool) (eb : Bool)
  /-- BARQ (R295). Reads the arm's phase P or the barrier's count N. -/
  | barq (d : Nat) (a : Nat) (b : Nat) (ea : Bool) (eb : Bool)
  /-- ACOPY (R298). Starts an engine copy of a byte range. -/
  | acopy (d : Nat) (a : Nat) (b : Nat) (ea : Bool) (eb : Bool)
  /-- ACOPY2D (R298). Starts an engine copy of a strided 2-D block. -/
  | acopy2d (d : Nat) (a : Nat) (b : Nat) (ea : Bool) (eb : Bool)
  /-- TAGW (R300). Sets a vector register's format tag. -/
  | tagw (d : Nat) (a : Nat) (ea : Bool) (eb : Bool)
  /-- MREQ (R302). Posts a routine request into the cluster's reservation table and empties the token register. -/
  | mreq (d : Nat) (a : Nat) (b : Nat) (ea : Bool) (eb : Bool)
  /-- TRD (R303). Requests one tile row into two vector registers, held while the row is at or above W. -/
  | trd (d : Nat) (a : Nat) (b : Nat) (ea : Bool) (eb : Bool)
  /-- TWR (R303). Writes one tile row from two vector registers. -/
  | twr (d : Nat) (a : Nat) (b : Nat) (ea : Bool) (eb : Bool)
  /-- TWM (R303). Writes one tile row under a mask in s52 to s55. -/
  | twm (d : Nat) (a : Nat) (b : Nat) (ea : Bool) (eb : Bool)
  /-- TDRAIN (R304). Drains a tile to memory through scale, bias, activation and conversion. -/
  | tdrain (d : Nat) (a : Nat) (b : Nat) (ea : Bool) (eb : Bool)
  /-- MMA (R309). Queues a dense matrix operation into an accumulator tile. -/
  | mma (d : Nat) (a : Nat) (b : Nat) (ea : Bool) (eb : Bool)
  /-- MMAS (R309). Queues a sparse N-of-24 matrix operation. -/
  | mmas (d : Nat) (a : Nat) (b : Nat) (ea : Bool) (eb : Bool)
  /-- MMAQ (R309). Queues a scaled FP8 matrix operation. -/
  | mmaq (d : Nat) (a : Nat) (b : Nat) (ea : Bool) (eb : Bool)
  /-- TZERO (R311). Queues zeroing of a tile within the valid counts. -/
  | tzero (d : Nat) (ea : Bool) (eb : Bool)
  /-- TLOAD (R311). Queues loading a whole tile from memory. -/
  | tload (d : Nat) (a : Nat) (b : Nat) (ea : Bool) (eb : Bool)
  /-- TSTORE (R311). Queues storing a whole tile to memory. -/
  | tstore (d : Nat) (a : Nat) (b : Nat) (ea : Bool) (eb : Bool)
  /-- MSIG (R313). Syncs and sends a value to the requester's token register. -/
  | msig (a : Nat) (ea : Bool) (eb : Bool)
  /-- TWALK (R306). Loads a walk slot from a walk descriptor. -/
  | twalk (a : Nat) (b : Nat) (ea : Bool) (eb : Bool)
  /-- PERMIT (R307). Adds permits to a walk's count through the permit queue. -/
  | permit (a : Nat) (b : Nat) (ea : Bool) (eb : Bool)
  /-- SRDEF (R305). Writes an operator-table entry. -/
  | srdef (a : Nat) (b : Nat) (ea : Bool) (eb : Bool)
  /-- VCNT (R312). Sets the valid counts VR and VC. -/
  | vcnt (a : Nat) (b : Nat) (ea : Bool) (eb : Bool)
  /-- SCALEB (R308). Names the row and tile scale arrays for the routine. -/
  | scaleb (a : Nat) (b : Nat) (ea : Bool) (eb : Bool)
  /-- TFILL (R311). Queues filling a tile with a 32-bit value within the counts. -/
  | tfill (d : Nat) (a : Nat) (ea : Bool) (eb : Bool)
  /-- WAKE (R318). Posts a wake to a named target. -/
  | wake (a : Nat) (ea : Bool) (eb : Bool)
  /-- SIG (R318). Posts a signal bit to a named target. -/
  | sig (a : Nat) (b : Nat) (ea : Bool) (eb : Bool)
  /-- DEPO (R318). Posts a deposit into a target's mailbox register. -/
  | depo (d : Nat) (a : Nat) (b : Nat) (ea : Bool) (eb : Bool)
  /-- JOIN (R320). Asks for a target's exit value into an emptied register. -/
  | join (d : Nat) (a : Nat) (ea : Bool) (eb : Bool)
  /-- SIGW (R321). Waits for pending signal bits meeting a mask and takes them. -/
  | sigw (d : Nat) (a : Nat) (ea : Bool) (eb : Bool)
  /-- NGRANT (R319). Posts a replacement of a name's rights grant. -/
  | ngrant (a : Nat) (b : Nat) (ea : Bool) (eb : Bool)
  /-- NREVOKE (R319). Posts the clearing of rights bits of a name. -/
  | nrevoke (a : Nat) (b : Nat) (ea : Bool) (eb : Bool)
  /-- LAUNCH (R322). Copies a launch record into the core's pending-launch queue. -/
  | launch (a : Nat) (ea : Bool) (eb : Bool)
  /-- TAKE (R323). Asks for the oldest item of the launch's stage queue. -/
  | take (d : Nat) (ea : Bool) (eb : Bool)
  /-- POST (R323). Appends a 16-byte item to a stage queue. -/
  | post (a : Nat) (b : Nat) (ea : Bool) (eb : Bool)
  /-- QSTAT (R324). Reads a stage queue's item and waiter counts. -/
  | qstat (d : Nat) (a : Nat) (ea : Bool) (eb : Bool)
  /-- HNEW (R325). Asks the skein home for a new object with an E=62 handle. -/
  | hnew (d : Nat) (a : Nat) (b : Nat) (ea : Bool) (eb : Bool)
  /-- HSPLIT (R326). Splits a handle's weight in two, or requests an indirection at E=0. -/
  | hsplit (d : Nat) (a : Nat) (ea : Bool) (eb : Bool)
  /-- HDROP (R327). Nulls a handle and posts its weight to the skein home. -/
  | hdrop (a : Nat) (ea : Bool) (eb : Bool)
  /-- HMERGE (R326). Merges two equal-weight handles into one. -/
  | hmerge (d : Nat) (a : Nat) (ea : Bool) (eb : Bool)
  /-- HBIND (R327). Posts a finaliser launch-record binding for an object. -/
  | hbind (a : Nat) (b : Nat) (ea : Bool) (eb : Bool)
  /-- HINFO (R328). Reads an object's returned weight and OVER flag. -/
  | hinfo (d : Nat) (a : Nat) (ea : Bool) (eb : Bool)
  /-- HADDR (R328). Resolves tensor coordinates to an address. -/
  | haddr (d : Nat) (a : Nat) (b : Nat) (ea : Bool) (eb : Bool)
  /-- SCOPEW (R329). Attaches a waiter to a scope, drops the handle and waits for the scope to die. -/
  | scopew (d : Nat) (a : Nat) (ea : Bool) (eb : Bool)
  /-- WATCH (R330). Reads a watch entry and asks the hub to install it. -/
  | watch (d : Nat) (a : Nat) (ea : Bool) (eb : Bool)
  /-- UNWATCH (R331). Removes a watch after submitting launches for all its records. -/
  | unwatch (d : Nat) (a : Nat) (ea : Bool) (eb : Bool)
  /-- WARM (R331). Ends a watch's throttle and starts a new period on every homing die. -/
  | warm (d : Nat) (a : Nat) (ea : Bool) (eb : Bool)
  /-- WSTAT (R331). Reads a watch's throttle, runaway and held-record state. -/
  | wstat (d : Nat) (a : Nat) (ea : Bool) (eb : Bool)
  /-- SRD (R333). Reads a special register into a scalar or pair. -/
  | srd (a : Nat) (b : Nat)
  /-- SWR (R333). Writes the writable fields of a special register. -/
  | swr (a : Nat) (b : Nat)
  /-- TLBINV (R336). Removes cached translations on every die. -/
  | tlbinv (a : Nat) (b : Nat) (c : Nat)
  /-- FBREAD (R337). Removes the oldest fault-buffer entry into eight scalars. -/
  | fbread (a : Nat)
  /-- REPLAY (R338). Replays the parked arms of one named group. -/
  | replay (a : Nat)
  /-- SETCOH (R339). Changes a page's coherence attribute by the freeze-move-publish protocol. -/
  | setcoh (a : Nat) (b : Nat) (c : Nat)
  /-- MIGRATE (R339). Moves a page to a new frame by the same protocol. -/
  | migrate (a : Nat) (b : Nat) (c : Nat)
  /-- WSLOAD (R340). Copies data into the weight store of one or all dies. -/
  | wsload (a : Nat) (c : Nat)
  /-- HALT (R341). Stops a named group at instruction boundaries. -/
  | halt (a : Nat)
  /-- HALT_RELEASE (R341). Makes a halted group ready again. -/
  | haltRelease (a : Nat)
  /-- SWAPOUT (R341). Swaps a named group out and reports its status. -/
  | swapout (a : Nat) (b : Nat)
  /-- RCV (R40). Closes a divergence region: records arrival, waits, merges or resumes a stacked side. -/
  | rcv
  /-- RET (R242). Continues at s58:s59. -/
  | ret
  /-- BKPT (R250). Takes a BREAK trap at its own address. -/
  | bkpt
  /-- NOP (R251). Has no effect. -/
  | nop
  /-- TSYNC (R313). Waits until the routine's earlier operations complete and are visible at DEVICE. -/
  | tsync
  /-- CLUST (R314). Binds the neighbourhood's six clusters into one operation. -/
  | clust
  /-- SLEEP (R321). Completes on a pending wake or waits for one. -/
  | sleep
  /-- TRAPRET (R335). Clears INH and continues the trapped arm at TPC. -/
  | trapret
  /-- REPLAY_DIE (R338). Replays every parked arm of the issuing die. -/
  | replayDie
  /-- SUBMISSION_DOORBELL (R107). A host writes a tail index to a submission queue's doorbell; bad tails are ignored and counted. -/
  | submissionDoorbell
  /-- INTAKE_RECORD (R107). The hub reads one launch record from a ring into its waiting list and advances HEAD. -/
  | intakeRecord
  /-- PENDING_LAUNCH_DRAIN (R109). The hub drains one entry of a core's pending-launch queue into its intake. -/
  | pendingLaunchDrain
  /-- LAUNCH_START (R112). The dispatcher starts a waiting launch once names, save room, tokens and co-residency allow. -/
  | launchStart
  /-- LAUNCH_STARVATION (R112). A launch waiting 2^20 cycles blocks new lower-priority placements on its PLACESET. -/
  | launchStarvation
  /-- RANK_PLACE (R113). The dispatcher places a rank on a chosen core, seeding its registers and making its name RESIDENT. -/
  | rankPlace
  /-- SWAP_THRESHOLD (R43). A group's wait reaches SWAPTHR cycles and its swap-out begins. -/
  | swapThreshold
  /-- SAVE_COMPLETE (R43). The last byte of a save record is written; the name becomes SAVED and held operations are released. -/
  | saveComplete
  /-- GROUP_RESUME (R46). A dispatchable saved group is resumed on a core with its state restored and PENDING merged. -/
  | groupResume
  /-- YIELD_READY (R248). The dispatcher readies a yielded arm at its continuation PC. -/
  | yieldReady
  /-- DOLDRUMS_EXPIRY (R378). The region's all-waiting count reaches 2^HANGLOG and a HANG fault is raised. -/
  | doldrumsExpiry
  /-- GROUP_EXIT_COMPLETE (R249). After earlier operations complete, the group drops its carry, becomes DEAD, serves joiners and frees its resources. -/
  | groupExitComplete
  /-- LOAD_DATA_RETURN (R280). A load's data arrives and fills the destination once every taking-part lane has its value. -/
  | loadDataReturn
  /-- ATOMIC_RETURN (R286). An atomic's old values return to the destination. -/
  | atomicReturn
  /-- VSFU_COMPLETE (R256). The special-function unit finishes and sets the destination full. -/
  | vsfuComplete
  /-- POSTED_OP_ACK (R317). A posted operation's acknowledgement returns, recording a non-OK status in NERR. -/
  | postedOpAck
  /-- WAKE_DELIVERY (R58). A wake reaches its delivery point and completes a SLEEP or sets wake-pending. -/
  | wakeDelivery
  /-- SIG_DELIVERY (R58). A signal reaches its delivery point and ORs into pending bits. -/
  | sigDelivery
  /-- DEPO_DELIVERY (R58). A deposit reaches its delivery point and fills the mailbox register. -/
  | depoDelivery
  /-- JOIN_DELIVERY (R58). A join reaches its delivery point and appends a joiner record or returns at once. -/
  | joinDelivery
  /-- NGRANT_DELIVERY (R319). A grant takes effect at the delivery point. -/
  | ngrantDelivery
  /-- NREVOKE_DELIVERY (R319). A revoke takes effect at the delivery point. -/
  | nrevokeDelivery
  /-- JOIN_VALUE_ARRIVAL (R320). A joined exit value fills the joiner's register or save record. -/
  | joinValueArrival
  /-- NAME_PORT_WAKE (R64). A host writes a WAKE command record to a name port. -/
  | namePortWake
  /-- NAME_PORT_SIG (R64). A host writes a SIG command record. -/
  | namePortSig
  /-- NAME_PORT_DEPO (R64). A host writes a DEPO command record. -/
  | namePortDepo
  /-- NAME_PORT_JOIN (R64). A host writes a JOIN command record. -/
  | namePortJoin
  /-- NAME_PORT_HEXIT (R66). A host writes HEXIT, marking its HOST name DEAD and serving joiners. -/
  | namePortHexit
  /-- NAME_PORT_RESERVED_OP (R65). A command with a reserved OP completes BADOP with no effect. -/
  | namePortReservedOp
  /-- NAME_PORT_DISCARDED_WRITE (R64). A port write of another size or offset is discarded and counted. -/
  | namePortDiscardedWrite
  /-- HOST_NAME_ALLOC (R52). The firmware name service makes a FREE name HOST. -/
  | hostNameAlloc
  /-- NAME_RELEASE (R52). The name service returns DEAD names of a released launch to FREE. -/
  | nameRelease
  /-- PORT_UNBIND (R398). Firmware unbinds a name port and performs HEXIT on its HOST names. -/
  | portUnbind
  /-- SKEIN_ALLOC (R325). The skein home allocates a record for HNEW and replies with the handle. -/
  | skeinAlloc
  /-- INDIRECTION_ALLOC (R172). The skein home allocates an indirection from the region pool for an E=0 split. -/
  | indirectionAlloc
  /-- SKEIN_DROP (R171). A drop reaches the skein home and is added, refused as STALE or OVERRETURN. -/
  | skeinDrop
  /-- SKEIN_BIND (R177). An HBIND reaches the skein home and sets FIN or completes DEAD or STALE. -/
  | skeinBind
  /-- SCOPEW_ATTACH (R178). A SCOPEW waiter record is attached to a scope at the skein home. -/
  | scopewAttach
  /-- SKEIN_REPLY (R328). A long-latency skein reply fills its destination (HNEW, HSPLIT, HINFO, HADDR). -/
  | skeinReply
  /-- SCOPEW_COMPLETE (R178). A SCOPEW destination is filled with 0 or a status. -/
  | scopewComplete
  /-- TAKE_ITEM_DELIVERY (R323). A stage-queue item is delivered to the oldest waiting TAKE. -/
  | takeItemDelivery
  /-- POST_ACCEPT (R323). A stage queue accepts a posted item. -/
  | postAccept
  /-- WATCH_INSTALL_COMPLETE (R183). Every homing die has installed a watch and WATCH returns its id or status. -/
  | watchInstallComplete
  /-- WATCHED_WRITE_AT_HOME (R185). A write to a watched granule is performed at its home and compared word by word. -/
  | watchedWriteAtHome
  /-- WATCH_WINDOW_CLOSE (R187). A window's 2^WLOG ns expire and its runs are submitted as cast-on launches within budget. -/
  | watchWindowClose
  /-- WATCH_PERIOD_START (R190). A new budget period starts and held records are formed into runs. -/
  | watchPeriodStart
  /-- UNWATCH_COMPLETE (R191). The last launch of an UNWATCH is submitted and the entries removed. -/
  | unwatchComplete
  /-- SEQUENCER_TAKE_ENTRY (R147). A free sequencer takes a reservation entry and starts the routine. -/
  | sequencerTakeEntry
  /-- MSIG_DELIVERY (R148). An MSIG value fills the requester's token register or save record. -/
  | msigDelivery
  /-- ROUTINE_END (R253). A routine's EXIT completes after its operations, supplying MSIG if none was made. -/
  | routineEnd
  /-- CLUST_BIND_TAKE (R314). A bound cluster's sequencer takes the leader's binding entry. -/
  | clustBindTake
  /-- MATRIX_OP_START (R151). An MMA-family or tile operation starts in the engine, lowering W and setting BUSY. -/
  | matrixOpStart
  /-- MATRIX_PASS_COMPLETE (R309). One pass of an MMA-family operation completes its sums. -/
  | matrixPassComplete
  /-- TILE_ROW_WRITTEN (R311). A row of TZERO, TFILL or TLOAD lands and W rises. -/
  | tileRowWritten
  /-- TSTORE_ROW (R311). A tile row is stored once W passes it. -/
  | tstoreRow
  /-- WALK_TILE_FETCH (R307). The tile-walk engine fetches a permitted walk tile and pins its lines. -/
  | walkTileFetch
  /-- WALK_TILE_DELIVERED (R157). A fetched walk tile is delivered in descriptor order, multicast where bound. -/
  | walkTileDelivered
  /-- TRD_SERVE (R15). A held TRD is served once its row is below W and fills two registers. -/
  | trdServe
  /-- TDRAIN_ROW (R166). TDRAIN transforms and stores one row once W passes it. -/
  | tdrainRow
  /-- REQUEST_HOLD_END (R360). A TRD or TDRAIN held behind its MREQ issues once the routine lowers the tile or makes its MSIG. -/
  | requestHoldEnd
  /-- COPY_COMPLETE (R299). An engine copy writes its last destination line. -/
  | copyComplete
  /-- BARRIER_ARRIVAL (R295). An arrival is counted at the holding slot and completed phases advance B. -/
  | barrierArrival
  /-- ATOMIC_BUFFER_DRAIN (R98). At a flush point the group's RED contributions drain to their places. -/
  | atomicBufferDrain
  /-- RED_APPLY (R144). A drained contribution is applied at its place or entered into a reduction set. -/
  | redApply
  /-- REDUCTION_SET_APPLY (R291). A closed reduction set is applied in (rank, lane) order and waiting RFLUSHes complete. -/
  | reductionSetApply
  /-- WALK_COMPLETE (R75). A page walk finishes, caching the translation or ending malformed or NOTPRESENT. -/
  | walkComplete
  /-- HOST_ACCESS (R105). A host load, store or atomic over Porruter is performed at the home's coherence point. -/
  | hostAccess
  /-- DIE_WAKE_COMPLETE (R111). A gated die's state is restored and held requests replay in order. -/
  | dieWakeComplete
  /-- DIE_POWER_DOWN (R203). A die enters D1 or D2 once its requested state's conditions hold. -/
  | diePowerDown
  /-- DIEPWR_REQ (R206). A write of DIEPWR.REQ changes a die's requested power state and placement availability. -/
  | diepwrReq
  /-- REMOTE_ERROR_RESPONSE (R391). An error response or 100 ms timeout from a host or peer makes an MCHECK pending. -/
  | remoteErrorResponse
  /-- MCHECK_DELIVER (R391). A pending MCHECK is taken at the arm's next instruction boundary. -/
  | mcheckDeliver
  /-- MEMORY_UNCORRECTABLE (R392). An uncorrectable error in a dirty line or memory damages the line. -/
  | memoryUncorrectable
  /-- REGISTER_UNCORRECTABLE (R393). An uncorrectable register, tag or scratchpad word takes MCHECK at its reader. -/
  | registerUncorrectable
  /-- WEIGHT_BANK_REFRESH (R71). A weight-store bank enters or leaves its microsecond of refresh. -/
  | weightBankRefresh
  /-- WEIGHT_REFRESH_FAIL (R395). A refresh that cannot complete damages its whole bank. -/
  | weightRefreshFail
  /-- SKEIN_RECORD_ERROR (R404). An uncorrectable skein record is marked damaged and its owner charged. -/
  | skeinRecordError
  /-- NAME_ENTRY_ERROR (R399). A damaged name node or entry makes operations complete NONAME and logs an event. -/
  | nameEntryError
  /-- PRECTL_GO (R124). A write of PRECTL.GO starts pre-emption of a region subtree. -/
  | prectlGo
  /-- PRECTL_CLEAR_DONE (R123). Writing 1 clears PRECTL.DONE. -/
  | prectlClearDone
  /-- PRECTL_CLEAR_ERR (R123). Writing 1 clears PRECTL.ERR. -/
  | prectlClearErr
  /-- PREEMPT_DRAIN_END (R124). In-flight operations of the stopped subtree have completed or been recorded. -/
  | preemptDrainEnd
  /-- PREEMPT_DONE (R125). The last byte of the pre-emption image is saved and DONE, with ERR if any save failed, is set. -/
  | preemptDone
  /-- REGISTER_WRITE (R5). A write to a register with no row of its own updates its RW fields. -/
  | registerWrite
  /-- HOWN_ADOPT (R198). A head claims management ownership with a matching EPOCH, or STALE is set. -/
  | hownAdopt
  /-- HOWN_CLEAR_STALE (R198). Writing 1 clears HOWN.STALE. -/
  | hownClearStale
  /-- LINK_TRAINING (R194). A port trains and the ends exchange INCARN, invalidating peer translations on change. -/
  | linkTraining
  /-- FLIT_CRC_ERROR (R413). A flit with a bad CRC is asked for again and replayed from the retry buffer. -/
  | flitCrcError
  /-- LINK_ACK_TIMEOUT (R413). No flit acknowledged for 50 µs takes the port down. -/
  | linkAckTimeout
  /-- LANE_RETIRE (R414). A failing lane is replaced by the spare or the width is halved. -/
  | laneRetire
  /-- WIDTH_CHANGE_COMPLETE (R414). A link width change completes and any waiting throttle applies. -/
  | widthChangeComplete
  /-- HOST_LOSS (R416). A host's ports stay down 100 ms or its CXL link drops and the host is lost. -/
  | hostLoss
  /-- FIRMWARE_HEARTBEAT_TIMEOUT (R418). The standby misses heartbeats for 1 ms and takes over. -/
  | firmwareHeartbeatTimeout
  /-- LIVE_UPDATE (R201). Firmware performs a live update by standby boot, state import and takeover. -/
  | liveUpdate
  /-- COMPLEX_BOOT (R200). A firmware complex boots from the highest valid marker whose slot verifies. -/
  | complexBoot
  /-- POWER_UP (R25). At power-up firmware writes region 0's RCB and complex A or B becomes active. -/
  | powerUp
  /-- SPDM_GET_VERSION (R202). Answers an SPDM GET_VERSION request. -/
  | spdmGetVersion
  /-- SPDM_GET_CAPABILITIES (R202). Answers an SPDM GET_CAPABILITIES request. -/
  | spdmGetCapabilities
  /-- SPDM_NEGOTIATE_ALGORITHMS (R202). Answers an SPDM NEGOTIATE_ALGORITHMS request. -/
  | spdmNegotiateAlgorithms
  /-- SPDM_GET_DIGESTS (R202). Answers an SPDM GET_DIGESTS request. -/
  | spdmGetDigests
  /-- SPDM_GET_CERTIFICATE (R202). Answers an SPDM GET_CERTIFICATE request. -/
  | spdmGetCertificate
  /-- SPDM_CHALLENGE (R202). Answers an SPDM CHALLENGE request. -/
  | spdmChallenge
  /-- SPDM_GET_MEASUREMENTS (R202). Returns the slot digests, markers, boot ROM version and identity-key digest. -/
  | spdmGetMeasurements
  /-- SPDM_UNSUPPORTED (R202). Any other SPDM request returns ERROR with UnsupportedRequest. -/
  | spdmUnsupported
  /-- REGISTER_SERVICER (R437). Firmware writes a servicer name into a die controller. -/
  | registerServicer
  /-- REGION_END (R150). Firmware ends a region, releasing its tiles to OWNER NONE. -/
  | regionEnd
  /-- THERMAL_THROTTLE (R204). A die's hottest sensor reaches TEMPEMERG and its clock drops to 0.5 GHz. -/
  | thermalThrottle
  /-- THERMAL_UNTHROTTLE (R204). After 10 ms below TEMPEMERG - 5 °C the die returns to 1.0 GHz. -/
  | thermalUnthrottle
  /-- THERMAL_EMERGENCY (R425). At TEMPEMERG + 10 °C the die's regions are pre-empted and the die goes to D1. -/
  | thermalEmergency
  /-- THERMAL_TRIP (R425). At 125 °C the die's power is removed and it is treated as fenced. -/
  | thermalTrip
  /-- POWER_OVER_CAP (R426). Module power above 4.2 kW for 1 ms lowers TOKCAP and throttles dies. -/
  | powerOverCap
  /-- DIE_LINK_FAIL (R421). A die's hub link fails and the hub fences the die. -/
  | dieLinkFail
  /-- DIE_SELF_FENCE (R421). A die controller hearing nothing from the hub for 10 µs fences its die. -/
  | dieSelfFence
  /-- CLUSTER_RETIRE (R423). A failing cluster's regions are pre-empted, a spare takes its place and they resume. -/
  | clusterRetire
  /-- CHANNEL_RETIRE (R424). A failing channel's contents are copied to a spare which takes its number. -/
  | channelRetire
  /-- SECURITY_ALARM (R427). Tamper, glitch or unauthorised debug cuts debug paths, erases keys and reports ALARM. -/
  | securityAlarm
  /-- FRADB_ATTACH (R436). fradb attaches to a region, taking its BREAK traps. -/
  | fradbAttach
  /-- FRADB_BREAK (R355). fradb writes a BKPT over an instruction. -/
  | fradbBreak
  /-- FRADB_BREAK_HIT (R357). fradb sets a breakpoint that stops only the k-th arriving arm. -/
  | fradbBreakHit
  /-- FRADB_CONTINUE (R355). fradb restores the instruction, ends the debug hold and lets the arm run. -/
  | fradbContinue
  /-- FRADB_STEP (R355). fradb executes one instruction of the stopped arm and stops it again. -/
  | fradbStep
  /-- FRADB_STEP_NOT_READY (R358). A step that cannot issue within 10 ms is reported not ready with its cause. -/
  | fradbStepNotReady
  /-- FRADB_PRINT (R355). fradb reports registers with their full/empty bits. -/
  | fradbPrint
  /-- FRADB_NAME (R355). fradb decodes a name entry. -/
  | fradbName
  /-- FRADB_SAVE (R355). fradb decodes a saved group's save-record header. -/
  | fradbSave
  /-- FRADB_X (R355). fradb reads doublewords at DEVICE scope. -/
  | fradbX
  /-- FRADB_INTAKE_HOLD (R357). The hub stops taking pending-launch entries of the attached region's groups. -/
  | fradbIntakeHold
  /-- FRADB_INTAKE_RELEASE (R357). Ends the intake hold. -/
  | fradbIntakeRelease
  /-- FRADB_PLQ (R357). fradb lists the stopped arm's core pending-launch queue. -/
  | fradbPlq
  /-- FRADB_SKEIN (R357). fradb reads and decodes a skein record at the skein home. -/
  | fradbSkein
  /-- FRADB_TILE (R361). fradb reads a tile's tag, W, BUSY, OWNER and counts. -/
  | fradbTile
  /-- FRADB_TILE_ROW (R361). fradb reads elements 0 to 7 of a tile row. -/
  | fradbTileRow
  /-- RESERVED_ENCODING (R225). A word of a reserved major, fn, SYS fn, register number, operand field or EXPR string reaches issue and takes ILLEGAL with no effect. -/
  | reservedEncoding
  /-- SAVE_IMAGE_IMPORT (R370). Firmware imports a pre-empted subtree's save areas, region tree, name entries and skein records from peer memory so that it can resume. -/
  | saveImageImport
  /-- PEER_REQUEST (R194). A request from a peer K9 arrives over a Porruter port and is performed at its home, answered from the tag record, or forwarded toward its DID. -/
  | peerRequest
  /-- STORE_PERFORMED (R91). A store reaches its coherence point and becomes visible to all agents there, completing it for FENCE, STRL and EXIT. -/
  | storePerformed
  /-- CACHE_MAINTENANCE_COMPLETE (R292). Every line covered by a DISC, WBK or INV reaches its final state at MODE.SCOPE and the operation counts as complete. -/
  | cacheMaintenanceComplete
  /-- COH_CHANGE_PUBLISH (R339). The protocol of a SETCOH or MIGRATE reaches its publish and release steps and writes the status into its destination. -/
  | cohChangePublish
  /-- FBREAD_REPLY (R337). The oldest fault-buffer entry, or eight zeros, is written into s(a) to s(a+7) and the registers are set full. -/
  | fbreadReply
  /-- WATCH_QUERY_REPLY (R331). A WARM or WSTAT completes across the homing dies and writes its destination. -/
  | watchQueryReply
  /-- WSLOAD_COMPLETE (R340). A weight-store copy finishes, the target dies become placeable again and later groups read the new contents. -/
  | wsloadComplete
  /-- TLBINV_COMPLETE (R336). No TLB on any die can still supply a removed translation and the TLBINV completes. -/
  | tlbinvComplete
  /-- HALT_STOPPED (R341). The group named by a HALT has stopped both arms at instruction boundaries and the HALT completes. -/
  | haltStopped
  /-- POWER_LOSS (R200). The module loses power, losing all volatile state and possibly tearing an image slot or marker record being written. -/
  | powerLoss
  /-- DEVICE_RESET (R194). The device is reset, firmware increases INCARN in flash and registers take their reset values. -/
  | deviceReset
  deriving DecidableEq, Repr

end Sys2Proof
end

