-- ==== Sys2Proof/WellFormed.lean ====
section
/-!
DEFINITION. Operand kinds (R213) and the static well-formedness of an instruction: the checks
of R225 that the word alone decides. The bounds that depend on VREGS or on ET are checked at issue.
-/

namespace Sys2Proof

/-- Why a word is not an instruction, in the order in which R430 reports it. -/
inductive DecodeError where
  | major | fn | sysfn | sreg | field | expr
  /-- fewer bytes than the instruction has (not a word of the spec: the byte list ended). -/
  | truncated
  deriving DecidableEq, Repr

/-- ILLEGAL DETAIL of a reserved encoding (R429). -/
def DecodeError.detail : DecodeError → Nat
  | .major => 1 | .fn => 2 | .sysfn => 3 | .sreg => 4 | .field => 5 | .expr => 6 | .truncated => 1

namespace Kind

/-- S: s0 to s63, or a literal 64 to 95 (R213). -/
def s (f : Nat) : Bool := decide (f < 96)
/-- SX: a scalar register, no literal. -/
def sx (f : Nat) : Bool := decide (f < 64)
/-- SP: an even pair, or a literal. -/
def sp (f : Nat) : Bool := (decide (f < 64) && f % 2 == 0) || (decide (64 ≤ f) && decide (f < 96))
/-- SXP: an even pair. -/
def sxp (f : Nat) : Bool := decide (f < 64) && f % 2 == 0
/-- V: a vector register (the bound VREGS is checked at issue). -/
def v (f : Nat) : Bool := decide (f < 128)
/-- VP: an even vector pair. -/
def vp (f : Nat) : Bool := decide (f < 128) && f % 2 == 0
/-- P: p0 to p7. -/
def p (f : Nat) : Bool := decide (f < 8)
/-- PD: p1 to p7. -/
def pd (f : Nat) : Bool := decide (1 ≤ f) && decide (f < 8)
/-- T: t0 to t15. -/
def t (f : Nat) : Bool := decide (f < 16)
/-- MB: s32 to s39. -/
def mb (f : Nat) : Bool := decide (32 ≤ f) && decide (f < 40)
/-- 4-block: a multiple of 4 from 0 to 60 (R316). -/
def b4 (f : Nat) : Bool := decide (f ≤ 60) && f % 4 == 0
/-- SX at most 61: names three registers (R224). -/
def sx61 (f : Nat) : Bool := decide (f ≤ 61)
/-- A field of w bits. -/
def bits (w f : Nat) : Bool := decide (f < 2 ^ w)

end Kind

/-- The special registers of 64 bits (R223). -/
def sregWide (b : Nat) : Bool :=
  b == 1 || b == 7 || b == 9 || b == 10 || b == 12 || b == 13 || b == 14

/-- Token j of an EXPR extension word (R211). -/
def exprToken (tokens j : Nat) : Nat := tokens / 16 ^ j % 16

/-- The n tokens that are evaluated (R211). -/
def exprTokens (n tokens : Nat) : List Nat := (List.range n).map (exprToken tokens)

/-- How many entries a token pops (R211). -/
def exprPops (t : Nat) : Nat :=
  if t < 4 then 0 else if t < 9 then 2 else if t < 14 then 1 else 3

/-- The stack depth after a token string, none where an operator pops an empty stack or the depth
passes four (R212). -/
def exprDepth : List Nat → Nat → Option Nat
  | [], k => some k
  | t :: ts, k =>
    if exprPops t ≤ k then
      let k' := k - exprPops t + 1
      if k' ≤ 4 then exprDepth ts k' else none
    else none

/-- A legal EXPR token string (R212); b is the b field. -/
def exprLegal (n tokens b : Nat) : Bool :=
  let ts := exprTokens n tokens
  decide ((ts.filter (fun t => decide (4 ≤ t))).length ≤ 7)
    && exprDepth ts 0 == some 1
    && (!ts.contains 2 || decide (b ≤ 126))
    && tokens / 16 ^ n == 0

/-- Whether every operand field lies in its kind's static range (R213, R224, R301, R316, R332). -/
def Instr.fieldsOk : Instr → Bool
  | .sadd d a b _ _ => Kind.sx d && Kind.s a && Kind.s b
  | .ssub d a b _ _ => Kind.sx d && Kind.s a && Kind.s b
  | .sand d a b _ _ => Kind.sx d && Kind.s a && Kind.s b
  | .sor d a b _ _ => Kind.sx d && Kind.s a && Kind.s b
  | .sxor d a b _ _ => Kind.sx d && Kind.s a && Kind.s b
  | .sshl d a b _ _ => Kind.sx d && Kind.s a && Kind.s b
  | .sshr d a b _ _ => Kind.sx d && Kind.s a && Kind.s b
  | .ssra d a b _ _ => Kind.sx d && Kind.s a && Kind.s b
  | .smul d a b _ _ => Kind.sx d && Kind.s a && Kind.s b
  | .smulh d a b _ _ => Kind.sx d && Kind.s a && Kind.s b
  | .smulhu d a b _ _ => Kind.sx d && Kind.s a && Kind.s b
  | .sdiv d a b _ _ => Kind.sx d && Kind.s a && Kind.s b
  | .sdivu d a b _ _ => Kind.sx d && Kind.s a && Kind.s b
  | .srem d a b _ _ => Kind.sx d && Kind.s a && Kind.s b
  | .sremu d a b _ _ => Kind.sx d && Kind.s a && Kind.s b
  | .ssel d a b _ _ => Kind.sx d && Kind.s a && Kind.s b
  | .smin d a b _ _ => Kind.sx d && Kind.s a && Kind.s b
  | .smax d a b _ _ => Kind.sx d && Kind.s a && Kind.s b
  | .sminu d a b _ _ => Kind.sx d && Kind.s a && Kind.s b
  | .smaxu d a b _ _ => Kind.sx d && Kind.s a && Kind.s b
  | .sslt d a b _ _ => Kind.sx d && Kind.s a && Kind.s b
  | .ssltu d a b _ _ => Kind.sx d && Kind.s a && Kind.s b
  | .sseq d a b _ _ => Kind.sx d && Kind.s a && Kind.s b
  | .ssne d a b _ _ => Kind.sx d && Kind.s a && Kind.s b
  | .sclz d a _ _ => Kind.sx d && Kind.s a
  | .spopc d a _ _ => Kind.sx d && Kind.s a
  | .sadd64 d a b _ _ => Kind.sxp d && Kind.sp a && Kind.sp b
  | .ssub64 d a b _ _ => Kind.sxp d && Kind.sp a && Kind.sp b
  | .smul64 d a b _ _ => Kind.sxp d && Kind.sp a && Kind.sp b
  | .sshl64 d a b _ _ => Kind.sxp d && Kind.sp a && Kind.s b
  | .sshr64 d a b _ _ => Kind.sxp d && Kind.sp a && Kind.s b
  | .sempty d a _ _ => Kind.sx d && Kind.sx a
  | .saddi d a imm => Kind.sx d && Kind.s a && Kind.bits 12 imm
  | .sandi d a imm => Kind.sx d && Kind.s a && Kind.bits 12 imm
  | .sori d a imm => Kind.sx d && Kind.s a && Kind.bits 12 imm
  | .sxori d a imm => Kind.sx d && Kind.s a && Kind.bits 12 imm
  | .sshiShl d a sh => Kind.sx d && Kind.s a && Kind.bits 5 sh
  | .sshiShr d a sh => Kind.sx d && Kind.s a && Kind.bits 5 sh
  | .sshiSra d a sh => Kind.sx d && Kind.s a && Kind.bits 5 sh
  | .sshiRor d a sh => Kind.sx d && Kind.s a && Kind.bits 5 sh
  | .slui d a imm => Kind.sx d && Kind.s a && Kind.bits 12 imm
  | .limm d value => Kind.sx d && Kind.bits 32 value
  | .setm imm => Kind.bits 12 imm
  | .bra off => Kind.bits 26 off
  | .call off => Kind.bits 26 off
  | .beqz x off => Kind.s x && Kind.bits 16 off
  | .bnez x off => Kind.s x && Kind.bits 16 off
  | .bltz x off => Kind.s x && Kind.bits 16 off
  | .bgez x off => Kind.s x && Kind.bits 16 off
  | .bany x off => Kind.p x && Kind.bits 16 off
  | .ball x off => Kind.p x && Kind.bits 16 off
  | .bnone x off => Kind.p x && Kind.bits 16 off
  | .brd x off => Kind.p x && Kind.bits 16 off
  | .brdn x off => Kind.p x && Kind.bits 16 off
  | .divr off => Kind.bits 16 off
  | .yld off => Kind.bits 16 off
  | .jmpr a _ _ => Kind.sp a
  | .callr a _ _ => Kind.sp a
  | .exit a _ _ => Kind.s a
  | .trap a _ _ => Kind.s a
  | .vadd d a b _ _ => Kind.v d && Kind.v a && Kind.v b
  | .vsub d a b _ _ => Kind.v d && Kind.v a && Kind.v b
  | .vmul d a b _ _ => Kind.v d && Kind.v a && Kind.v b
  | .vmulh d a b _ _ => Kind.v d && Kind.v a && Kind.v b
  | .vmad d a b _ _ => Kind.v d && Kind.v a && Kind.v b
  | .vmin d a b _ _ => Kind.v d && Kind.v a && Kind.v b
  | .vmax d a b _ _ => Kind.v d && Kind.v a && Kind.v b
  | .vabsd d a b _ _ => Kind.v d && Kind.v a && Kind.v b
  | .vand d a b _ _ => Kind.v d && Kind.v a && Kind.v b
  | .vor d a b _ _ => Kind.v d && Kind.v a && Kind.v b
  | .vxor d a b _ _ => Kind.v d && Kind.v a && Kind.v b
  | .vshl d a b _ _ => Kind.v d && Kind.v a && Kind.v b
  | .vshr d a b _ _ => Kind.v d && Kind.v a && Kind.v b
  | .vsra d a b _ _ => Kind.v d && Kind.v a && Kind.v b
  | .vsel d a b _ _ => Kind.v d && Kind.v a && Kind.v b
  | .vmov d a _ _ => Kind.v d && Kind.v a
  | .vnot d a _ _ => Kind.v d && Kind.v a
  | .vneg d a _ _ => Kind.v d && Kind.v a
  | .vabs d a _ _ => Kind.v d && Kind.v a
  | .vclz d a _ _ => Kind.v d && Kind.v a
  | .vpopc d a _ _ => Kind.v d && Kind.v a
  | .vbrev d a _ _ => Kind.v d && Kind.v a
  | .vlane d _ _ => Kind.v d
  | .vbcast d a _ _ => Kind.v d && Kind.s a
  | .vcmpEq d a b _ _ => Kind.pd d && Kind.v a && Kind.v b
  | .vcmpNe d a b _ _ => Kind.pd d && Kind.v a && Kind.v b
  | .vcmpLt d a b _ _ => Kind.pd d && Kind.v a && Kind.v b
  | .vcmpLe d a b _ _ => Kind.pd d && Kind.v a && Kind.v b
  | .vcmpGt d a b _ _ => Kind.pd d && Kind.v a && Kind.v b
  | .vcmpGe d a b _ _ => Kind.pd d && Kind.v a && Kind.v b
  | .vfcmpEq d a b _ _ => Kind.pd d && Kind.v a && Kind.v b
  | .vfcmpNe d a b _ _ => Kind.pd d && Kind.v a && Kind.v b
  | .vfcmpLt d a b _ _ => Kind.pd d && Kind.v a && Kind.v b
  | .vfcmpLe d a b _ _ => Kind.pd d && Kind.v a && Kind.v b
  | .vfcmpGt d a b _ _ => Kind.pd d && Kind.v a && Kind.v b
  | .vfcmpGe d a b _ _ => Kind.pd d && Kind.v a && Kind.v b
  | .vfcmpUn d a b _ _ => Kind.pd d && Kind.v a && Kind.v b
  | .vfcmpOr d a b _ _ => Kind.pd d && Kind.v a && Kind.v b
  | .vfadd d a b _ _ => Kind.v d && Kind.v a && Kind.v b
  | .vfsub d a b _ _ => Kind.v d && Kind.v a && Kind.v b
  | .vfmul d a b _ _ => Kind.v d && Kind.v a && Kind.v b
  | .vfma d a b _ _ => Kind.v d && Kind.v a && Kind.v b
  | .vfmin d a b _ _ => Kind.v d && Kind.v a && Kind.v b
  | .vfmax d a b _ _ => Kind.v d && Kind.v a && Kind.v b
  | .vfscale d a b _ _ => Kind.v d && Kind.v a && Kind.v b
  | .vdot d a b _ _ => Kind.v d && Kind.v a && Kind.v b
  | .vrcp d a _ _ => Kind.v d && Kind.v a
  | .vrsq d a _ _ => Kind.v d && Kind.v a
  | .vsqrt d a _ _ => Kind.v d && Kind.v a
  | .vexp2 d a _ _ => Kind.v d && Kind.v a
  | .vlog2 d a _ _ => Kind.v d && Kind.v a
  | .vsin d a _ _ => Kind.v d && Kind.v a
  | .vcos d a _ _ => Kind.v d && Kind.v a
  | .vtanh d a _ _ => Kind.v d && Kind.v a
  | .vcvt d a _ _ => Kind.v d && Kind.v a
  | .vpack d a b _ _ => Kind.v d && Kind.v a && Kind.v b
  | .vunpkl d a _ _ => Kind.v d && Kind.v a
  | .vunpkh d a _ _ => Kind.v d && Kind.v a
  | .vqnt d a b _ _ => Kind.v d && Kind.v a && Kind.s b
  | .vdqnt d a b _ _ => Kind.v d && Kind.v a && Kind.s b
  | .vfclass d a _ _ => Kind.v d && Kind.v a
  | .vrnd d a _ _ => Kind.v d && Kind.v a
  | .vshuf d a b _ _ => Kind.v d && Kind.v a && Kind.v b
  | .vrot d a b _ _ => Kind.v d && Kind.v a && Kind.s b
  | .vrdl d a b _ _ => Kind.sx d && Kind.v a && Kind.s b
  | .vwrl d a b _ _ => Kind.v d && Kind.s a && Kind.s b
  | .vred d a _ _ => Kind.sx d && Kind.v a
  | .vscan d a _ _ => Kind.v d && Kind.v a
  | .vballot d a _ _ => Kind.pd d && Kind.v a
  | .vcompact d a b _ _ => Kind.v d && Kind.v a && Kind.p b
  | .pand d a b _ _ => Kind.pd d && Kind.p a && Kind.p b
  | .por d a b _ _ => Kind.pd d && Kind.p a && Kind.p b
  | .pxor d a b _ _ => Kind.pd d && Kind.p a && Kind.p b
  | .pandn d a b _ _ => Kind.pd d && Kind.p a && Kind.p b
  | .pnot d a _ _ => Kind.pd d && Kind.p a
  | .pfroms d a _ _ => Kind.pd d && Kind.sx61 a
  | .ptos d a _ _ => Kind.sx61 d && Kind.p a
  | .pmov d a _ _ => Kind.pd d && Kind.p a
  | .expr d a b n _ _ tokens => Kind.v d && Kind.v a && Kind.v b && decide (1 ≤ n) && decide (n ≤ 8) && Kind.bits 32 tokens
  | .ld d a pol sz off => (if sz == 3 then Kind.vp d else Kind.v d) && Kind.vp a && Kind.bits 3 pol && Kind.bits 2 sz && Kind.bits 7 off
  | .st d a pol sz off => (if sz == 3 then Kind.vp d else Kind.v d) && Kind.vp a && Kind.bits 3 pol && Kind.bits 2 sz && Kind.bits 7 off
  | .lds d a pol sz off => (if sz == 3 then Kind.sxp d else Kind.sx d) && Kind.sxp a && Kind.bits 3 pol && Kind.bits 2 sz && Kind.bits 7 off
  | .sts d a pol sz off => (if sz == 3 then Kind.sp d else Kind.s d) && Kind.sxp a && Kind.bits 3 pol && Kind.bits 2 sz && Kind.bits 7 off
  | .ldb d a pol sz off => (if sz == 3 then Kind.vp d else Kind.v d) && Kind.sxp a && Kind.bits 3 pol && Kind.bits 2 sz && Kind.bits 7 off
  | .stb d a pol sz off => (if sz == 3 then Kind.vp d else Kind.v d) && Kind.sxp a && Kind.bits 3 pol && Kind.bits 2 sz && Kind.bits 7 off
  | .ldaqScalar d a pol sz off => (if sz == 3 then Kind.sxp d else Kind.sx d) && Kind.sxp a && Kind.bits 3 pol && Kind.bits 2 sz && Kind.bits 6 off
  | .ldaqVector d a pol sz off => (if sz == 3 then Kind.vp d else Kind.v d) && Kind.vp a && Kind.bits 3 pol && Kind.bits 2 sz && Kind.bits 6 off
  | .strlScalar d a pol sz off => (if sz == 3 then Kind.sxp d else Kind.sx d) && Kind.sxp a && Kind.bits 3 pol && Kind.bits 2 sz && Kind.bits 6 off
  | .strlVector d a pol sz off => (if sz == 3 then Kind.vp d else Kind.v d) && Kind.vp a && Kind.bits 3 pol && Kind.bits 2 sz && Kind.bits 6 off
  | .atomAdd d a b _ _ => Kind.v d && Kind.vp a && Kind.v b
  | .atomAnd d a b _ _ => Kind.v d && Kind.vp a && Kind.v b
  | .atomOr d a b _ _ => Kind.v d && Kind.vp a && Kind.v b
  | .atomXor d a b _ _ => Kind.v d && Kind.vp a && Kind.v b
  | .atomMin d a b _ _ => Kind.v d && Kind.vp a && Kind.v b
  | .atomMax d a b _ _ => Kind.v d && Kind.vp a && Kind.v b
  | .atomXchg d a b _ _ => Kind.v d && Kind.vp a && Kind.v b
  | .atomFadd d a b _ _ => Kind.v d && Kind.vp a && Kind.v b
  | .acasVector d a b _ _ => Kind.v d && Kind.vp a && Kind.v b
  | .acasScalar d a b _ _ => Kind.sx d && Kind.sxp a && Kind.s b
  | .atomsAdd d a b _ _ => Kind.sx d && Kind.sxp a && Kind.s b
  | .atomsAnd d a b _ _ => Kind.sx d && Kind.sxp a && Kind.s b
  | .atomsOr d a b _ _ => Kind.sx d && Kind.sxp a && Kind.s b
  | .atomsXor d a b _ _ => Kind.sx d && Kind.sxp a && Kind.s b
  | .atomsMin d a b _ _ => Kind.sx d && Kind.sxp a && Kind.s b
  | .atomsMax d a b _ _ => Kind.sx d && Kind.sxp a && Kind.s b
  | .atomsXchg d a b _ _ => Kind.sx d && Kind.sxp a && Kind.s b
  | .atomsFadd d a b _ _ => Kind.sx d && Kind.sxp a && Kind.s b
  | .redAdd a b _ _ => Kind.vp a && Kind.v b
  | .redFadd a b _ _ => Kind.vp a && Kind.v b
  | .redMin a b _ _ => Kind.vp a && Kind.v b
  | .redMax a b _ _ => Kind.vp a && Kind.v b
  | .redAnd a b _ _ => Kind.vp a && Kind.v b
  | .redOr a b _ _ => Kind.vp a && Kind.v b
  | .redXor a b _ _ => Kind.vp a && Kind.v b
  | .pref a b _ _ => Kind.sxp a && Kind.s b
  | .disc a b _ _ => Kind.sxp a && Kind.s b
  | .wbk a b _ _ => Kind.sxp a && Kind.s b
  | .inv a b _ _ => Kind.sxp a && Kind.s b
  | .rflush b _ _ => Kind.s b
  | .fence _ _ scope pred succ => Kind.bits 2 scope && Kind.bits 4 pred && Kind.bits 4 succ
  | .bari a b _ _ => Kind.s a && Kind.s b
  | .bara a b _ _ => Kind.s a && Kind.s b
  | .barw a b _ _ => Kind.s a && Kind.s b
  | .barx a b _ _ => Kind.s a && Kind.s b
  | .barq d a b _ _ => Kind.sx d && Kind.s a && Kind.s b
  | .acopy d a b _ _ => Kind.sxp d && Kind.sxp a && Kind.s b
  | .acopy2d d a b _ _ => Kind.sxp d && Kind.sxp a && Kind.sxp b
  | .tagw d a _ _ => Kind.v d && Kind.s a
  | .mreq d a b _ _ => Kind.sx d && Kind.s a && Kind.sxp b
  | .trd d a b _ _ => Kind.vp d && Kind.t a && Kind.s b
  | .twr d a b _ _ => Kind.vp d && Kind.t a && Kind.s b
  | .twm d a b _ _ => Kind.vp d && Kind.t a && Kind.s b
  | .tdrain d a b _ _ => Kind.sxp d && Kind.t a && Kind.sxp b
  | .mma d a b _ _ => Kind.t d && Kind.s a && Kind.s b
  | .mmas d a b _ _ => Kind.t d && Kind.s a && Kind.s b
  | .mmaq d a b _ _ => Kind.t d && Kind.s a && Kind.s b
  | .tzero d _ _ => Kind.t d
  | .tload d a b _ _ => Kind.t d && Kind.sxp a && Kind.s b
  | .tstore d a b _ _ => Kind.t d && Kind.sxp a && Kind.s b
  | .msig a _ _ => Kind.s a
  | .twalk a b _ _ => Kind.s a && Kind.sxp b
  | .permit a b _ _ => Kind.s a && Kind.s b
  | .srdef a b _ _ => Kind.s a && Kind.s b
  | .vcnt a b _ _ => Kind.s a && Kind.s b
  | .scaleb a b _ _ => Kind.sxp a && Kind.sxp b
  | .tfill d a _ _ => Kind.t d && Kind.s a
  | .wake a _ _ => Kind.sxp a
  | .sig a b _ _ => Kind.sxp a && Kind.s b
  | .depo d a b _ _ => Kind.mb d && Kind.sxp a && Kind.s b
  | .join d a _ _ => Kind.sx d && Kind.sxp a
  | .sigw d a _ _ => Kind.sx d && Kind.s a
  | .ngrant a b _ _ => Kind.sxp a && Kind.s b
  | .nrevoke a b _ _ => Kind.sxp a && Kind.s b
  | .launch a _ _ => Kind.sxp a
  | .take d _ _ => Kind.b4 d
  | .post a b _ _ => Kind.s a && Kind.sxp b
  | .qstat d a _ _ => Kind.sx d && Kind.s a
  | .hnew d a b _ _ => Kind.sxp d && Kind.s a && Kind.sp b
  | .hsplit d a _ _ => Kind.sxp d && Kind.sxp a
  | .hdrop a _ _ => Kind.sxp a
  | .hmerge d a _ _ => Kind.sxp d && Kind.sxp a
  | .hbind a b _ _ => Kind.sxp a && Kind.sp b
  | .hinfo d a _ _ => Kind.sxp d && Kind.sxp a
  | .haddr d a b _ _ => Kind.sxp d && Kind.sxp a && Kind.b4 b
  | .scopew d a _ _ => Kind.sx d && Kind.sxp a
  | .watch d a _ _ => Kind.sx d && Kind.sxp a
  | .unwatch d a _ _ => Kind.sx d && Kind.s a
  | .warm d a _ _ => Kind.sx d && Kind.s a
  | .wstat d a _ _ => Kind.sx d && Kind.s a
  | .srd a b => decide (b < 19) && (if sregWide b then Kind.sxp a else Kind.sx a)
  | .swr a b => decide (b < 19) && (if sregWide b then Kind.sp a else Kind.s a)
  | .tlbinv a b c => (if c == 0 then Kind.sxp a && Kind.sxp b else if c == 1 then a == 0 && Kind.sxp b else c == 2 && a == 0 && b == 0)
  | .fbread a => decide (a ≤ 56) && a % 8 == 0
  | .replay a => Kind.sxp a
  | .setcoh a b c => decide (a ≤ 60) && a % 2 == 0 && Kind.sx b && decide (c ≤ 2)
  | .migrate a b c => decide (a ≤ 58) && a % 2 == 0 && Kind.sx b && decide (c ≤ 2)
  | .wsload a c => decide (a ≤ 60) && a % 2 == 0 && (decide (c ≤ 5) || c == 15)
  | .halt a => Kind.sxp a
  | .haltRelease a => Kind.sxp a
  | .swapout a b => Kind.sxp a && Kind.sx b
  | .rcv => true
  | .ret => true
  | .bkpt => true
  | .nop => true
  | .tsync => true
  | .clust => true
  | .sleep => true
  | .trapret => true
  | .replayDie => true
  | .submissionDoorbell => true
  | .intakeRecord => true
  | .pendingLaunchDrain => true
  | .launchStart => true
  | .launchStarvation => true
  | .rankPlace => true
  | .swapThreshold => true
  | .saveComplete => true
  | .groupResume => true
  | .yieldReady => true
  | .doldrumsExpiry => true
  | .groupExitComplete => true
  | .loadDataReturn => true
  | .atomicReturn => true
  | .vsfuComplete => true
  | .postedOpAck => true
  | .wakeDelivery => true
  | .sigDelivery => true
  | .depoDelivery => true
  | .joinDelivery => true
  | .ngrantDelivery => true
  | .nrevokeDelivery => true
  | .joinValueArrival => true
  | .namePortWake => true
  | .namePortSig => true
  | .namePortDepo => true
  | .namePortJoin => true
  | .namePortHexit => true
  | .namePortReservedOp => true
  | .namePortDiscardedWrite => true
  | .hostNameAlloc => true
  | .nameRelease => true
  | .portUnbind => true
  | .skeinAlloc => true
  | .indirectionAlloc => true
  | .skeinDrop => true
  | .skeinBind => true
  | .scopewAttach => true
  | .skeinReply => true
  | .scopewComplete => true
  | .takeItemDelivery => true
  | .postAccept => true
  | .watchInstallComplete => true
  | .watchedWriteAtHome => true
  | .watchWindowClose => true
  | .watchPeriodStart => true
  | .unwatchComplete => true
  | .sequencerTakeEntry => true
  | .msigDelivery => true
  | .routineEnd => true
  | .clustBindTake => true
  | .matrixOpStart => true
  | .matrixPassComplete => true
  | .tileRowWritten => true
  | .tstoreRow => true
  | .walkTileFetch => true
  | .walkTileDelivered => true
  | .trdServe => true
  | .tdrainRow => true
  | .requestHoldEnd => true
  | .copyComplete => true
  | .barrierArrival => true
  | .atomicBufferDrain => true
  | .redApply => true
  | .reductionSetApply => true
  | .walkComplete => true
  | .hostAccess => true
  | .dieWakeComplete => true
  | .diePowerDown => true
  | .diepwrReq => true
  | .remoteErrorResponse => true
  | .mcheckDeliver => true
  | .memoryUncorrectable => true
  | .registerUncorrectable => true
  | .weightBankRefresh => true
  | .weightRefreshFail => true
  | .skeinRecordError => true
  | .nameEntryError => true
  | .prectlGo => true
  | .prectlClearDone => true
  | .prectlClearErr => true
  | .preemptDrainEnd => true
  | .preemptDone => true
  | .registerWrite => true
  | .hownAdopt => true
  | .hownClearStale => true
  | .linkTraining => true
  | .flitCrcError => true
  | .linkAckTimeout => true
  | .laneRetire => true
  | .widthChangeComplete => true
  | .hostLoss => true
  | .firmwareHeartbeatTimeout => true
  | .liveUpdate => true
  | .complexBoot => true
  | .powerUp => true
  | .spdmGetVersion => true
  | .spdmGetCapabilities => true
  | .spdmNegotiateAlgorithms => true
  | .spdmGetDigests => true
  | .spdmGetCertificate => true
  | .spdmChallenge => true
  | .spdmGetMeasurements => true
  | .spdmUnsupported => true
  | .registerServicer => true
  | .regionEnd => true
  | .thermalThrottle => true
  | .thermalUnthrottle => true
  | .thermalEmergency => true
  | .thermalTrip => true
  | .powerOverCap => true
  | .dieLinkFail => true
  | .dieSelfFence => true
  | .clusterRetire => true
  | .channelRetire => true
  | .securityAlarm => true
  | .fradbAttach => true
  | .fradbBreak => true
  | .fradbBreakHit => true
  | .fradbContinue => true
  | .fradbStep => true
  | .fradbStepNotReady => true
  | .fradbPrint => true
  | .fradbName => true
  | .fradbSave => true
  | .fradbX => true
  | .fradbIntakeHold => true
  | .fradbIntakeRelease => true
  | .fradbPlq => true
  | .fradbSkein => true
  | .fradbTile => true
  | .fradbTileRow => true
  | .reservedEncoding => true
  | .saveImageImport => true
  | .peerRequest => true
  | .storePerformed => true
  | .cacheMaintenanceComplete => true
  | .cohChangePublish => true
  | .fbreadReply => true
  | .watchQueryReply => true
  | .wsloadComplete => true
  | .tlbinvComplete => true
  | .haltStopped => true
  | .powerLoss => true
  | .deviceReset => true

/-- The first static check an instruction fails, in the order of R430: the special-register number,
the operand fields, the token string. -/
def Instr.check (i : Instr) : Option DecodeError :=
  match i with
  | .srd _ b => if b < 19 then (if i.fieldsOk then none else some .field) else some .sreg
  | .swr _ b => if b < 19 then (if i.fieldsOk then none else some .field) else some .sreg
  | .expr _ _ b n _ _ tokens =>
    if i.fieldsOk then (if exprLegal n tokens b then none else some .expr) else some .field
  | _ => if i.fieldsOk then none else some .field

/-- A well-formed instruction. -/
def Instr.WellFormed (i : Instr) : Prop := i.check = none

/-- Rows that are steps of other agents, with no word of their own. -/
def Instr.isEvent : Instr → Bool
  | .sadd _ _ _ _ _ => false
  | .ssub _ _ _ _ _ => false
  | .sand _ _ _ _ _ => false
  | .sor _ _ _ _ _ => false
  | .sxor _ _ _ _ _ => false
  | .sshl _ _ _ _ _ => false
  | .sshr _ _ _ _ _ => false
  | .ssra _ _ _ _ _ => false
  | .smul _ _ _ _ _ => false
  | .smulh _ _ _ _ _ => false
  | .smulhu _ _ _ _ _ => false
  | .sdiv _ _ _ _ _ => false
  | .sdivu _ _ _ _ _ => false
  | .srem _ _ _ _ _ => false
  | .sremu _ _ _ _ _ => false
  | .ssel _ _ _ _ _ => false
  | .smin _ _ _ _ _ => false
  | .smax _ _ _ _ _ => false
  | .sminu _ _ _ _ _ => false
  | .smaxu _ _ _ _ _ => false
  | .sslt _ _ _ _ _ => false
  | .ssltu _ _ _ _ _ => false
  | .sseq _ _ _ _ _ => false
  | .ssne _ _ _ _ _ => false
  | .sclz _ _ _ _ => false
  | .spopc _ _ _ _ => false
  | .sadd64 _ _ _ _ _ => false
  | .ssub64 _ _ _ _ _ => false
  | .smul64 _ _ _ _ _ => false
  | .sshl64 _ _ _ _ _ => false
  | .sshr64 _ _ _ _ _ => false
  | .sempty _ _ _ _ => false
  | .saddi _ _ _ => false
  | .sandi _ _ _ => false
  | .sori _ _ _ => false
  | .sxori _ _ _ => false
  | .sshiShl _ _ _ => false
  | .sshiShr _ _ _ => false
  | .sshiSra _ _ _ => false
  | .sshiRor _ _ _ => false
  | .slui _ _ _ => false
  | .limm _ _ => false
  | .setm _ => false
  | .bra _ => false
  | .call _ => false
  | .beqz _ _ => false
  | .bnez _ _ => false
  | .bltz _ _ => false
  | .bgez _ _ => false
  | .bany _ _ => false
  | .ball _ _ => false
  | .bnone _ _ => false
  | .brd _ _ => false
  | .brdn _ _ => false
  | .divr _ => false
  | .yld _ => false
  | .jmpr _ _ _ => false
  | .callr _ _ _ => false
  | .exit _ _ _ => false
  | .trap _ _ _ => false
  | .vadd _ _ _ _ _ => false
  | .vsub _ _ _ _ _ => false
  | .vmul _ _ _ _ _ => false
  | .vmulh _ _ _ _ _ => false
  | .vmad _ _ _ _ _ => false
  | .vmin _ _ _ _ _ => false
  | .vmax _ _ _ _ _ => false
  | .vabsd _ _ _ _ _ => false
  | .vand _ _ _ _ _ => false
  | .vor _ _ _ _ _ => false
  | .vxor _ _ _ _ _ => false
  | .vshl _ _ _ _ _ => false
  | .vshr _ _ _ _ _ => false
  | .vsra _ _ _ _ _ => false
  | .vsel _ _ _ _ _ => false
  | .vmov _ _ _ _ => false
  | .vnot _ _ _ _ => false
  | .vneg _ _ _ _ => false
  | .vabs _ _ _ _ => false
  | .vclz _ _ _ _ => false
  | .vpopc _ _ _ _ => false
  | .vbrev _ _ _ _ => false
  | .vlane _ _ _ => false
  | .vbcast _ _ _ _ => false
  | .vcmpEq _ _ _ _ _ => false
  | .vcmpNe _ _ _ _ _ => false
  | .vcmpLt _ _ _ _ _ => false
  | .vcmpLe _ _ _ _ _ => false
  | .vcmpGt _ _ _ _ _ => false
  | .vcmpGe _ _ _ _ _ => false
  | .vfcmpEq _ _ _ _ _ => false
  | .vfcmpNe _ _ _ _ _ => false
  | .vfcmpLt _ _ _ _ _ => false
  | .vfcmpLe _ _ _ _ _ => false
  | .vfcmpGt _ _ _ _ _ => false
  | .vfcmpGe _ _ _ _ _ => false
  | .vfcmpUn _ _ _ _ _ => false
  | .vfcmpOr _ _ _ _ _ => false
  | .vfadd _ _ _ _ _ => false
  | .vfsub _ _ _ _ _ => false
  | .vfmul _ _ _ _ _ => false
  | .vfma _ _ _ _ _ => false
  | .vfmin _ _ _ _ _ => false
  | .vfmax _ _ _ _ _ => false
  | .vfscale _ _ _ _ _ => false
  | .vdot _ _ _ _ _ => false
  | .vrcp _ _ _ _ => false
  | .vrsq _ _ _ _ => false
  | .vsqrt _ _ _ _ => false
  | .vexp2 _ _ _ _ => false
  | .vlog2 _ _ _ _ => false
  | .vsin _ _ _ _ => false
  | .vcos _ _ _ _ => false
  | .vtanh _ _ _ _ => false
  | .vcvt _ _ _ _ => false
  | .vpack _ _ _ _ _ => false
  | .vunpkl _ _ _ _ => false
  | .vunpkh _ _ _ _ => false
  | .vqnt _ _ _ _ _ => false
  | .vdqnt _ _ _ _ _ => false
  | .vfclass _ _ _ _ => false
  | .vrnd _ _ _ _ => false
  | .vshuf _ _ _ _ _ => false
  | .vrot _ _ _ _ _ => false
  | .vrdl _ _ _ _ _ => false
  | .vwrl _ _ _ _ _ => false
  | .vred _ _ _ _ => false
  | .vscan _ _ _ _ => false
  | .vballot _ _ _ _ => false
  | .vcompact _ _ _ _ _ => false
  | .pand _ _ _ _ _ => false
  | .por _ _ _ _ _ => false
  | .pxor _ _ _ _ _ => false
  | .pandn _ _ _ _ _ => false
  | .pnot _ _ _ _ => false
  | .pfroms _ _ _ _ => false
  | .ptos _ _ _ _ => false
  | .pmov _ _ _ _ => false
  | .expr _ _ _ _ _ _ _ => false
  | .ld _ _ _ _ _ => false
  | .st _ _ _ _ _ => false
  | .lds _ _ _ _ _ => false
  | .sts _ _ _ _ _ => false
  | .ldb _ _ _ _ _ => false
  | .stb _ _ _ _ _ => false
  | .ldaqScalar _ _ _ _ _ => false
  | .ldaqVector _ _ _ _ _ => false
  | .strlScalar _ _ _ _ _ => false
  | .strlVector _ _ _ _ _ => false
  | .atomAdd _ _ _ _ _ => false
  | .atomAnd _ _ _ _ _ => false
  | .atomOr _ _ _ _ _ => false
  | .atomXor _ _ _ _ _ => false
  | .atomMin _ _ _ _ _ => false
  | .atomMax _ _ _ _ _ => false
  | .atomXchg _ _ _ _ _ => false
  | .atomFadd _ _ _ _ _ => false
  | .acasVector _ _ _ _ _ => false
  | .acasScalar _ _ _ _ _ => false
  | .atomsAdd _ _ _ _ _ => false
  | .atomsAnd _ _ _ _ _ => false
  | .atomsOr _ _ _ _ _ => false
  | .atomsXor _ _ _ _ _ => false
  | .atomsMin _ _ _ _ _ => false
  | .atomsMax _ _ _ _ _ => false
  | .atomsXchg _ _ _ _ _ => false
  | .atomsFadd _ _ _ _ _ => false
  | .redAdd _ _ _ _ => false
  | .redFadd _ _ _ _ => false
  | .redMin _ _ _ _ => false
  | .redMax _ _ _ _ => false
  | .redAnd _ _ _ _ => false
  | .redOr _ _ _ _ => false
  | .redXor _ _ _ _ => false
  | .pref _ _ _ _ => false
  | .disc _ _ _ _ => false
  | .wbk _ _ _ _ => false
  | .inv _ _ _ _ => false
  | .rflush _ _ _ => false
  | .fence _ _ _ _ _ => false
  | .bari _ _ _ _ => false
  | .bara _ _ _ _ => false
  | .barw _ _ _ _ => false
  | .barx _ _ _ _ => false
  | .barq _ _ _ _ _ => false
  | .acopy _ _ _ _ _ => false
  | .acopy2d _ _ _ _ _ => false
  | .tagw _ _ _ _ => false
  | .mreq _ _ _ _ _ => false
  | .trd _ _ _ _ _ => false
  | .twr _ _ _ _ _ => false
  | .twm _ _ _ _ _ => false
  | .tdrain _ _ _ _ _ => false
  | .mma _ _ _ _ _ => false
  | .mmas _ _ _ _ _ => false
  | .mmaq _ _ _ _ _ => false
  | .tzero _ _ _ => false
  | .tload _ _ _ _ _ => false
  | .tstore _ _ _ _ _ => false
  | .msig _ _ _ => false
  | .twalk _ _ _ _ => false
  | .permit _ _ _ _ => false
  | .srdef _ _ _ _ => false
  | .vcnt _ _ _ _ => false
  | .scaleb _ _ _ _ => false
  | .tfill _ _ _ _ => false
  | .wake _ _ _ => false
  | .sig _ _ _ _ => false
  | .depo _ _ _ _ _ => false
  | .join _ _ _ _ => false
  | .sigw _ _ _ _ => false
  | .ngrant _ _ _ _ => false
  | .nrevoke _ _ _ _ => false
  | .launch _ _ _ => false
  | .take _ _ _ => false
  | .post _ _ _ _ => false
  | .qstat _ _ _ _ => false
  | .hnew _ _ _ _ _ => false
  | .hsplit _ _ _ _ => false
  | .hdrop _ _ _ => false
  | .hmerge _ _ _ _ => false
  | .hbind _ _ _ _ => false
  | .hinfo _ _ _ _ => false
  | .haddr _ _ _ _ _ => false
  | .scopew _ _ _ _ => false
  | .watch _ _ _ _ => false
  | .unwatch _ _ _ _ => false
  | .warm _ _ _ _ => false
  | .wstat _ _ _ _ => false
  | .srd _ _ => false
  | .swr _ _ => false
  | .tlbinv _ _ _ => false
  | .fbread _ => false
  | .replay _ => false
  | .setcoh _ _ _ => false
  | .migrate _ _ _ => false
  | .wsload _ _ => false
  | .halt _ => false
  | .haltRelease _ => false
  | .swapout _ _ => false
  | .rcv => false
  | .ret => false
  | .bkpt => false
  | .nop => false
  | .tsync => false
  | .clust => false
  | .sleep => false
  | .trapret => false
  | .replayDie => false
  | .submissionDoorbell => true
  | .intakeRecord => true
  | .pendingLaunchDrain => true
  | .launchStart => true
  | .launchStarvation => true
  | .rankPlace => true
  | .swapThreshold => true
  | .saveComplete => true
  | .groupResume => true
  | .yieldReady => true
  | .doldrumsExpiry => true
  | .groupExitComplete => true
  | .loadDataReturn => true
  | .atomicReturn => true
  | .vsfuComplete => true
  | .postedOpAck => true
  | .wakeDelivery => true
  | .sigDelivery => true
  | .depoDelivery => true
  | .joinDelivery => true
  | .ngrantDelivery => true
  | .nrevokeDelivery => true
  | .joinValueArrival => true
  | .namePortWake => true
  | .namePortSig => true
  | .namePortDepo => true
  | .namePortJoin => true
  | .namePortHexit => true
  | .namePortReservedOp => true
  | .namePortDiscardedWrite => true
  | .hostNameAlloc => true
  | .nameRelease => true
  | .portUnbind => true
  | .skeinAlloc => true
  | .indirectionAlloc => true
  | .skeinDrop => true
  | .skeinBind => true
  | .scopewAttach => true
  | .skeinReply => true
  | .scopewComplete => true
  | .takeItemDelivery => true
  | .postAccept => true
  | .watchInstallComplete => true
  | .watchedWriteAtHome => true
  | .watchWindowClose => true
  | .watchPeriodStart => true
  | .unwatchComplete => true
  | .sequencerTakeEntry => true
  | .msigDelivery => true
  | .routineEnd => true
  | .clustBindTake => true
  | .matrixOpStart => true
  | .matrixPassComplete => true
  | .tileRowWritten => true
  | .tstoreRow => true
  | .walkTileFetch => true
  | .walkTileDelivered => true
  | .trdServe => true
  | .tdrainRow => true
  | .requestHoldEnd => true
  | .copyComplete => true
  | .barrierArrival => true
  | .atomicBufferDrain => true
  | .redApply => true
  | .reductionSetApply => true
  | .walkComplete => true
  | .hostAccess => true
  | .dieWakeComplete => true
  | .diePowerDown => true
  | .diepwrReq => true
  | .remoteErrorResponse => true
  | .mcheckDeliver => true
  | .memoryUncorrectable => true
  | .registerUncorrectable => true
  | .weightBankRefresh => true
  | .weightRefreshFail => true
  | .skeinRecordError => true
  | .nameEntryError => true
  | .prectlGo => true
  | .prectlClearDone => true
  | .prectlClearErr => true
  | .preemptDrainEnd => true
  | .preemptDone => true
  | .registerWrite => true
  | .hownAdopt => true
  | .hownClearStale => true
  | .linkTraining => true
  | .flitCrcError => true
  | .linkAckTimeout => true
  | .laneRetire => true
  | .widthChangeComplete => true
  | .hostLoss => true
  | .firmwareHeartbeatTimeout => true
  | .liveUpdate => true
  | .complexBoot => true
  | .powerUp => true
  | .spdmGetVersion => true
  | .spdmGetCapabilities => true
  | .spdmNegotiateAlgorithms => true
  | .spdmGetDigests => true
  | .spdmGetCertificate => true
  | .spdmChallenge => true
  | .spdmGetMeasurements => true
  | .spdmUnsupported => true
  | .registerServicer => true
  | .regionEnd => true
  | .thermalThrottle => true
  | .thermalUnthrottle => true
  | .thermalEmergency => true
  | .thermalTrip => true
  | .powerOverCap => true
  | .dieLinkFail => true
  | .dieSelfFence => true
  | .clusterRetire => true
  | .channelRetire => true
  | .securityAlarm => true
  | .fradbAttach => true
  | .fradbBreak => true
  | .fradbBreakHit => true
  | .fradbContinue => true
  | .fradbStep => true
  | .fradbStepNotReady => true
  | .fradbPrint => true
  | .fradbName => true
  | .fradbSave => true
  | .fradbX => true
  | .fradbIntakeHold => true
  | .fradbIntakeRelease => true
  | .fradbPlq => true
  | .fradbSkein => true
  | .fradbTile => true
  | .fradbTileRow => true
  | .reservedEncoding => true
  | .saveImageImport => true
  | .peerRequest => true
  | .storePerformed => true
  | .cacheMaintenanceComplete => true
  | .cohChangePublish => true
  | .fbreadReply => true
  | .watchQueryReply => true
  | .wsloadComplete => true
  | .tlbinvComplete => true
  | .haltStopped => true
  | .powerLoss => true
  | .deviceReset => true

end Sys2Proof
end

