-- ==== Sys2Proof/Decode.lean ====
section
/-!
DEFINITION. The decoder, total on any bytes, and the encoder written from the same
encodings (R208 to R212, R221 to R224, R301, R316, R332, R93).
-/

namespace Sys2Proof

/-- Field d of a word, bits 25:19 (R210). -/
def fldD (w : Nat) : Nat := w / 524288 % 128
/-- Field a, bits 18:12. -/
def fldA (w : Nat) : Nat := w / 4096 % 128
/-- Field b, bits 11:5. -/
def fldB (w : Nat) : Nat := w / 32 % 128
/-- Bit 1, Ea. -/
def fldEa (w : Nat) : Bool := w / 2 % 2 == 1
/-- Bit 0, Eb. -/
def fldEb (w : Nat) : Bool := w % 2 == 1
/-- Field fn of format A, bits 4:2. -/
def fldFn (w : Nat) : Nat := w / 4 % 8
/-- Field imm of format B, bits 11:0. -/
def fldImm (w : Nat) : Nat := w % 4096
/-- Field fn of format C, bits 25:23. -/
def fldFnC (w : Nat) : Nat := w / 8388608 % 8
/-- Field x of format C, bits 22:16. -/
def fldX (w : Nat) : Nat := w / 65536 % 128
/-- Field off of format C, bits 15:0. -/
def fldOff16 (w : Nat) : Nat := w % 65536
/-- Field off of format D, bits 25:0. -/
def fldOff26 (w : Nat) : Nat := w % 67108864
/-- Field pol of format M, bits 11:9. -/
def fldPol (w : Nat) : Nat := w / 512 % 8
/-- Field sz of format M, bits 8:7. -/
def fldSz (w : Nat) : Nat := w / 128 % 4
/-- Field off of format M, bits 6:0. -/
def fldOff7 (w : Nat) : Nat := w % 128
/-- Field off of LDAQ and STRL, bits 5:0 (R220). -/
def fldOff6 (w : Nat) : Nat := w % 64
/-- Field fn of format S, bits 25:18. -/
def fldFnS (w : Nat) : Nat := w / 262144 % 256
/-- Field a of format S, bits 17:11. -/
def fldSA (w : Nat) : Nat := w / 2048 % 128
/-- Field b of format S, bits 10:4. -/
def fldSB (w : Nat) : Nat := w / 16 % 128
/-- Field c of format S, bits 3:0. -/
def fldSC (w : Nat) : Nat := w % 16

/-- An instruction whose unused fields must be zero (R213, kind Z). -/
def needZero (z : Bool) (i : Instr) : Except DecodeError Instr :=
  if z then .ok i else .error .field

/-- Major 0x01 by fn (R221). -/
def decodeMajor01 (w : Nat) : Except DecodeError Instr :=
  match fldFn w with
  | 0 => .ok (.sadd (fldD w) (fldA w) (fldB w) (fldEa w) (fldEb w))
  | 1 => .ok (.ssub (fldD w) (fldA w) (fldB w) (fldEa w) (fldEb w))
  | 2 => .ok (.sand (fldD w) (fldA w) (fldB w) (fldEa w) (fldEb w))
  | 3 => .ok (.sor (fldD w) (fldA w) (fldB w) (fldEa w) (fldEb w))
  | 4 => .ok (.sxor (fldD w) (fldA w) (fldB w) (fldEa w) (fldEb w))
  | 5 => .ok (.sshl (fldD w) (fldA w) (fldB w) (fldEa w) (fldEb w))
  | 6 => .ok (.sshr (fldD w) (fldA w) (fldB w) (fldEa w) (fldEb w))
  | 7 => .ok (.ssra (fldD w) (fldA w) (fldB w) (fldEa w) (fldEb w))
  | _ => .error .fn

/-- Major 0x02 by fn (R221). -/
def decodeMajor02 (w : Nat) : Except DecodeError Instr :=
  match fldFn w with
  | 0 => .ok (.smul (fldD w) (fldA w) (fldB w) (fldEa w) (fldEb w))
  | 1 => .ok (.smulh (fldD w) (fldA w) (fldB w) (fldEa w) (fldEb w))
  | 2 => .ok (.smulhu (fldD w) (fldA w) (fldB w) (fldEa w) (fldEb w))
  | 3 => .ok (.sdiv (fldD w) (fldA w) (fldB w) (fldEa w) (fldEb w))
  | 4 => .ok (.sdivu (fldD w) (fldA w) (fldB w) (fldEa w) (fldEb w))
  | 5 => .ok (.srem (fldD w) (fldA w) (fldB w) (fldEa w) (fldEb w))
  | 6 => .ok (.sremu (fldD w) (fldA w) (fldB w) (fldEa w) (fldEb w))
  | 7 => .ok (.ssel (fldD w) (fldA w) (fldB w) (fldEa w) (fldEb w))
  | _ => .error .fn

/-- Major 0x03 by fn (R221). -/
def decodeMajor03 (w : Nat) : Except DecodeError Instr :=
  match fldFn w with
  | 0 => .ok (.smin (fldD w) (fldA w) (fldB w) (fldEa w) (fldEb w))
  | 1 => .ok (.smax (fldD w) (fldA w) (fldB w) (fldEa w) (fldEb w))
  | 2 => .ok (.sminu (fldD w) (fldA w) (fldB w) (fldEa w) (fldEb w))
  | 3 => .ok (.smaxu (fldD w) (fldA w) (fldB w) (fldEa w) (fldEb w))
  | 4 => .ok (.sslt (fldD w) (fldA w) (fldB w) (fldEa w) (fldEb w))
  | 5 => .ok (.ssltu (fldD w) (fldA w) (fldB w) (fldEa w) (fldEb w))
  | 6 => .ok (.sseq (fldD w) (fldA w) (fldB w) (fldEa w) (fldEb w))
  | 7 => .ok (.ssne (fldD w) (fldA w) (fldB w) (fldEa w) (fldEb w))
  | _ => .error .fn

/-- Major 0x04 by fn (R221). -/
def decodeMajor04 (w : Nat) : Except DecodeError Instr :=
  match fldFn w with
  | 0 => needZero (fldB w == 0) (.sclz (fldD w) (fldA w) (fldEa w) (fldEb w))
  | 1 => needZero (fldB w == 0) (.spopc (fldD w) (fldA w) (fldEa w) (fldEb w))
  | 2 => .ok (.sadd64 (fldD w) (fldA w) (fldB w) (fldEa w) (fldEb w))
  | 3 => .ok (.ssub64 (fldD w) (fldA w) (fldB w) (fldEa w) (fldEb w))
  | 4 => .ok (.smul64 (fldD w) (fldA w) (fldB w) (fldEa w) (fldEb w))
  | 5 => .ok (.sshl64 (fldD w) (fldA w) (fldB w) (fldEa w) (fldEb w))
  | 6 => .ok (.sshr64 (fldD w) (fldA w) (fldB w) (fldEa w) (fldEb w))
  | 7 => needZero (fldB w == 0) (.sempty (fldD w) (fldA w) (fldEa w) (fldEb w))
  | _ => .error .fn

/-- Major 0x05 (R221). -/
def decodeMajor05 (w : Nat) : Except DecodeError Instr :=
  .ok (.saddi (fldD w) (fldA w) (fldImm w))

/-- Major 0x06 (R221). -/
def decodeMajor06 (w : Nat) : Except DecodeError Instr :=
  .ok (.sandi (fldD w) (fldA w) (fldImm w))

/-- Major 0x07 (R221). -/
def decodeMajor07 (w : Nat) : Except DecodeError Instr :=
  .ok (.sori (fldD w) (fldA w) (fldImm w))

/-- Major 0x08 (R221). -/
def decodeMajor08 (w : Nat) : Except DecodeError Instr :=
  .ok (.sxori (fldD w) (fldA w) (fldImm w))

/-- Major 0x09, SSHI (R237). -/
def decodeMajor09 (w : Nat) : Except DecodeError Instr :=
  if fldImm w / 32 % 32 == 0 then
    match fldImm w / 1024 with
    | 0 => .ok (.sshiShl (fldD w) (fldA w) (w % 32))
    | 1 => .ok (.sshiShr (fldD w) (fldA w) (w % 32))
    | 2 => .ok (.sshiSra (fldD w) (fldA w) (w % 32))
    | 3 => .ok (.sshiRor (fldD w) (fldA w) (w % 32))
    | _ => .error .field
  else .error .field

/-- Major 0x0A (R221). -/
def decodeMajor0A (w : Nat) : Except DecodeError Instr :=
  .ok (.slui (fldD w) (fldA w) (fldImm w))

/-- Major 0x0C (R221). -/
def decodeMajor0C (w : Nat) : Except DecodeError Instr :=
  needZero (fldD w == 0 && fldA w == 0) (.setm (fldImm w))

/-- Major 0x0D (R221). -/
def decodeMajor0D (w : Nat) : Except DecodeError Instr :=
  .ok (.bra (fldOff26 w))

/-- Major 0x0E (R221). -/
def decodeMajor0E (w : Nat) : Except DecodeError Instr :=
  .ok (.call (fldOff26 w))

/-- Major 0x0F by fn (R221). -/
def decodeMajor0F (w : Nat) : Except DecodeError Instr :=
  match fldFnC w with
  | 0 => .ok (.beqz (fldX w) (fldOff16 w))
  | 1 => .ok (.bnez (fldX w) (fldOff16 w))
  | 2 => .ok (.bltz (fldX w) (fldOff16 w))
  | 3 => .ok (.bgez (fldX w) (fldOff16 w))
  | 4 => .ok (.bany (fldX w) (fldOff16 w))
  | 5 => .ok (.ball (fldX w) (fldOff16 w))
  | 6 => .ok (.bnone (fldX w) (fldOff16 w))
  | _ => .error .fn

/-- Major 0x10 by fn (R221). -/
def decodeMajor10 (w : Nat) : Except DecodeError Instr :=
  match fldFnC w with
  | 0 => .ok (.brd (fldX w) (fldOff16 w))
  | 1 => .ok (.brdn (fldX w) (fldOff16 w))
  | 2 => needZero (fldX w == 0) (.divr (fldOff16 w))
  | 3 => needZero (fldX w == 0) (.yld (fldOff16 w))
  | _ => .error .fn

/-- Major 0x11 by fn (R221). -/
def decodeMajor11 (w : Nat) : Except DecodeError Instr :=
  match fldFn w with
  | 0 => needZero (fldD w == 0 && fldA w == 0 && fldB w == 0) (.rcv)
  | 1 => needZero (fldD w == 0 && fldA w == 0 && fldB w == 0) (.ret)
  | 2 => needZero (fldD w == 0 && fldB w == 0) (.jmpr (fldA w) (fldEa w) (fldEb w))
  | 3 => needZero (fldD w == 0 && fldB w == 0) (.callr (fldA w) (fldEa w) (fldEb w))
  | 4 => needZero (fldD w == 0 && fldB w == 0) (.exit (fldA w) (fldEa w) (fldEb w))
  | 5 => needZero (fldD w == 0 && fldB w == 0) (.trap (fldA w) (fldEa w) (fldEb w))
  | 6 => needZero (fldD w == 0 && fldA w == 0 && fldB w == 0) (.bkpt)
  | 7 => needZero (fldD w == 0 && fldA w == 0 && fldB w == 0) (.nop)
  | _ => .error .fn

/-- Major 0x12 by fn (R221). -/
def decodeMajor12 (w : Nat) : Except DecodeError Instr :=
  match fldFn w with
  | 0 => .ok (.vadd (fldD w) (fldA w) (fldB w) (fldEa w) (fldEb w))
  | 1 => .ok (.vsub (fldD w) (fldA w) (fldB w) (fldEa w) (fldEb w))
  | 2 => .ok (.vmul (fldD w) (fldA w) (fldB w) (fldEa w) (fldEb w))
  | 3 => .ok (.vmulh (fldD w) (fldA w) (fldB w) (fldEa w) (fldEb w))
  | 4 => .ok (.vmad (fldD w) (fldA w) (fldB w) (fldEa w) (fldEb w))
  | 5 => .ok (.vmin (fldD w) (fldA w) (fldB w) (fldEa w) (fldEb w))
  | 6 => .ok (.vmax (fldD w) (fldA w) (fldB w) (fldEa w) (fldEb w))
  | 7 => .ok (.vabsd (fldD w) (fldA w) (fldB w) (fldEa w) (fldEb w))
  | _ => .error .fn

/-- Major 0x13 by fn (R221). -/
def decodeMajor13 (w : Nat) : Except DecodeError Instr :=
  match fldFn w with
  | 0 => .ok (.vand (fldD w) (fldA w) (fldB w) (fldEa w) (fldEb w))
  | 1 => .ok (.vor (fldD w) (fldA w) (fldB w) (fldEa w) (fldEb w))
  | 2 => .ok (.vxor (fldD w) (fldA w) (fldB w) (fldEa w) (fldEb w))
  | 3 => .ok (.vshl (fldD w) (fldA w) (fldB w) (fldEa w) (fldEb w))
  | 4 => .ok (.vshr (fldD w) (fldA w) (fldB w) (fldEa w) (fldEb w))
  | 5 => .ok (.vsra (fldD w) (fldA w) (fldB w) (fldEa w) (fldEb w))
  | 6 => .ok (.vsel (fldD w) (fldA w) (fldB w) (fldEa w) (fldEb w))
  | 7 => needZero (fldB w == 0) (.vmov (fldD w) (fldA w) (fldEa w) (fldEb w))
  | _ => .error .fn

/-- Major 0x14 by fn (R221). -/
def decodeMajor14 (w : Nat) : Except DecodeError Instr :=
  match fldFn w with
  | 0 => needZero (fldB w == 0) (.vnot (fldD w) (fldA w) (fldEa w) (fldEb w))
  | 1 => needZero (fldB w == 0) (.vneg (fldD w) (fldA w) (fldEa w) (fldEb w))
  | 2 => needZero (fldB w == 0) (.vabs (fldD w) (fldA w) (fldEa w) (fldEb w))
  | 3 => needZero (fldB w == 0) (.vclz (fldD w) (fldA w) (fldEa w) (fldEb w))
  | 4 => needZero (fldB w == 0) (.vpopc (fldD w) (fldA w) (fldEa w) (fldEb w))
  | 5 => needZero (fldB w == 0) (.vbrev (fldD w) (fldA w) (fldEa w) (fldEb w))
  | 6 => needZero (fldA w == 0 && fldB w == 0) (.vlane (fldD w) (fldEa w) (fldEb w))
  | 7 => needZero (fldB w == 0) (.vbcast (fldD w) (fldA w) (fldEa w) (fldEb w))
  | _ => .error .fn

/-- Major 0x15 by fn (R221). -/
def decodeMajor15 (w : Nat) : Except DecodeError Instr :=
  match fldFn w with
  | 0 => .ok (.vcmpEq (fldD w) (fldA w) (fldB w) (fldEa w) (fldEb w))
  | 1 => .ok (.vcmpNe (fldD w) (fldA w) (fldB w) (fldEa w) (fldEb w))
  | 2 => .ok (.vcmpLt (fldD w) (fldA w) (fldB w) (fldEa w) (fldEb w))
  | 3 => .ok (.vcmpLe (fldD w) (fldA w) (fldB w) (fldEa w) (fldEb w))
  | 4 => .ok (.vcmpGt (fldD w) (fldA w) (fldB w) (fldEa w) (fldEb w))
  | 5 => .ok (.vcmpGe (fldD w) (fldA w) (fldB w) (fldEa w) (fldEb w))
  | _ => .error .fn

/-- Major 0x16 by fn (R221). -/
def decodeMajor16 (w : Nat) : Except DecodeError Instr :=
  match fldFn w with
  | 0 => .ok (.vfcmpEq (fldD w) (fldA w) (fldB w) (fldEa w) (fldEb w))
  | 1 => .ok (.vfcmpNe (fldD w) (fldA w) (fldB w) (fldEa w) (fldEb w))
  | 2 => .ok (.vfcmpLt (fldD w) (fldA w) (fldB w) (fldEa w) (fldEb w))
  | 3 => .ok (.vfcmpLe (fldD w) (fldA w) (fldB w) (fldEa w) (fldEb w))
  | 4 => .ok (.vfcmpGt (fldD w) (fldA w) (fldB w) (fldEa w) (fldEb w))
  | 5 => .ok (.vfcmpGe (fldD w) (fldA w) (fldB w) (fldEa w) (fldEb w))
  | 6 => .ok (.vfcmpUn (fldD w) (fldA w) (fldB w) (fldEa w) (fldEb w))
  | 7 => .ok (.vfcmpOr (fldD w) (fldA w) (fldB w) (fldEa w) (fldEb w))
  | _ => .error .fn

/-- Major 0x17 by fn (R221). -/
def decodeMajor17 (w : Nat) : Except DecodeError Instr :=
  match fldFn w with
  | 0 => .ok (.vfadd (fldD w) (fldA w) (fldB w) (fldEa w) (fldEb w))
  | 1 => .ok (.vfsub (fldD w) (fldA w) (fldB w) (fldEa w) (fldEb w))
  | 2 => .ok (.vfmul (fldD w) (fldA w) (fldB w) (fldEa w) (fldEb w))
  | 3 => .ok (.vfma (fldD w) (fldA w) (fldB w) (fldEa w) (fldEb w))
  | 4 => .ok (.vfmin (fldD w) (fldA w) (fldB w) (fldEa w) (fldEb w))
  | 5 => .ok (.vfmax (fldD w) (fldA w) (fldB w) (fldEa w) (fldEb w))
  | 6 => .ok (.vfscale (fldD w) (fldA w) (fldB w) (fldEa w) (fldEb w))
  | 7 => .ok (.vdot (fldD w) (fldA w) (fldB w) (fldEa w) (fldEb w))
  | _ => .error .fn

/-- Major 0x18 by fn (R221). -/
def decodeMajor18 (w : Nat) : Except DecodeError Instr :=
  match fldFn w with
  | 0 => needZero (fldB w == 0) (.vrcp (fldD w) (fldA w) (fldEa w) (fldEb w))
  | 1 => needZero (fldB w == 0) (.vrsq (fldD w) (fldA w) (fldEa w) (fldEb w))
  | 2 => needZero (fldB w == 0) (.vsqrt (fldD w) (fldA w) (fldEa w) (fldEb w))
  | 3 => needZero (fldB w == 0) (.vexp2 (fldD w) (fldA w) (fldEa w) (fldEb w))
  | 4 => needZero (fldB w == 0) (.vlog2 (fldD w) (fldA w) (fldEa w) (fldEb w))
  | 5 => needZero (fldB w == 0) (.vsin (fldD w) (fldA w) (fldEa w) (fldEb w))
  | 6 => needZero (fldB w == 0) (.vcos (fldD w) (fldA w) (fldEa w) (fldEb w))
  | 7 => needZero (fldB w == 0) (.vtanh (fldD w) (fldA w) (fldEa w) (fldEb w))
  | _ => .error .fn

/-- Major 0x19 by fn (R221). -/
def decodeMajor19 (w : Nat) : Except DecodeError Instr :=
  match fldFn w with
  | 0 => needZero (fldB w == 0) (.vcvt (fldD w) (fldA w) (fldEa w) (fldEb w))
  | 1 => .ok (.vpack (fldD w) (fldA w) (fldB w) (fldEa w) (fldEb w))
  | 2 => needZero (fldB w == 0) (.vunpkl (fldD w) (fldA w) (fldEa w) (fldEb w))
  | 3 => needZero (fldB w == 0) (.vunpkh (fldD w) (fldA w) (fldEa w) (fldEb w))
  | 4 => .ok (.vqnt (fldD w) (fldA w) (fldB w) (fldEa w) (fldEb w))
  | 5 => .ok (.vdqnt (fldD w) (fldA w) (fldB w) (fldEa w) (fldEb w))
  | 6 => needZero (fldB w == 0) (.vfclass (fldD w) (fldA w) (fldEa w) (fldEb w))
  | 7 => needZero (fldB w == 0) (.vrnd (fldD w) (fldA w) (fldEa w) (fldEb w))
  | _ => .error .fn

/-- Major 0x1A by fn (R221). -/
def decodeMajor1A (w : Nat) : Except DecodeError Instr :=
  match fldFn w with
  | 0 => .ok (.vshuf (fldD w) (fldA w) (fldB w) (fldEa w) (fldEb w))
  | 1 => .ok (.vrot (fldD w) (fldA w) (fldB w) (fldEa w) (fldEb w))
  | 2 => .ok (.vrdl (fldD w) (fldA w) (fldB w) (fldEa w) (fldEb w))
  | 3 => .ok (.vwrl (fldD w) (fldA w) (fldB w) (fldEa w) (fldEb w))
  | 4 => needZero (fldB w == 0) (.vred (fldD w) (fldA w) (fldEa w) (fldEb w))
  | 5 => needZero (fldB w == 0) (.vscan (fldD w) (fldA w) (fldEa w) (fldEb w))
  | 6 => needZero (fldB w == 0) (.vballot (fldD w) (fldA w) (fldEa w) (fldEb w))
  | 7 => .ok (.vcompact (fldD w) (fldA w) (fldB w) (fldEa w) (fldEb w))
  | _ => .error .fn

/-- Major 0x1B by fn (R221). -/
def decodeMajor1B (w : Nat) : Except DecodeError Instr :=
  match fldFn w with
  | 0 => .ok (.pand (fldD w) (fldA w) (fldB w) (fldEa w) (fldEb w))
  | 1 => .ok (.por (fldD w) (fldA w) (fldB w) (fldEa w) (fldEb w))
  | 2 => .ok (.pxor (fldD w) (fldA w) (fldB w) (fldEa w) (fldEb w))
  | 3 => .ok (.pandn (fldD w) (fldA w) (fldB w) (fldEa w) (fldEb w))
  | 4 => needZero (fldB w == 0) (.pnot (fldD w) (fldA w) (fldEa w) (fldEb w))
  | 5 => needZero (fldB w == 0) (.pfroms (fldD w) (fldA w) (fldEa w) (fldEb w))
  | 6 => needZero (fldB w == 0) (.ptos (fldD w) (fldA w) (fldEa w) (fldEb w))
  | 7 => needZero (fldB w == 0) (.pmov (fldD w) (fldA w) (fldEa w) (fldEb w))
  | _ => .error .fn

/-- Major 0x20 (R221). -/
def decodeMajor20 (w : Nat) : Except DecodeError Instr :=
  .ok (.ld (fldD w) (fldA w) (fldPol w) (fldSz w) (fldOff7 w))

/-- Major 0x21 (R221). -/
def decodeMajor21 (w : Nat) : Except DecodeError Instr :=
  .ok (.st (fldD w) (fldA w) (fldPol w) (fldSz w) (fldOff7 w))

/-- Major 0x22 (R221). -/
def decodeMajor22 (w : Nat) : Except DecodeError Instr :=
  .ok (.lds (fldD w) (fldA w) (fldPol w) (fldSz w) (fldOff7 w))

/-- Major 0x23 (R221). -/
def decodeMajor23 (w : Nat) : Except DecodeError Instr :=
  .ok (.sts (fldD w) (fldA w) (fldPol w) (fldSz w) (fldOff7 w))

/-- Major 0x24 (R221). -/
def decodeMajor24 (w : Nat) : Except DecodeError Instr :=
  .ok (.ldb (fldD w) (fldA w) (fldPol w) (fldSz w) (fldOff7 w))

/-- Major 0x25 (R221). -/
def decodeMajor25 (w : Nat) : Except DecodeError Instr :=
  .ok (.stb (fldD w) (fldA w) (fldPol w) (fldSz w) (fldOff7 w))

/-- Major 0x26 (R220, R283): bit 6 is the form bit V. -/
def decodeMajor26 (w : Nat) : Except DecodeError Instr :=
  if w / 64 % 2 == 0 then .ok (.ldaqScalar (fldD w) (fldA w) (fldPol w) (fldSz w) (fldOff6 w))
  else .ok (.ldaqVector (fldD w) (fldA w) (fldPol w) (fldSz w) (fldOff6 w))

/-- Major 0x27 (R220, R283): bit 6 is the form bit V. -/
def decodeMajor27 (w : Nat) : Except DecodeError Instr :=
  if w / 64 % 2 == 0 then .ok (.strlScalar (fldD w) (fldA w) (fldPol w) (fldSz w) (fldOff6 w))
  else .ok (.strlVector (fldD w) (fldA w) (fldPol w) (fldSz w) (fldOff6 w))

/-- Major 0x28 by fn (R221). -/
def decodeMajor28 (w : Nat) : Except DecodeError Instr :=
  match fldFn w with
  | 0 => .ok (.atomAdd (fldD w) (fldA w) (fldB w) (fldEa w) (fldEb w))
  | 1 => .ok (.atomAnd (fldD w) (fldA w) (fldB w) (fldEa w) (fldEb w))
  | 2 => .ok (.atomOr (fldD w) (fldA w) (fldB w) (fldEa w) (fldEb w))
  | 3 => .ok (.atomXor (fldD w) (fldA w) (fldB w) (fldEa w) (fldEb w))
  | 4 => .ok (.atomMin (fldD w) (fldA w) (fldB w) (fldEa w) (fldEb w))
  | 5 => .ok (.atomMax (fldD w) (fldA w) (fldB w) (fldEa w) (fldEb w))
  | 6 => .ok (.atomXchg (fldD w) (fldA w) (fldB w) (fldEa w) (fldEb w))
  | 7 => .ok (.atomFadd (fldD w) (fldA w) (fldB w) (fldEa w) (fldEb w))
  | _ => .error .fn

/-- Major 0x29 by fn (R221). -/
def decodeMajor29 (w : Nat) : Except DecodeError Instr :=
  match fldFn w with
  | 0 => .ok (.acasVector (fldD w) (fldA w) (fldB w) (fldEa w) (fldEb w))
  | 1 => .ok (.acasScalar (fldD w) (fldA w) (fldB w) (fldEa w) (fldEb w))
  | _ => .error .fn

/-- Major 0x2A by fn (R221). -/
def decodeMajor2A (w : Nat) : Except DecodeError Instr :=
  match fldFn w with
  | 0 => .ok (.atomsAdd (fldD w) (fldA w) (fldB w) (fldEa w) (fldEb w))
  | 1 => .ok (.atomsAnd (fldD w) (fldA w) (fldB w) (fldEa w) (fldEb w))
  | 2 => .ok (.atomsOr (fldD w) (fldA w) (fldB w) (fldEa w) (fldEb w))
  | 3 => .ok (.atomsXor (fldD w) (fldA w) (fldB w) (fldEa w) (fldEb w))
  | 4 => .ok (.atomsMin (fldD w) (fldA w) (fldB w) (fldEa w) (fldEb w))
  | 5 => .ok (.atomsMax (fldD w) (fldA w) (fldB w) (fldEa w) (fldEb w))
  | 6 => .ok (.atomsXchg (fldD w) (fldA w) (fldB w) (fldEa w) (fldEb w))
  | 7 => .ok (.atomsFadd (fldD w) (fldA w) (fldB w) (fldEa w) (fldEb w))
  | _ => .error .fn

/-- Major 0x2B by fn (R221). -/
def decodeMajor2B (w : Nat) : Except DecodeError Instr :=
  match fldFn w with
  | 0 => needZero (fldD w == 0) (.redAdd (fldA w) (fldB w) (fldEa w) (fldEb w))
  | 1 => needZero (fldD w == 0) (.redFadd (fldA w) (fldB w) (fldEa w) (fldEb w))
  | 2 => needZero (fldD w == 0) (.redMin (fldA w) (fldB w) (fldEa w) (fldEb w))
  | 3 => needZero (fldD w == 0) (.redMax (fldA w) (fldB w) (fldEa w) (fldEb w))
  | 4 => needZero (fldD w == 0) (.redAnd (fldA w) (fldB w) (fldEa w) (fldEb w))
  | 5 => needZero (fldD w == 0) (.redOr (fldA w) (fldB w) (fldEa w) (fldEb w))
  | 6 => needZero (fldD w == 0) (.redXor (fldA w) (fldB w) (fldEa w) (fldEb w))
  | _ => .error .fn

/-- Major 0x2C by fn (R221). -/
def decodeMajor2C (w : Nat) : Except DecodeError Instr :=
  match fldFn w with
  | 0 => needZero (fldD w == 0) (.pref (fldA w) (fldB w) (fldEa w) (fldEb w))
  | 1 => needZero (fldD w == 0) (.disc (fldA w) (fldB w) (fldEa w) (fldEb w))
  | 2 => needZero (fldD w == 0) (.wbk (fldA w) (fldB w) (fldEa w) (fldEb w))
  | 3 => needZero (fldD w == 0) (.inv (fldA w) (fldB w) (fldEa w) (fldEb w))
  | 4 => needZero (fldD w == 0 && fldA w == 0) (.rflush (fldB w) (fldEa w) (fldEb w))
  | _ => .error .fn

/-- Major 0x2D, FENCE (R93, R94). -/
def decodeMajor2D (w : Nat) : Except DecodeError Instr :=
  needZero (fldD w == 0 && fldA w == 0)
    (.fence (w / 2048 % 2 == 1) (w / 1024 % 2 == 1) (w / 256 % 4) (w / 16 % 16) (w % 16))

/-- Major 0x2E by fn (R221). -/
def decodeMajor2E (w : Nat) : Except DecodeError Instr :=
  match fldFn w with
  | 0 => needZero (fldD w == 0) (.bari (fldA w) (fldB w) (fldEa w) (fldEb w))
  | 1 => needZero (fldD w == 0) (.bara (fldA w) (fldB w) (fldEa w) (fldEb w))
  | 2 => needZero (fldD w == 0) (.barw (fldA w) (fldB w) (fldEa w) (fldEb w))
  | 3 => needZero (fldD w == 0) (.barx (fldA w) (fldB w) (fldEa w) (fldEb w))
  | 4 => .ok (.barq (fldD w) (fldA w) (fldB w) (fldEa w) (fldEb w))
  | _ => .error .fn

/-- Major 0x2F by fn (R221). -/
def decodeMajor2F (w : Nat) : Except DecodeError Instr :=
  match fldFn w with
  | 0 => .ok (.acopy (fldD w) (fldA w) (fldB w) (fldEa w) (fldEb w))
  | 1 => .ok (.acopy2d (fldD w) (fldA w) (fldB w) (fldEa w) (fldEb w))
  | _ => .error .fn

/-- Major 0x30 by fn (R221). -/
def decodeMajor30 (w : Nat) : Except DecodeError Instr :=
  match fldFn w with
  | 0 => needZero (fldB w == 0) (.tagw (fldD w) (fldA w) (fldEa w) (fldEb w))
  | _ => .error .fn

/-- Major 0x31 by fn (R221). -/
def decodeMajor31 (w : Nat) : Except DecodeError Instr :=
  match fldFn w with
  | 0 => .ok (.mreq (fldD w) (fldA w) (fldB w) (fldEa w) (fldEb w))
  | _ => .error .fn

/-- Major 0x32 by fn (R221). -/
def decodeMajor32 (w : Nat) : Except DecodeError Instr :=
  match fldFn w with
  | 0 => .ok (.trd (fldD w) (fldA w) (fldB w) (fldEa w) (fldEb w))
  | 1 => .ok (.twr (fldD w) (fldA w) (fldB w) (fldEa w) (fldEb w))
  | 2 => .ok (.twm (fldD w) (fldA w) (fldB w) (fldEa w) (fldEb w))
  | 3 => .ok (.tdrain (fldD w) (fldA w) (fldB w) (fldEa w) (fldEb w))
  | _ => .error .fn

/-- Major 0x33 by fn (R221). -/
def decodeMajor33 (w : Nat) : Except DecodeError Instr :=
  match fldFn w with
  | 0 => .ok (.mma (fldD w) (fldA w) (fldB w) (fldEa w) (fldEb w))
  | 1 => .ok (.mmas (fldD w) (fldA w) (fldB w) (fldEa w) (fldEb w))
  | 2 => .ok (.mmaq (fldD w) (fldA w) (fldB w) (fldEa w) (fldEb w))
  | 3 => needZero (fldA w == 0 && fldB w == 0) (.tzero (fldD w) (fldEa w) (fldEb w))
  | 4 => .ok (.tload (fldD w) (fldA w) (fldB w) (fldEa w) (fldEb w))
  | 5 => .ok (.tstore (fldD w) (fldA w) (fldB w) (fldEa w) (fldEb w))
  | 6 => needZero (fldD w == 0 && fldA w == 0 && fldB w == 0) (.tsync)
  | 7 => needZero (fldD w == 0 && fldB w == 0) (.msig (fldA w) (fldEa w) (fldEb w))
  | _ => .error .fn

/-- Major 0x34 by fn (R221). -/
def decodeMajor34 (w : Nat) : Except DecodeError Instr :=
  match fldFn w with
  | 0 => needZero (fldD w == 0) (.twalk (fldA w) (fldB w) (fldEa w) (fldEb w))
  | 1 => needZero (fldD w == 0) (.permit (fldA w) (fldB w) (fldEa w) (fldEb w))
  | 2 => needZero (fldD w == 0) (.srdef (fldA w) (fldB w) (fldEa w) (fldEb w))
  | 3 => needZero (fldD w == 0 && fldA w == 0 && fldB w == 0) (.clust)
  | 4 => needZero (fldD w == 0) (.vcnt (fldA w) (fldB w) (fldEa w) (fldEb w))
  | 5 => needZero (fldD w == 0) (.scaleb (fldA w) (fldB w) (fldEa w) (fldEb w))
  | 6 => needZero (fldB w == 0) (.tfill (fldD w) (fldA w) (fldEa w) (fldEb w))
  | _ => .error .fn

/-- Major 0x35 by fn (R221). -/
def decodeMajor35 (w : Nat) : Except DecodeError Instr :=
  match fldFn w with
  | 0 => needZero (fldD w == 0 && fldB w == 0) (.wake (fldA w) (fldEa w) (fldEb w))
  | 1 => needZero (fldD w == 0) (.sig (fldA w) (fldB w) (fldEa w) (fldEb w))
  | 2 => .ok (.depo (fldD w) (fldA w) (fldB w) (fldEa w) (fldEb w))
  | 3 => needZero (fldB w == 0) (.join (fldD w) (fldA w) (fldEa w) (fldEb w))
  | 4 => needZero (fldD w == 0 && fldA w == 0 && fldB w == 0) (.sleep)
  | 5 => needZero (fldB w == 0) (.sigw (fldD w) (fldA w) (fldEa w) (fldEb w))
  | 6 => needZero (fldD w == 0) (.ngrant (fldA w) (fldB w) (fldEa w) (fldEb w))
  | 7 => needZero (fldD w == 0) (.nrevoke (fldA w) (fldB w) (fldEa w) (fldEb w))
  | _ => .error .fn

/-- Major 0x36 by fn (R221). -/
def decodeMajor36 (w : Nat) : Except DecodeError Instr :=
  match fldFn w with
  | 0 => needZero (fldD w == 0 && fldB w == 0) (.launch (fldA w) (fldEa w) (fldEb w))
  | 1 => needZero (fldA w == 0 && fldB w == 0) (.take (fldD w) (fldEa w) (fldEb w))
  | 2 => needZero (fldD w == 0) (.post (fldA w) (fldB w) (fldEa w) (fldEb w))
  | 3 => needZero (fldB w == 0) (.qstat (fldD w) (fldA w) (fldEa w) (fldEb w))
  | _ => .error .fn

/-- Major 0x37 by fn (R221). -/
def decodeMajor37 (w : Nat) : Except DecodeError Instr :=
  match fldFn w with
  | 0 => .ok (.hnew (fldD w) (fldA w) (fldB w) (fldEa w) (fldEb w))
  | 1 => needZero (fldB w == 0) (.hsplit (fldD w) (fldA w) (fldEa w) (fldEb w))
  | 2 => needZero (fldD w == 0 && fldB w == 0) (.hdrop (fldA w) (fldEa w) (fldEb w))
  | 3 => needZero (fldB w == 0) (.hmerge (fldD w) (fldA w) (fldEa w) (fldEb w))
  | 4 => needZero (fldD w == 0) (.hbind (fldA w) (fldB w) (fldEa w) (fldEb w))
  | 5 => needZero (fldB w == 0) (.hinfo (fldD w) (fldA w) (fldEa w) (fldEb w))
  | 6 => .ok (.haddr (fldD w) (fldA w) (fldB w) (fldEa w) (fldEb w))
  | 7 => needZero (fldB w == 0) (.scopew (fldD w) (fldA w) (fldEa w) (fldEb w))
  | _ => .error .fn

/-- Major 0x38 by fn (R221). -/
def decodeMajor38 (w : Nat) : Except DecodeError Instr :=
  match fldFn w with
  | 0 => needZero (fldB w == 0) (.watch (fldD w) (fldA w) (fldEa w) (fldEb w))
  | 1 => needZero (fldB w == 0) (.unwatch (fldD w) (fldA w) (fldEa w) (fldEb w))
  | 2 => needZero (fldB w == 0) (.warm (fldD w) (fldA w) (fldEa w) (fldEb w))
  | 3 => needZero (fldB w == 0) (.wstat (fldD w) (fldA w) (fldEa w) (fldEb w))
  | _ => .error .fn

/-- Major 0x3F, SYS (R222, R332). -/
def decodeSys (w : Nat) : Except DecodeError Instr :=
  let a := fldSA w
  let b := fldSB w
  let c := fldSC w
  match fldFnS w with
  | 0 => if b < 19 then needZero (c == 0) (.srd a b) else .error .sreg
  | 1 => if b < 19 then needZero (c == 0) (.swr a b) else .error .sreg
  | 2 => needZero (a == 0 && b == 0 && c == 0) .trapret
  | 3 => .ok (.tlbinv a b c)
  | 4 => needZero (b == 0 && c == 0) (.fbread a)
  | 5 => if c == 0 then needZero (b == 0) (.replay a)
         else needZero (c == 1 && a == 0 && b == 0) .replayDie
  | 6 => .ok (.setcoh a b c)
  | 7 => .ok (.migrate a b c)
  | 8 => needZero (b == 0) (.wsload a c)
  | 9 => if c == 0 then needZero (b == 0) (.halt a) else needZero (c == 1 && b == 0) (.haltRelease a)
  | 10 => needZero (c == 0) (.swapout a b)
  | _ => .error .sysfn

/-- LIMM carries its value in the extension word (R211, R238). -/
def decodeMajor0B (w e : Nat) : Except DecodeError Instr :=
  needZero (fldA w == 0 && fldImm w == 0) (.limm (fldD w) e)

/-- EXPR: fn holds the token count less one, the extension word the tokens (R211). -/
def decodeMajor1C (w e : Nat) : Except DecodeError Instr :=
  .ok (.expr (fldD w) (fldA w) (fldB w) (fldFn w + 1) (fldEa w) (fldEb w) e)

/-- The instruction a head word w and the word e after it name, before its operand kinds are
checked (R221, R222, R430). -/
def rawDecode (w e : Nat) : Except DecodeError Instr :=
  match w / 67108864 with
  | 1 => decodeMajor01 w
  | 2 => decodeMajor02 w
  | 3 => decodeMajor03 w
  | 4 => decodeMajor04 w
  | 5 => decodeMajor05 w
  | 6 => decodeMajor06 w
  | 7 => decodeMajor07 w
  | 8 => decodeMajor08 w
  | 9 => decodeMajor09 w
  | 10 => decodeMajor0A w
  | 11 => decodeMajor0B w e
  | 12 => decodeMajor0C w
  | 13 => decodeMajor0D w
  | 14 => decodeMajor0E w
  | 15 => decodeMajor0F w
  | 16 => decodeMajor10 w
  | 17 => decodeMajor11 w
  | 18 => decodeMajor12 w
  | 19 => decodeMajor13 w
  | 20 => decodeMajor14 w
  | 21 => decodeMajor15 w
  | 22 => decodeMajor16 w
  | 23 => decodeMajor17 w
  | 24 => decodeMajor18 w
  | 25 => decodeMajor19 w
  | 26 => decodeMajor1A w
  | 27 => decodeMajor1B w
  | 28 => decodeMajor1C w e
  | 32 => decodeMajor20 w
  | 33 => decodeMajor21 w
  | 34 => decodeMajor22 w
  | 35 => decodeMajor23 w
  | 36 => decodeMajor24 w
  | 37 => decodeMajor25 w
  | 38 => decodeMajor26 w
  | 39 => decodeMajor27 w
  | 40 => decodeMajor28 w
  | 41 => decodeMajor29 w
  | 42 => decodeMajor2A w
  | 43 => decodeMajor2B w
  | 44 => decodeMajor2C w
  | 45 => decodeMajor2D w
  | 46 => decodeMajor2E w
  | 47 => decodeMajor2F w
  | 48 => decodeMajor30 w
  | 49 => decodeMajor31 w
  | 50 => decodeMajor32 w
  | 51 => decodeMajor33 w
  | 52 => decodeMajor34 w
  | 53 => decodeMajor35 w
  | 54 => decodeMajor36 w
  | 55 => decodeMajor37 w
  | 56 => decodeMajor38 w
  | 63 => decodeSys w
  | _ => .error .major

/-- Whether a head word carries an extension word (R208). -/
def needsExt (w : Nat) : Bool := w / 67108864 == 11 || w / 67108864 == 28

/-- The instruction of a head word and the word after it, with its static operand kinds checked
(R225, R430). -/
def decodeWords (w e : Nat) : Except DecodeError Instr :=
  match rawDecode w e with
  | .error r => .error r
  | .ok i =>
    match i.check with
    | some r => .error r
    | none => .ok i

/-- A little-endian word of four bytes (R2, R208). -/
def leWord (b0 b1 b2 b3 : BitVec 8) : Nat :=
  b0.toNat + 256 * b1.toNat + 65536 * b2.toNat + 16777216 * b3.toNat

/-- The n little-endian bytes of a number. -/
def leBytes : Nat → Nat → List (BitVec 8)
  | 0, _ => []
  | n + 1, x => BitVec.ofNat 8 (x % 256) :: leBytes n (x / 256)

/-- The decoder: the instruction at the head of a list of bytes, and the bytes after it. -/
def decode : List (BitVec 8) → Except DecodeError (Instr × List (BitVec 8))
  | b0 :: b1 :: b2 :: b3 :: rest =>
    if needsExt (leWord b0 b1 b2 b3) then
      match rest with
      | c0 :: c1 :: c2 :: c3 :: rest' =>
        match decodeWords (leWord b0 b1 b2 b3) (leWord c0 c1 c2 c3) with
        | .ok i => .ok (i, rest')
        | .error r => .error r
      | _ => .error .truncated
    else
      match decodeWords (leWord b0 b1 b2 b3) 0 with
      | .ok i => .ok (i, rest)
      | .error r => .error r
  | _ => .error .truncated

/-- Bit 1 or 0 of a word from Ea, and the like. -/
def bit (b : Bool) (k : Nat) : Nat := if b then k else 0

/-- The words of a well-formed instruction, written from the encodings of R210, R211 and the tables
of majors and fn values; an event row has no words. -/
def encode : Instr → List Nat
  | .sadd d a b ea eb => [67108864 + d * 524288 + a * 4096 + b * 32 + bit ea 2 + bit eb 1]
  | .ssub d a b ea eb => [67108868 + d * 524288 + a * 4096 + b * 32 + bit ea 2 + bit eb 1]
  | .sand d a b ea eb => [67108872 + d * 524288 + a * 4096 + b * 32 + bit ea 2 + bit eb 1]
  | .sor d a b ea eb => [67108876 + d * 524288 + a * 4096 + b * 32 + bit ea 2 + bit eb 1]
  | .sxor d a b ea eb => [67108880 + d * 524288 + a * 4096 + b * 32 + bit ea 2 + bit eb 1]
  | .sshl d a b ea eb => [67108884 + d * 524288 + a * 4096 + b * 32 + bit ea 2 + bit eb 1]
  | .sshr d a b ea eb => [67108888 + d * 524288 + a * 4096 + b * 32 + bit ea 2 + bit eb 1]
  | .ssra d a b ea eb => [67108892 + d * 524288 + a * 4096 + b * 32 + bit ea 2 + bit eb 1]
  | .smul d a b ea eb => [134217728 + d * 524288 + a * 4096 + b * 32 + bit ea 2 + bit eb 1]
  | .smulh d a b ea eb => [134217732 + d * 524288 + a * 4096 + b * 32 + bit ea 2 + bit eb 1]
  | .smulhu d a b ea eb => [134217736 + d * 524288 + a * 4096 + b * 32 + bit ea 2 + bit eb 1]
  | .sdiv d a b ea eb => [134217740 + d * 524288 + a * 4096 + b * 32 + bit ea 2 + bit eb 1]
  | .sdivu d a b ea eb => [134217744 + d * 524288 + a * 4096 + b * 32 + bit ea 2 + bit eb 1]
  | .srem d a b ea eb => [134217748 + d * 524288 + a * 4096 + b * 32 + bit ea 2 + bit eb 1]
  | .sremu d a b ea eb => [134217752 + d * 524288 + a * 4096 + b * 32 + bit ea 2 + bit eb 1]
  | .ssel d a b ea eb => [134217756 + d * 524288 + a * 4096 + b * 32 + bit ea 2 + bit eb 1]
  | .smin d a b ea eb => [201326592 + d * 524288 + a * 4096 + b * 32 + bit ea 2 + bit eb 1]
  | .smax d a b ea eb => [201326596 + d * 524288 + a * 4096 + b * 32 + bit ea 2 + bit eb 1]
  | .sminu d a b ea eb => [201326600 + d * 524288 + a * 4096 + b * 32 + bit ea 2 + bit eb 1]
  | .smaxu d a b ea eb => [201326604 + d * 524288 + a * 4096 + b * 32 + bit ea 2 + bit eb 1]
  | .sslt d a b ea eb => [201326608 + d * 524288 + a * 4096 + b * 32 + bit ea 2 + bit eb 1]
  | .ssltu d a b ea eb => [201326612 + d * 524288 + a * 4096 + b * 32 + bit ea 2 + bit eb 1]
  | .sseq d a b ea eb => [201326616 + d * 524288 + a * 4096 + b * 32 + bit ea 2 + bit eb 1]
  | .ssne d a b ea eb => [201326620 + d * 524288 + a * 4096 + b * 32 + bit ea 2 + bit eb 1]
  | .sclz d a ea eb => [268435456 + d * 524288 + a * 4096 + bit ea 2 + bit eb 1]
  | .spopc d a ea eb => [268435460 + d * 524288 + a * 4096 + bit ea 2 + bit eb 1]
  | .sadd64 d a b ea eb => [268435464 + d * 524288 + a * 4096 + b * 32 + bit ea 2 + bit eb 1]
  | .ssub64 d a b ea eb => [268435468 + d * 524288 + a * 4096 + b * 32 + bit ea 2 + bit eb 1]
  | .smul64 d a b ea eb => [268435472 + d * 524288 + a * 4096 + b * 32 + bit ea 2 + bit eb 1]
  | .sshl64 d a b ea eb => [268435476 + d * 524288 + a * 4096 + b * 32 + bit ea 2 + bit eb 1]
  | .sshr64 d a b ea eb => [268435480 + d * 524288 + a * 4096 + b * 32 + bit ea 2 + bit eb 1]
  | .sempty d a ea eb => [268435484 + d * 524288 + a * 4096 + bit ea 2 + bit eb 1]
  | .saddi d a imm => [335544320 + d * 524288 + a * 4096 + imm]
  | .sandi d a imm => [402653184 + d * 524288 + a * 4096 + imm]
  | .sori d a imm => [469762048 + d * 524288 + a * 4096 + imm]
  | .sxori d a imm => [536870912 + d * 524288 + a * 4096 + imm]
  | .sshiShl d a sh => [603979776 + d * 524288 + a * 4096 + sh]
  | .sshiShr d a sh => [603980800 + d * 524288 + a * 4096 + sh]
  | .sshiSra d a sh => [603981824 + d * 524288 + a * 4096 + sh]
  | .sshiRor d a sh => [603982848 + d * 524288 + a * 4096 + sh]
  | .slui d a imm => [671088640 + d * 524288 + a * 4096 + imm]
  | .limm d value => [738197504 + d * 524288, value]
  | .setm imm => [805306368 + imm]
  | .bra off => [872415232 + off]
  | .call off => [939524096 + off]
  | .beqz x off => [1006632960 + x * 65536 + off]
  | .bnez x off => [1015021568 + x * 65536 + off]
  | .bltz x off => [1023410176 + x * 65536 + off]
  | .bgez x off => [1031798784 + x * 65536 + off]
  | .bany x off => [1040187392 + x * 65536 + off]
  | .ball x off => [1048576000 + x * 65536 + off]
  | .bnone x off => [1056964608 + x * 65536 + off]
  | .brd x off => [1073741824 + x * 65536 + off]
  | .brdn x off => [1082130432 + x * 65536 + off]
  | .divr off => [1090519040 + off]
  | .yld off => [1098907648 + off]
  | .jmpr a ea eb => [1140850696 + a * 4096 + bit ea 2 + bit eb 1]
  | .callr a ea eb => [1140850700 + a * 4096 + bit ea 2 + bit eb 1]
  | .exit a ea eb => [1140850704 + a * 4096 + bit ea 2 + bit eb 1]
  | .trap a ea eb => [1140850708 + a * 4096 + bit ea 2 + bit eb 1]
  | .vadd d a b ea eb => [1207959552 + d * 524288 + a * 4096 + b * 32 + bit ea 2 + bit eb 1]
  | .vsub d a b ea eb => [1207959556 + d * 524288 + a * 4096 + b * 32 + bit ea 2 + bit eb 1]
  | .vmul d a b ea eb => [1207959560 + d * 524288 + a * 4096 + b * 32 + bit ea 2 + bit eb 1]
  | .vmulh d a b ea eb => [1207959564 + d * 524288 + a * 4096 + b * 32 + bit ea 2 + bit eb 1]
  | .vmad d a b ea eb => [1207959568 + d * 524288 + a * 4096 + b * 32 + bit ea 2 + bit eb 1]
  | .vmin d a b ea eb => [1207959572 + d * 524288 + a * 4096 + b * 32 + bit ea 2 + bit eb 1]
  | .vmax d a b ea eb => [1207959576 + d * 524288 + a * 4096 + b * 32 + bit ea 2 + bit eb 1]
  | .vabsd d a b ea eb => [1207959580 + d * 524288 + a * 4096 + b * 32 + bit ea 2 + bit eb 1]
  | .vand d a b ea eb => [1275068416 + d * 524288 + a * 4096 + b * 32 + bit ea 2 + bit eb 1]
  | .vor d a b ea eb => [1275068420 + d * 524288 + a * 4096 + b * 32 + bit ea 2 + bit eb 1]
  | .vxor d a b ea eb => [1275068424 + d * 524288 + a * 4096 + b * 32 + bit ea 2 + bit eb 1]
  | .vshl d a b ea eb => [1275068428 + d * 524288 + a * 4096 + b * 32 + bit ea 2 + bit eb 1]
  | .vshr d a b ea eb => [1275068432 + d * 524288 + a * 4096 + b * 32 + bit ea 2 + bit eb 1]
  | .vsra d a b ea eb => [1275068436 + d * 524288 + a * 4096 + b * 32 + bit ea 2 + bit eb 1]
  | .vsel d a b ea eb => [1275068440 + d * 524288 + a * 4096 + b * 32 + bit ea 2 + bit eb 1]
  | .vmov d a ea eb => [1275068444 + d * 524288 + a * 4096 + bit ea 2 + bit eb 1]
  | .vnot d a ea eb => [1342177280 + d * 524288 + a * 4096 + bit ea 2 + bit eb 1]
  | .vneg d a ea eb => [1342177284 + d * 524288 + a * 4096 + bit ea 2 + bit eb 1]
  | .vabs d a ea eb => [1342177288 + d * 524288 + a * 4096 + bit ea 2 + bit eb 1]
  | .vclz d a ea eb => [1342177292 + d * 524288 + a * 4096 + bit ea 2 + bit eb 1]
  | .vpopc d a ea eb => [1342177296 + d * 524288 + a * 4096 + bit ea 2 + bit eb 1]
  | .vbrev d a ea eb => [1342177300 + d * 524288 + a * 4096 + bit ea 2 + bit eb 1]
  | .vlane d ea eb => [1342177304 + d * 524288 + bit ea 2 + bit eb 1]
  | .vbcast d a ea eb => [1342177308 + d * 524288 + a * 4096 + bit ea 2 + bit eb 1]
  | .vcmpEq d a b ea eb => [1409286144 + d * 524288 + a * 4096 + b * 32 + bit ea 2 + bit eb 1]
  | .vcmpNe d a b ea eb => [1409286148 + d * 524288 + a * 4096 + b * 32 + bit ea 2 + bit eb 1]
  | .vcmpLt d a b ea eb => [1409286152 + d * 524288 + a * 4096 + b * 32 + bit ea 2 + bit eb 1]
  | .vcmpLe d a b ea eb => [1409286156 + d * 524288 + a * 4096 + b * 32 + bit ea 2 + bit eb 1]
  | .vcmpGt d a b ea eb => [1409286160 + d * 524288 + a * 4096 + b * 32 + bit ea 2 + bit eb 1]
  | .vcmpGe d a b ea eb => [1409286164 + d * 524288 + a * 4096 + b * 32 + bit ea 2 + bit eb 1]
  | .vfcmpEq d a b ea eb => [1476395008 + d * 524288 + a * 4096 + b * 32 + bit ea 2 + bit eb 1]
  | .vfcmpNe d a b ea eb => [1476395012 + d * 524288 + a * 4096 + b * 32 + bit ea 2 + bit eb 1]
  | .vfcmpLt d a b ea eb => [1476395016 + d * 524288 + a * 4096 + b * 32 + bit ea 2 + bit eb 1]
  | .vfcmpLe d a b ea eb => [1476395020 + d * 524288 + a * 4096 + b * 32 + bit ea 2 + bit eb 1]
  | .vfcmpGt d a b ea eb => [1476395024 + d * 524288 + a * 4096 + b * 32 + bit ea 2 + bit eb 1]
  | .vfcmpGe d a b ea eb => [1476395028 + d * 524288 + a * 4096 + b * 32 + bit ea 2 + bit eb 1]
  | .vfcmpUn d a b ea eb => [1476395032 + d * 524288 + a * 4096 + b * 32 + bit ea 2 + bit eb 1]
  | .vfcmpOr d a b ea eb => [1476395036 + d * 524288 + a * 4096 + b * 32 + bit ea 2 + bit eb 1]
  | .vfadd d a b ea eb => [1543503872 + d * 524288 + a * 4096 + b * 32 + bit ea 2 + bit eb 1]
  | .vfsub d a b ea eb => [1543503876 + d * 524288 + a * 4096 + b * 32 + bit ea 2 + bit eb 1]
  | .vfmul d a b ea eb => [1543503880 + d * 524288 + a * 4096 + b * 32 + bit ea 2 + bit eb 1]
  | .vfma d a b ea eb => [1543503884 + d * 524288 + a * 4096 + b * 32 + bit ea 2 + bit eb 1]
  | .vfmin d a b ea eb => [1543503888 + d * 524288 + a * 4096 + b * 32 + bit ea 2 + bit eb 1]
  | .vfmax d a b ea eb => [1543503892 + d * 524288 + a * 4096 + b * 32 + bit ea 2 + bit eb 1]
  | .vfscale d a b ea eb => [1543503896 + d * 524288 + a * 4096 + b * 32 + bit ea 2 + bit eb 1]
  | .vdot d a b ea eb => [1543503900 + d * 524288 + a * 4096 + b * 32 + bit ea 2 + bit eb 1]
  | .vrcp d a ea eb => [1610612736 + d * 524288 + a * 4096 + bit ea 2 + bit eb 1]
  | .vrsq d a ea eb => [1610612740 + d * 524288 + a * 4096 + bit ea 2 + bit eb 1]
  | .vsqrt d a ea eb => [1610612744 + d * 524288 + a * 4096 + bit ea 2 + bit eb 1]
  | .vexp2 d a ea eb => [1610612748 + d * 524288 + a * 4096 + bit ea 2 + bit eb 1]
  | .vlog2 d a ea eb => [1610612752 + d * 524288 + a * 4096 + bit ea 2 + bit eb 1]
  | .vsin d a ea eb => [1610612756 + d * 524288 + a * 4096 + bit ea 2 + bit eb 1]
  | .vcos d a ea eb => [1610612760 + d * 524288 + a * 4096 + bit ea 2 + bit eb 1]
  | .vtanh d a ea eb => [1610612764 + d * 524288 + a * 4096 + bit ea 2 + bit eb 1]
  | .vcvt d a ea eb => [1677721600 + d * 524288 + a * 4096 + bit ea 2 + bit eb 1]
  | .vpack d a b ea eb => [1677721604 + d * 524288 + a * 4096 + b * 32 + bit ea 2 + bit eb 1]
  | .vunpkl d a ea eb => [1677721608 + d * 524288 + a * 4096 + bit ea 2 + bit eb 1]
  | .vunpkh d a ea eb => [1677721612 + d * 524288 + a * 4096 + bit ea 2 + bit eb 1]
  | .vqnt d a b ea eb => [1677721616 + d * 524288 + a * 4096 + b * 32 + bit ea 2 + bit eb 1]
  | .vdqnt d a b ea eb => [1677721620 + d * 524288 + a * 4096 + b * 32 + bit ea 2 + bit eb 1]
  | .vfclass d a ea eb => [1677721624 + d * 524288 + a * 4096 + bit ea 2 + bit eb 1]
  | .vrnd d a ea eb => [1677721628 + d * 524288 + a * 4096 + bit ea 2 + bit eb 1]
  | .vshuf d a b ea eb => [1744830464 + d * 524288 + a * 4096 + b * 32 + bit ea 2 + bit eb 1]
  | .vrot d a b ea eb => [1744830468 + d * 524288 + a * 4096 + b * 32 + bit ea 2 + bit eb 1]
  | .vrdl d a b ea eb => [1744830472 + d * 524288 + a * 4096 + b * 32 + bit ea 2 + bit eb 1]
  | .vwrl d a b ea eb => [1744830476 + d * 524288 + a * 4096 + b * 32 + bit ea 2 + bit eb 1]
  | .vred d a ea eb => [1744830480 + d * 524288 + a * 4096 + bit ea 2 + bit eb 1]
  | .vscan d a ea eb => [1744830484 + d * 524288 + a * 4096 + bit ea 2 + bit eb 1]
  | .vballot d a ea eb => [1744830488 + d * 524288 + a * 4096 + bit ea 2 + bit eb 1]
  | .vcompact d a b ea eb => [1744830492 + d * 524288 + a * 4096 + b * 32 + bit ea 2 + bit eb 1]
  | .pand d a b ea eb => [1811939328 + d * 524288 + a * 4096 + b * 32 + bit ea 2 + bit eb 1]
  | .por d a b ea eb => [1811939332 + d * 524288 + a * 4096 + b * 32 + bit ea 2 + bit eb 1]
  | .pxor d a b ea eb => [1811939336 + d * 524288 + a * 4096 + b * 32 + bit ea 2 + bit eb 1]
  | .pandn d a b ea eb => [1811939340 + d * 524288 + a * 4096 + b * 32 + bit ea 2 + bit eb 1]
  | .pnot d a ea eb => [1811939344 + d * 524288 + a * 4096 + bit ea 2 + bit eb 1]
  | .pfroms d a ea eb => [1811939348 + d * 524288 + a * 4096 + bit ea 2 + bit eb 1]
  | .ptos d a ea eb => [1811939352 + d * 524288 + a * 4096 + bit ea 2 + bit eb 1]
  | .pmov d a ea eb => [1811939356 + d * 524288 + a * 4096 + bit ea 2 + bit eb 1]
  | .expr d a b n ea eb tokens => [1879048192 + d * 524288 + a * 4096 + b * 32 + (n - 1) * 4 + bit ea 2 + bit eb 1, tokens]
  | .ld d a pol sz off => [2147483648 + d * 524288 + a * 4096 + pol * 512 + sz * 128 + off]
  | .st d a pol sz off => [2214592512 + d * 524288 + a * 4096 + pol * 512 + sz * 128 + off]
  | .lds d a pol sz off => [2281701376 + d * 524288 + a * 4096 + pol * 512 + sz * 128 + off]
  | .sts d a pol sz off => [2348810240 + d * 524288 + a * 4096 + pol * 512 + sz * 128 + off]
  | .ldb d a pol sz off => [2415919104 + d * 524288 + a * 4096 + pol * 512 + sz * 128 + off]
  | .stb d a pol sz off => [2483027968 + d * 524288 + a * 4096 + pol * 512 + sz * 128 + off]
  | .ldaqScalar d a pol sz off => [2550136832 + d * 524288 + a * 4096 + pol * 512 + sz * 128 + off]
  | .ldaqVector d a pol sz off => [2550136896 + d * 524288 + a * 4096 + pol * 512 + sz * 128 + off]
  | .strlScalar d a pol sz off => [2617245696 + d * 524288 + a * 4096 + pol * 512 + sz * 128 + off]
  | .strlVector d a pol sz off => [2617245760 + d * 524288 + a * 4096 + pol * 512 + sz * 128 + off]
  | .atomAdd d a b ea eb => [2684354560 + d * 524288 + a * 4096 + b * 32 + bit ea 2 + bit eb 1]
  | .atomAnd d a b ea eb => [2684354564 + d * 524288 + a * 4096 + b * 32 + bit ea 2 + bit eb 1]
  | .atomOr d a b ea eb => [2684354568 + d * 524288 + a * 4096 + b * 32 + bit ea 2 + bit eb 1]
  | .atomXor d a b ea eb => [2684354572 + d * 524288 + a * 4096 + b * 32 + bit ea 2 + bit eb 1]
  | .atomMin d a b ea eb => [2684354576 + d * 524288 + a * 4096 + b * 32 + bit ea 2 + bit eb 1]
  | .atomMax d a b ea eb => [2684354580 + d * 524288 + a * 4096 + b * 32 + bit ea 2 + bit eb 1]
  | .atomXchg d a b ea eb => [2684354584 + d * 524288 + a * 4096 + b * 32 + bit ea 2 + bit eb 1]
  | .atomFadd d a b ea eb => [2684354588 + d * 524288 + a * 4096 + b * 32 + bit ea 2 + bit eb 1]
  | .acasVector d a b ea eb => [2751463424 + d * 524288 + a * 4096 + b * 32 + bit ea 2 + bit eb 1]
  | .acasScalar d a b ea eb => [2751463428 + d * 524288 + a * 4096 + b * 32 + bit ea 2 + bit eb 1]
  | .atomsAdd d a b ea eb => [2818572288 + d * 524288 + a * 4096 + b * 32 + bit ea 2 + bit eb 1]
  | .atomsAnd d a b ea eb => [2818572292 + d * 524288 + a * 4096 + b * 32 + bit ea 2 + bit eb 1]
  | .atomsOr d a b ea eb => [2818572296 + d * 524288 + a * 4096 + b * 32 + bit ea 2 + bit eb 1]
  | .atomsXor d a b ea eb => [2818572300 + d * 524288 + a * 4096 + b * 32 + bit ea 2 + bit eb 1]
  | .atomsMin d a b ea eb => [2818572304 + d * 524288 + a * 4096 + b * 32 + bit ea 2 + bit eb 1]
  | .atomsMax d a b ea eb => [2818572308 + d * 524288 + a * 4096 + b * 32 + bit ea 2 + bit eb 1]
  | .atomsXchg d a b ea eb => [2818572312 + d * 524288 + a * 4096 + b * 32 + bit ea 2 + bit eb 1]
  | .atomsFadd d a b ea eb => [2818572316 + d * 524288 + a * 4096 + b * 32 + bit ea 2 + bit eb 1]
  | .redAdd a b ea eb => [2885681152 + a * 4096 + b * 32 + bit ea 2 + bit eb 1]
  | .redFadd a b ea eb => [2885681156 + a * 4096 + b * 32 + bit ea 2 + bit eb 1]
  | .redMin a b ea eb => [2885681160 + a * 4096 + b * 32 + bit ea 2 + bit eb 1]
  | .redMax a b ea eb => [2885681164 + a * 4096 + b * 32 + bit ea 2 + bit eb 1]
  | .redAnd a b ea eb => [2885681168 + a * 4096 + b * 32 + bit ea 2 + bit eb 1]
  | .redOr a b ea eb => [2885681172 + a * 4096 + b * 32 + bit ea 2 + bit eb 1]
  | .redXor a b ea eb => [2885681176 + a * 4096 + b * 32 + bit ea 2 + bit eb 1]
  | .pref a b ea eb => [2952790016 + a * 4096 + b * 32 + bit ea 2 + bit eb 1]
  | .disc a b ea eb => [2952790020 + a * 4096 + b * 32 + bit ea 2 + bit eb 1]
  | .wbk a b ea eb => [2952790024 + a * 4096 + b * 32 + bit ea 2 + bit eb 1]
  | .inv a b ea eb => [2952790028 + a * 4096 + b * 32 + bit ea 2 + bit eb 1]
  | .rflush b ea eb => [2952790032 + b * 32 + bit ea 2 + bit eb 1]
  | .fence eng cum scope pred succ => [3019898880 + bit eng 2048 + bit cum 1024 + scope * 256 + pred * 16 + succ]
  | .bari a b ea eb => [3087007744 + a * 4096 + b * 32 + bit ea 2 + bit eb 1]
  | .bara a b ea eb => [3087007748 + a * 4096 + b * 32 + bit ea 2 + bit eb 1]
  | .barw a b ea eb => [3087007752 + a * 4096 + b * 32 + bit ea 2 + bit eb 1]
  | .barx a b ea eb => [3087007756 + a * 4096 + b * 32 + bit ea 2 + bit eb 1]
  | .barq d a b ea eb => [3087007760 + d * 524288 + a * 4096 + b * 32 + bit ea 2 + bit eb 1]
  | .acopy d a b ea eb => [3154116608 + d * 524288 + a * 4096 + b * 32 + bit ea 2 + bit eb 1]
  | .acopy2d d a b ea eb => [3154116612 + d * 524288 + a * 4096 + b * 32 + bit ea 2 + bit eb 1]
  | .tagw d a ea eb => [3221225472 + d * 524288 + a * 4096 + bit ea 2 + bit eb 1]
  | .mreq d a b ea eb => [3288334336 + d * 524288 + a * 4096 + b * 32 + bit ea 2 + bit eb 1]
  | .trd d a b ea eb => [3355443200 + d * 524288 + a * 4096 + b * 32 + bit ea 2 + bit eb 1]
  | .twr d a b ea eb => [3355443204 + d * 524288 + a * 4096 + b * 32 + bit ea 2 + bit eb 1]
  | .twm d a b ea eb => [3355443208 + d * 524288 + a * 4096 + b * 32 + bit ea 2 + bit eb 1]
  | .tdrain d a b ea eb => [3355443212 + d * 524288 + a * 4096 + b * 32 + bit ea 2 + bit eb 1]
  | .mma d a b ea eb => [3422552064 + d * 524288 + a * 4096 + b * 32 + bit ea 2 + bit eb 1]
  | .mmas d a b ea eb => [3422552068 + d * 524288 + a * 4096 + b * 32 + bit ea 2 + bit eb 1]
  | .mmaq d a b ea eb => [3422552072 + d * 524288 + a * 4096 + b * 32 + bit ea 2 + bit eb 1]
  | .tzero d ea eb => [3422552076 + d * 524288 + bit ea 2 + bit eb 1]
  | .tload d a b ea eb => [3422552080 + d * 524288 + a * 4096 + b * 32 + bit ea 2 + bit eb 1]
  | .tstore d a b ea eb => [3422552084 + d * 524288 + a * 4096 + b * 32 + bit ea 2 + bit eb 1]
  | .msig a ea eb => [3422552092 + a * 4096 + bit ea 2 + bit eb 1]
  | .twalk a b ea eb => [3489660928 + a * 4096 + b * 32 + bit ea 2 + bit eb 1]
  | .permit a b ea eb => [3489660932 + a * 4096 + b * 32 + bit ea 2 + bit eb 1]
  | .srdef a b ea eb => [3489660936 + a * 4096 + b * 32 + bit ea 2 + bit eb 1]
  | .vcnt a b ea eb => [3489660944 + a * 4096 + b * 32 + bit ea 2 + bit eb 1]
  | .scaleb a b ea eb => [3489660948 + a * 4096 + b * 32 + bit ea 2 + bit eb 1]
  | .tfill d a ea eb => [3489660952 + d * 524288 + a * 4096 + bit ea 2 + bit eb 1]
  | .wake a ea eb => [3556769792 + a * 4096 + bit ea 2 + bit eb 1]
  | .sig a b ea eb => [3556769796 + a * 4096 + b * 32 + bit ea 2 + bit eb 1]
  | .depo d a b ea eb => [3556769800 + d * 524288 + a * 4096 + b * 32 + bit ea 2 + bit eb 1]
  | .join d a ea eb => [3556769804 + d * 524288 + a * 4096 + bit ea 2 + bit eb 1]
  | .sigw d a ea eb => [3556769812 + d * 524288 + a * 4096 + bit ea 2 + bit eb 1]
  | .ngrant a b ea eb => [3556769816 + a * 4096 + b * 32 + bit ea 2 + bit eb 1]
  | .nrevoke a b ea eb => [3556769820 + a * 4096 + b * 32 + bit ea 2 + bit eb 1]
  | .launch a ea eb => [3623878656 + a * 4096 + bit ea 2 + bit eb 1]
  | .take d ea eb => [3623878660 + d * 524288 + bit ea 2 + bit eb 1]
  | .post a b ea eb => [3623878664 + a * 4096 + b * 32 + bit ea 2 + bit eb 1]
  | .qstat d a ea eb => [3623878668 + d * 524288 + a * 4096 + bit ea 2 + bit eb 1]
  | .hnew d a b ea eb => [3690987520 + d * 524288 + a * 4096 + b * 32 + bit ea 2 + bit eb 1]
  | .hsplit d a ea eb => [3690987524 + d * 524288 + a * 4096 + bit ea 2 + bit eb 1]
  | .hdrop a ea eb => [3690987528 + a * 4096 + bit ea 2 + bit eb 1]
  | .hmerge d a ea eb => [3690987532 + d * 524288 + a * 4096 + bit ea 2 + bit eb 1]
  | .hbind a b ea eb => [3690987536 + a * 4096 + b * 32 + bit ea 2 + bit eb 1]
  | .hinfo d a ea eb => [3690987540 + d * 524288 + a * 4096 + bit ea 2 + bit eb 1]
  | .haddr d a b ea eb => [3690987544 + d * 524288 + a * 4096 + b * 32 + bit ea 2 + bit eb 1]
  | .scopew d a ea eb => [3690987548 + d * 524288 + a * 4096 + bit ea 2 + bit eb 1]
  | .watch d a ea eb => [3758096384 + d * 524288 + a * 4096 + bit ea 2 + bit eb 1]
  | .unwatch d a ea eb => [3758096388 + d * 524288 + a * 4096 + bit ea 2 + bit eb 1]
  | .warm d a ea eb => [3758096392 + d * 524288 + a * 4096 + bit ea 2 + bit eb 1]
  | .wstat d a ea eb => [3758096396 + d * 524288 + a * 4096 + bit ea 2 + bit eb 1]
  | .srd a b => [4227858432 + a * 2048 + b * 16]
  | .swr a b => [4228120576 + a * 2048 + b * 16]
  | .tlbinv a b c => [4228644864 + a * 2048 + b * 16 + c]
  | .fbread a => [4228907008 + a * 2048]
  | .replay a => [4229169152 + a * 2048]
  | .setcoh a b c => [4229431296 + a * 2048 + b * 16 + c]
  | .migrate a b c => [4229693440 + a * 2048 + b * 16 + c]
  | .wsload a c => [4229955584 + a * 2048 + c]
  | .halt a => [4230217728 + a * 2048]
  | .haltRelease a => [4230217729 + a * 2048]
  | .swapout a b => [4230479872 + a * 2048 + b * 16]
  | .rcv => [1140850688]
  | .ret => [1140850692]
  | .bkpt => [1140850712]
  | .nop => [1140850716]
  | .tsync => [3422552088]
  | .clust => [3489660940]
  | .sleep => [3556769808]
  | .trapret => [4228382720]
  | .replayDie => [4229169153]
  | .submissionDoorbell => []
  | .intakeRecord => []
  | .pendingLaunchDrain => []
  | .launchStart => []
  | .launchStarvation => []
  | .rankPlace => []
  | .swapThreshold => []
  | .saveComplete => []
  | .groupResume => []
  | .yieldReady => []
  | .doldrumsExpiry => []
  | .groupExitComplete => []
  | .loadDataReturn => []
  | .atomicReturn => []
  | .vsfuComplete => []
  | .postedOpAck => []
  | .wakeDelivery => []
  | .sigDelivery => []
  | .depoDelivery => []
  | .joinDelivery => []
  | .ngrantDelivery => []
  | .nrevokeDelivery => []
  | .joinValueArrival => []
  | .namePortWake => []
  | .namePortSig => []
  | .namePortDepo => []
  | .namePortJoin => []
  | .namePortHexit => []
  | .namePortReservedOp => []
  | .namePortDiscardedWrite => []
  | .hostNameAlloc => []
  | .nameRelease => []
  | .portUnbind => []
  | .skeinAlloc => []
  | .indirectionAlloc => []
  | .skeinDrop => []
  | .skeinBind => []
  | .scopewAttach => []
  | .skeinReply => []
  | .scopewComplete => []
  | .takeItemDelivery => []
  | .postAccept => []
  | .watchInstallComplete => []
  | .watchedWriteAtHome => []
  | .watchWindowClose => []
  | .watchPeriodStart => []
  | .unwatchComplete => []
  | .sequencerTakeEntry => []
  | .msigDelivery => []
  | .routineEnd => []
  | .clustBindTake => []
  | .matrixOpStart => []
  | .matrixPassComplete => []
  | .tileRowWritten => []
  | .tstoreRow => []
  | .walkTileFetch => []
  | .walkTileDelivered => []
  | .trdServe => []
  | .tdrainRow => []
  | .requestHoldEnd => []
  | .copyComplete => []
  | .barrierArrival => []
  | .atomicBufferDrain => []
  | .redApply => []
  | .reductionSetApply => []
  | .walkComplete => []
  | .hostAccess => []
  | .dieWakeComplete => []
  | .diePowerDown => []
  | .diepwrReq => []
  | .remoteErrorResponse => []
  | .mcheckDeliver => []
  | .memoryUncorrectable => []
  | .registerUncorrectable => []
  | .weightBankRefresh => []
  | .weightRefreshFail => []
  | .skeinRecordError => []
  | .nameEntryError => []
  | .prectlGo => []
  | .prectlClearDone => []
  | .prectlClearErr => []
  | .preemptDrainEnd => []
  | .preemptDone => []
  | .registerWrite => []
  | .hownAdopt => []
  | .hownClearStale => []
  | .linkTraining => []
  | .flitCrcError => []
  | .linkAckTimeout => []
  | .laneRetire => []
  | .widthChangeComplete => []
  | .hostLoss => []
  | .firmwareHeartbeatTimeout => []
  | .liveUpdate => []
  | .complexBoot => []
  | .powerUp => []
  | .spdmGetVersion => []
  | .spdmGetCapabilities => []
  | .spdmNegotiateAlgorithms => []
  | .spdmGetDigests => []
  | .spdmGetCertificate => []
  | .spdmChallenge => []
  | .spdmGetMeasurements => []
  | .spdmUnsupported => []
  | .registerServicer => []
  | .regionEnd => []
  | .thermalThrottle => []
  | .thermalUnthrottle => []
  | .thermalEmergency => []
  | .thermalTrip => []
  | .powerOverCap => []
  | .dieLinkFail => []
  | .dieSelfFence => []
  | .clusterRetire => []
  | .channelRetire => []
  | .securityAlarm => []
  | .fradbAttach => []
  | .fradbBreak => []
  | .fradbBreakHit => []
  | .fradbContinue => []
  | .fradbStep => []
  | .fradbStepNotReady => []
  | .fradbPrint => []
  | .fradbName => []
  | .fradbSave => []
  | .fradbX => []
  | .fradbIntakeHold => []
  | .fradbIntakeRelease => []
  | .fradbPlq => []
  | .fradbSkein => []
  | .fradbTile => []
  | .fradbTileRow => []
  | .reservedEncoding => []
  | .saveImageImport => []
  | .peerRequest => []
  | .storePerformed => []
  | .cacheMaintenanceComplete => []
  | .cohChangePublish => []
  | .fbreadReply => []
  | .watchQueryReply => []
  | .wsloadComplete => []
  | .tlbinvComplete => []
  | .haltStopped => []
  | .powerLoss => []
  | .deviceReset => []

/-- The head word of an instruction, 0 for an event row (TINFO of ILLEGAL and PRIV, R372). -/
def Instr.headWord (i : Instr) : Nat := (encode i).headD 0

/-- The bytes of a well-formed instruction. -/
def encodeBytes (i : Instr) : List (BitVec 8) := (encode i).flatMap (leBytes 4)

/-- The instruction read from bits numbered as the opcode table numbers them: bit 0 is the least
significant bit of the first word, a second word's bits count on from bit 32 (nbits is how many the
table gives; the bits above are 0). -/
def decodeTableWord (nbits w : Nat) : Option Instr :=
  match decode (leBytes 8 (w % 2 ^ nbits)) with
  | .ok (i, _) => some i
  | .error _ => none

end Sys2Proof
end

