-- ==== Sys2Proof/Word.lean ====
section
/-!
DEFINITION. The word types of the machine and their plainest arithmetic.
-/

namespace Sys2Proof

/-- A byte of memory. -/
abbrev Byte := BitVec 8
/-- A 32-bit word: an s register, one lane of a v register. -/
abbrev W32 := BitVec 32
/-- A 64-bit word: a pair, an address, a name, a handle. -/
abbrev W64 := BitVec 64
/-- One bit a lane, 96 lanes. -/
abbrev Mask := BitVec 96

/-- A 32-bit word from a number. -/
abbrev w32 (n : Nat) : W32 := BitVec.ofNat 32 n
/-- A 64-bit word from a number. -/
abbrev w64 (n : Nat) : W64 := BitVec.ofNat 64 n

/-- A pair as one 64-bit value, the low word first (R214). -/
def pairOf (lo hi : W32) : W64 := hi ++ lo
/-- The low word of a pair. -/
def loW (x : W64) : W32 := x.setWidth 32
/-- The high word of a pair. -/
def hiW (x : W64) : W32 := (x >>> (32 : Nat)).setWidth 32

/-- A 32-bit word from a truth value. -/
def boolW (b : Bool) : W32 := if b then 1 else 0

end Sys2Proof
end

