-- ==== Sys2Proof/Config.lean ====
section
/-!
DEFINITION. The free values: what the spec leaves open and nothing in the model constrains.
Each is an uninterpreted constant of the machine, applied to what it depends on or to the counter
State.fresh. No proof can evaluate one.
-/

namespace Sys2Proof.Config

/-- Arithmetic-clock cycles beyond one that a step takes (log 6; R333 CLOCK, timing). -/
opaque extraCycles : Nat → Nat

/-- The bits a special function returns, by function number, element type and argument bits; taken where
they lie within the bound of R265 (log 7). -/
opaque sfuChoice : Nat → Nat → Nat → Nat

/-- A head's configuration space by offset (R196, log 28). -/
opaque configSpace : Nat → Nat

/-- Whether a posted write lost with a peer was performed (R390, log 6). -/
opaque lostWritePerformed : Nat → Bool

/-- A word that the spec gives no value: a scale at an address that cannot be read (R308, log 21). -/
opaque freeWord : Nat → BitVec 32

/-- The channel of its memory die that holds a line, by line number (R424, log 9). -/
opaque channelOf : Nat → Nat

/-- Digests, certificates, signatures and versions in SPDM answers, by kind and number (R202, log 10). -/
opaque spdmValue : Nat → Nat → Nat

/-- What a damaged memory byte reads as in a debug or engine view (R392, log 6). -/
opaque damagedByte : Nat → BitVec 8

end Sys2Proof.Config
end

