-- ==== Sys2Proof/Machine/State.lean ====
section
/-!
DEFINITION. The whole state of one K9-6M as plain data: groups and their arms, clusters, dies, the
hub, memory, the operations in flight and the turns still to come; the reasons a step can stop; the
state after reset.
-/

namespace Sys2Proof.Machine

/-- Why the machine stops with a fault. The model raises none: every failure of the spec is a trap,
a park, a status or a device event, and each is a next state. -/
inductive Fault where
  /-- raised by no meaning; kept so that the type is inhabited. Safe. -/
  | none
  deriving DecidableEq, Repr

/-- Why an instruction is refused. -/
inductive Refusal where
  /-- an arm of exec with no meaning yet, by its mnemonic. Safe. -/
  | notModelled (mnemonic : String)
  deriving DecidableEq, Repr

/-! ### Memory -/

/-- Byte memory: the listed bytes in strictly rising address order, none of them zero; an unlisted
address reads zero (log 4). -/
structure Memory where
  cells : List Host.Cell
  deriving DecidableEq, Repr

/-- Where an access lands once it is classified and translated (R67 to R76). -/
inductive Place where
  /-- device physical address -/
  | dev (pa : Nat)
  /-- host memory behind a Porruter port (HOSTMEM = 1) -/
  | host (port pa : Nat)
  /-- a peer's memory (HOME 0x80 to 0xFF) -/
  | peer (p pa : Nat)
  /-- the weight store of a die -/
  | weight (die off : Nat)
  /-- the scratchpad of a group -/
  | spad (tid off : Nat)
  /-- memory of a peer that was lost after the place was resolved: no access reaches it (R195, R390) -/
  | removed (p pa : Nat)
  deriving DecidableEq, Repr

/-! ### Groups and arms -/

/-- A register of a group. `b armB n` is s(n), n = 48 to 63, of arm A or B. -/
inductive RegId where
  | s (n : Nat)
  | b (armB : Bool) (n : Nat)
  | v (n : Nat)
  | p (n : Nat)
  deriving DecidableEq, Repr

/-- The arms in whose program order an operation stands: each arm is a thread of its own, and both arms
of a split take the order that precedes it (R86). -/
structure Arms where
  a : Bool
  b : Bool
  deriving DecidableEq, Repr

/-- Who issued an operation: the thread and the arms whose order it stands in. -/
structure Who where
  tid : Nat
  arms : Arms
  deriving DecidableEq, Repr

/-- What an arm waits for: WSTATE of the arm block (R45). -/
inductive WState where
  | ready | blocked | sleep | sigw | join | take | scopew | barrier | yld | rcv | parked | rflush
  | wsload | tdrain | held
  /-- its instruction is complete once an operation under way is (a barrier arrival, TLBINV, HALT); no
  save finds it, for a drain completes it -/
  | arriving
  deriving DecidableEq, Repr

/-- A vector register: 96 lanes, a format tag and a full/empty bit (R22). -/
structure VReg where
  lanes : Vector W32 96
  tag : Nat
  full : Bool
  deriving DecidableEq, Repr

/-- A divergence-stack record (R39): kind1 is a side pushed by BRD or BRDN. -/
structure DivRec where
  pc : W64
  mask : Mask
  kind1 : Bool
  split : Bool
  deriving DecidableEq, Repr

/-- An MREQ whose reads are held under R360: the request, its token register, its cluster, and the tiles
that its routine has lowered with an MMA-family operation. -/
structure MHold where
  req : Nat
  reg : RegId
  cl : Nat
  tiles : List Nat
  deriving DecidableEq, Repr

/-- A TDRAIN under way (R166, R304): what it read at issue, and where each element of each row goes. -/
structure Drain where
  cl : Nat
  tile : Nat
  otype : Nat
  act : Nat
  cols : Nat
  scales : List W32
  biases : List W32
  /-- the address of row 0 and the bytes between rows -/
  dest : Nat
  pitch : Nat
  rows : List (List Place)
  row : Nat
  deriving DecidableEq, Repr

/-- One arm of a group, or the one arm of a sequencer (R38, R45). -/
structure Arm where
  occ : Bool
  ws : WState
  wreg : Nat
  splitOff : Bool
  mode : W32
  pc : W64
  srcnt : W32
  waux : W32
  park : Mask
  /-- parked on the fetch of its next instruction (R243) -/
  parkFetch : Bool
  /-- the instruction at the PC is resumed, its checks made: the parked lanes are to be performed again
  (REPLAY, R80), or its wait is over; the model's own -/
  replay : Bool
  bank : Vector W32 16
  bfull : BitVec 16
  /-- the records of the stack held in the core, top first: at most four (R39) -/
  dstk : List DivRec
  /-- records below them, spilled to the stack backing -/
  deep : Nat
  holds : List MHold
  drain : Option Drain
  /-- the register that a blocked arm waits for, of which WREG is the number; the model's own -/
  on : Option RegId
  /-- it waits for that register as a destination, until no producer of it is outstanding (R217); the model's own -/
  onWrite : Bool
  /-- the destinations of its instruction that a load or atomic with parked lanes has still to fill (R279); the
  model's own -/
  owes : List RegId
  /-- its unit turned it away when it was chosen last, so that its AGE stands (R118); the model's own -/
  turned : Bool
  /-- the barrier that it waits for has been removed (R296); the model's own -/
  lost : Bool
  /-- AGE: the choices since it last issued (R118) -/
  age : Nat
  /-- the clock when the arm's present state began (R43, R48, R318) -/
  since : W64
  deriving DecidableEq, Repr

/-- A pending MCHECK (R391), with the clock when its instruction issued. -/
structure MCheck where
  armB : Bool
  addr : W64
  lane : Nat
  detail : Nat
  issued : W64
  deriving DecidableEq, Repr

/-- A barrier slot (R294): N, B and the counts C(B) to C(B + 3). -/
structure Bar where
  n : Nat
  b : Nat
  c0 : Nat
  c1 : Nat
  c2 : Nat
  c3 : Nat
  deriving DecidableEq, Repr

/-- A core and a slot on it (R7, R51). -/
structure CoreLoc where
  die : Nat
  x : Nat
  y : Nat
  slot : Nat
  deriving DecidableEq, Repr

/-- What the launch record fixes for its groups (R28, R29, R108). -/
structure LaunchInfo where
  cor : Bool
  nbh : Bool
  aff : Bool
  mtx : Bool
  stage : Bool
  stageq : Nat
  prio : Nat
  w : Nat
  h : Nat
  /-- tid of member 0 of the neighbourhood -/
  lead : Nat
  /-- DET of the record -/
  det : Bool
  /-- PRIO of the record where PRIOV = 1 -/
  prioField : Option Nat
  /-- the submission queue it came from -/
  hostq : Option Nat
  deriving DecidableEq, Repr

/-- The effective values a group keeps from its start (R24, R27). -/
structure EffVals where
  troot : Nat
  seed : W64
  det : Bool
  swapthr : Nat
  placeset : Nat
  deriving DecidableEq, Repr

/-- The limits of one region that a launch keeps from its start (R26, R27, R115). -/
structure Cap where
  region : Nat
  maxgroups : Nat
  maxcores : Nat
  tokshare : Nat
  deriving DecidableEq, Repr

/-- A recorded operation of a save record (R45), with the lanes that take part in it; the lanes are the
model's own. -/
structure RecOp where
  pc : W64
  word : W32
  armB : Bool
  opa : W64
  opb : W64
  opc : W64
  lanes : Mask
  deriving DecidableEq, Repr

/-- A group, or a sequencer's scalar state (seq = its cluster): registers, arms, pending bits, trap
frame, scratchpad, barrier slot (R22, R30, R44, R45, R149). -/
structure Group where
  tid : Nat
  seq : Option Nat
  name : W64
  region : Nat
  rank : W32
  ngroups : W32
  launchId : W32
  nbidx : W32
  vregs : Nat
  lastLanes : Nat
  spadKiB : Nat
  info : LaunchInfo
  eff : EffVals
  loc : CoreLoc
  resident : Bool
  /-- being written or read by a swap (its name is MIGRATING) -/
  migrating : Bool
  /-- its whole unit is being swapped out for a launch of higher priority, with its routines (R113, R123) -/
  evicted : Bool
  /-- a pre-emption saved it, or an image brought it: the dispatcher resumes it whatever it waits for (R46, R126) -/
  preempted : Bool
  s : Vector W32 48
  sfull : BitVec 64
  /-- v0 to v127; the group has the first VREGS of them -/
  v : Vector VReg 128
  p : Vector Mask 8
  pfull : BitVec 8
  sigPend : W32
  wakePend : Bool
  repoch : Nat
  nerr : Nat
  nout : Nat
  tcause : W32
  tpc : W64
  taddr : W64
  tinfo : W32
  stkB : Nat
  spwin : W64
  spad : Memory
  halted : Bool
  /-- it was a region fault that stopped it (R365) -/
  faulted : Bool
  hold : Bool
  damaged : Bool
  /-- errors known from responses that no boundary has met yet, in order of arrival (R391) -/
  mchecks : List MCheck
  bar : Bar
  phases : List Nat
  /-- destinations with a long-latency producer outstanding (R217) -/
  pend : List RegId
  /-- registers, lanes, scratchpad words and refilled stack records with an uncorrectable error (R373, R393): kind,
  number, lane or arm -/
  bad : List (Nat × Nat × Nat)
  recs : List RecOp
  saveRec : Nat
  /-- EXIT has issued with this value and waits for its operations (R249) -/
  exiting : Option W32
  armA : Arm
  armB : Arm
  /-- the arm that has the turn: false A, true B -/
  sel : Bool
  deriving DecidableEq, Repr

/-! ### Names, skeins, launches, watches -/

/-- STATE of a name entry (R51). -/
inductive NState where
  | free | resident | saved | migrating | host | dead
  deriving DecidableEq, Repr

/-- A joiner record (R61) with its number in the pool at JPOOLBASE: a group's register, or a host's
completion address, none where it asked for no completion. -/
inductive Joiner where
  | group (rec : Nat) (who : Who) (reg : RegId)
  | host (rec : Nat) (compl : Option Nat)
  deriving DecidableEq, Repr

/-- A name entry as the name home holds it (R51). -/
structure NameEntry where
  name : Nat
  state : NState
  loc : Nat
  rights : Nat
  all : Bool
  gen : Nat
  owner : Nat
  grantee : Nat
  pending : W32
  exitval : W32
  joiners : List Joiner
  port : Nat
  damaged : Bool
  deriving DecidableEq, Repr

/-- Who sends a name operation (R55, R57). -/
inductive NSrc where
  | group (tid : Nat)
  | port (p : Nat)
  /-- the device's own SIG 1 of R367, or SIG 0 of R80 and R387 for a die -/
  | device (die : Nat)
  deriving DecidableEq, Repr

/-- A name operation (R58, R319). -/
inductive NKind where
  | wake
  | sig (n : Nat)
  | depo (m : Nat) (v : W32)
  | join (reg : RegId)
  | joinHost
  /-- HEXIT of a name port with its exit value (R66) -/
  | hexit (v : W32)
  | ngrant (word : W32)
  | nrevoke (word : W32)
  deriving DecidableEq, Repr

/-- The path of a name operation (R54): through the name home; directly to the slot that an NTLB entry names, with its
GEN; or forwarded to the home by the core that it reached. -/
inductive NPath where
  | home
  | direct (gen loc : Nat)
  | forwarded
  deriving DecidableEq, Repr

/-- An entry of a core's NTLB (R54). -/
structure NtlbEntry where
  die : Nat
  x : Nat
  y : Nat
  name : Nat
  gen : Nat
  loc : Nat
  owner : Nat
  deriving DecidableEq, Repr

/-- A name operation on its way: source, the arms whose order it stands in, source region, target, kind,
the result of the subtree check made where it issued (R55), where its completion word goes (R65), the
address and head word of its instruction (R45), and its path. -/
structure NameOp where
  src : NSrc
  arms : Arms
  region : Nat
  target : Nat
  kind : NKind
  subtree : Bool
  compl : Option Nat
  issued : W64 × W32
  path : NPath
  deriving DecidableEq, Repr

/-- A skein record as the skein home holds it (R168). -/
structure Skein where
  oid : Nat
  live : Bool
  kind : Nat
  gen : Nat
  region : Nat
  pool : Bool
  overFlag : Bool
  ret : Nat
  fin : Option Place
  held : W64
  desc : W64
  /-- SCOPEW waiters: record in the pool at JPOOLBASE, thread, status register, the handle given -/
  waiters : List (Nat × Who × RegId × W64)
  damaged : Bool
  deriving DecidableEq, Repr

/-- A word of a cast-on run (R186, R188). -/
structure WatchRec where
  off : Nat
  firstOld : W32
  new : W32
  count : Nat
  deriving DecidableEq, Repr

/-- A launch record at the hub (R28) with where it came from. -/
structure Launch where
  id : Nat
  /-- 0 host queue, 1 LAUNCH, 2 finaliser, 3 cast-on -/
  origin : Nat
  queue : Nat
  recAt : Option Place
  entry : Nat
  args : W64
  carry : W64
  affbase : Nat
  affstride : Nat
  groups : Nat
  region : Nat
  flags : Nat
  shapeW : Nat
  shapeH : Nat
  vregs : Nat
  lastLanes : Nat
  spad : Nat
  starved : Bool
  /-- the clock when it reached the hub (R112) -/
  since : W64
  wid : Nat
  words : List WatchRec
  deriving DecidableEq, Repr

/-- A started launch with ranks still to place (R113). -/
structure Started where
  launch : Launch
  first : Nat
  next : Nat
  share : W64
  prio : Nat
  eff : EffVals
  /-- the limits of the region and its ancestors when it started, and the save area (R26, R27) -/
  caps : List Cap
  saveBase : Nat
  saveSize : Nat
  deriving DecidableEq, Repr

/-- An entry of a core's pending-launch queue (R109). -/
structure Plq where
  core : Nat
  who : Who
  addr : W64
  launch : Launch
  deriving DecidableEq, Repr

/-- A stage queue (R33, R323). -/
structure StageQ where
  items : List (List W32)
  /-- binding launch and its region -/
  bound : Option (Nat × Nat)
  /-- TAKEs waiting: thread, arm, first register -/
  waiting : List (Nat × Bool × Nat)
  deriving DecidableEq, Repr

/-- The part of a watch on one memory die (R186, R190, R408). -/
structure WatchDie where
  homes : Bool
  open_ : Bool
  /-- the clock when the window, or the throttle, began -/
  opened : W64
  /-- the clock when the period began (R190) -/
  period : W64
  recs : List WatchRec
  held : List WatchRec
  used : Nat
  throttled : Nat
  runaway : Bool
  deriving DecidableEq, Repr

/-- An installed watch (R182, R183): the physical pieces of its range, each (address, length, offset
from BASE). -/
structure Watch where
  wid : Nat
  installer : Nat
  base : Nat
  entryPc : Nat
  args : W64
  len : Nat
  region : Nat
  ctrl : Nat
  parts : List (Nat × Nat × Nat)
  dies : List WatchDie
  deriving DecidableEq, Repr

/-! ### Matrix -/

/-- A tile register (R150): 65,536 bytes, row-major; owner none is NONE; bad lists its damaged elements
(R393). -/
structure Tile where
  cells : Memory
  tag : Nat
  w : Nat
  owner : Option Nat
  busy : Bool
  vr : Nat
  vc : Nat
  bad : List Nat
  deriving DecidableEq, Repr

/-- A reservation-table entry (R120, R147) with what the routine takes from its requester; bind marks the
binding entry of the leader's cluster n (R165). -/
structure Resv where
  /-- number of the request; the model's own -/
  id : Nat
  who : Who
  reg : RegId
  n : Nat
  arg : W64
  prio : Nat
  arrival : W64
  slot : Nat
  region : Nat
  eff : EffVals
  rank : W32
  ngroups : W32
  launchId : W32
  nbidx : W32
  bind : Bool
  deriving DecidableEq, Repr

/-- A tensor descriptor (R180). -/
structure TensorDesc where
  et : Nat
  rank : Nat
  shdim : Nat
  nsh : Nat
  shlen : Nat
  dims : List Nat
  bases : List Nat
  deriving DecidableEq, Repr

/-- A fetched walk tile: the elements by row or column and K-step, none where padded (R160), and of a
sparse walk the metadata words by column and K-group. -/
structure WalkTile where
  elems : List (List (Option Nat))
  metas : List (List Nat)
  deriving DecidableEq, Repr

/-- A walk slot (R306, R307): the descriptor, the tensor and the places that TWALK resolved, each an
address, a length and a place, and the tiles fetched so far. -/
structure Walk where
  src : W64
  hnd : Bool
  roleB : Bool
  mcast : Bool
  lastUse : Bool
  ty : Nat
  nsp : Nat
  klen : Nat
  ldim : Nat
  mn : Nat
  blkstep : Nat
  metaBase : Nat
  coords : List Nat
  tensor : Option TensorDesc
  places : List (Nat × Nat × Place)
  committed : Bool
  poisoned : Bool
  permits : Nat
  data : List WalkTile
  /-- the 64-byte lines fetched so far, pinned: place and bytes (R156) -/
  lines : List (Place × List Byte)
  delivered : Nat
  consumed : Nat
  deriving DecidableEq, Repr

/-- An operation of the matrix or tile-walk engine (R309, R311). -/
inductive EngOp where
  /-- MMA, MMAS, MMAQ; scaled says whether SCALEB's arrays apply -/
  | mma (td wa wb pc : Nat) (entry : W32) (scaled : Bool)
  /-- TZERO, TFILL -/
  | fill (td tag : Nat) (x : W32)
  /-- TLOAD: the bytes read at its place in program order (R100) -/
  | tload (td tag : Nat) (data : Memory)
  /-- TSTORE: the address of row 0, the bytes between rows, and the blocks of each row, place and length -/
  | tstore (td addr pitch : Nat) (rows : List (List (Place × Nat)))
  deriving DecidableEq, Repr

/-- A queued or running engine operation with its progress (passes or rows done), and the counts, SAT and
owner region in force when it issued. -/
structure EngSlot where
  op : EngOp
  started : Bool
  step : Nat
  vr : Nat
  vc : Nat
  sat : Bool
  region : Nat
  /-- SCALEB's arrays when it issued (R308) -/
  scaleA : W64
  scaleB : W64
  /-- scale words read before something that the operation precedes changed them, by address (R69, R100) -/
  kept : List (Nat × W32)
  deriving DecidableEq, Repr

/-- A cluster (R146 to R166): the sequencer's routine, tiles, operator table, reservations, walks,
engine queue, counts and scales. -/
structure Cluster where
  running : Bool
  req : Resv
  msigDone : Bool
  ending : Bool
  tiles : List Tile
  optable : List W32
  resv : List Resv
  walks : List (Option Walk)
  engine : List EngSlot
  /-- PERMITs that the walk engine has not taken yet: walk slot and tiles (R121, R155) -/
  permq : List (Nat × Nat)
  vr : Nat
  vc : Nat
  scaleA : W64
  scaleB : W64
  scaled : Bool
  /-- the six clusters of the CLUST binding this cluster leads, in the order of R165 -/
  bound : List Nat
  /-- the leader this cluster is bound to -/
  leader : Option Nat
  clustUsed : Bool
  grant : Bool
  retired : Bool
  /-- its retirement waits for its regions' pre-emption (R423) -/
  retiring : Bool
  deriving DecidableEq, Repr

/-- A cluster record (R124) of a region's subtree: the sequencer's registers and PC, its routine and
reservations, the tiles, the walks and the engine's progress. -/
structure ClusterRec where
  cl : Nat
  region : Nat
  seq : Option Group
  unit : Cluster
  deriving DecidableEq, Repr

/-! ### Dies and the module -/

/-- A cached translation (R78). -/
structure TlbEntry where
  die : Nat
  troot : Nat
  base : Nat
  psize : Nat
  pte : Nat
  pteAt : Nat
  /-- INCARN of the peer when it was cached; 0 for memory of this device (R194) -/
  incarn : Nat
  /-- none: in the die's second-level TLB; else in the TLB of a core, its instruction TLB or its data TLB -/
  core : Option (Nat × Bool)
  deriving DecidableEq, Repr

/-- A NOTPRESENT miss with the arms parked on it (R79, R80). -/
structure Miss where
  va : Nat
  troot : Nat
  region : Nat
  isW : Bool
  isX : Bool
  isSeq : Bool
  psize : Nat
  npark : Nat
  first : Nat
  /-- it found the miss table full, so that its walk begins when an entry is free (R78) -/
  late : Bool
  /-- the arms parked on it -/
  arms : List (Nat × Bool)
  deriving DecidableEq, Repr

/-- Power state of a die (R203, R205). -/
structure Power where
  state : Nat
  req : Nat
  throt : Bool
  temp : Nat
  tempEmerg : Nat
  /-- a throttle requested, with the ports whose width changes it waits for (R205, R414) -/
  wants : Option (List Nat)
  deriving DecidableEq, Repr

/-- A host or peer request (R105, R111, R415); key is its port and tag. -/
structure HostReq where
  key : Nat
  /-- 0 read, 1 write, 2 to 8 atomics ADD AND OR XOR MIN MAX XCHG -/
  op : Nat
  addr : Nat
  size : Nat
  value : Nat
  /-- where its address lies since the frame that it waited for has moved (R389) -/
  moved : Option Place
  deriving DecidableEq, Repr

/-- An access that waits for a memory die to wake: a host's or peer's request, or the access at which an arm
stands (R206). -/
inductive Held where
  | req (r : HostReq)
  | arm (tid : Nat) (armB : Bool)
  deriving DecidableEq, Repr

/-- A compute die. -/
structure Die where
  faults : List Miss
  drop : Bool
  servicer : Nat
  /-- the miss table: its first 64 are open, the rest wait for room (R78) -/
  misses : List Miss
  /-- the bank in refresh, and the clock when its refresh began (R71) -/
  bank : Nat
  bankAt : W64
  badBanks : BitVec 32
  /-- 4-byte words with an uncorrectable error, by offset (R395) -/
  badWords : List Nat
  /-- parts of damaged banks rewritten since: bank, offset, length (R395) -/
  fixed : List (Nat × Nat × Nat)
  power : Power
  latch : List HostReq
  fenced : Bool
  excluded : Bool
  spares : Nat
  deriving DecidableEq, Repr

/-- A memory die. -/
structure MDie where
  power : Power
  held : List Held
  damaged : List Nat
  fenced : Bool
  spares : Nat
  /-- an access waits for the die to wake (R206) -/
  asked : Bool
  deriving DecidableEq, Repr

/-- A Porruter port (R192, R414, R415). -/
structure Link where
  up : Bool
  width : Nat
  spare : Bool
  downev : Bool
  widthev : Bool
  retries : Nat
  replays : Nat
  failed : Nat
  /-- the peer it faces; none: hosts -/
  peer : Option Nat
  /-- the host tray it faces -/
  host : Nat
  /-- a width change is in progress -/
  changing : Bool
  deriving DecidableEq, Repr

/-- A peer-table entry (R194). -/
structure Peer where
  valid : Bool
  did : Nat
  ports : BitVec 24
  incarn : Nat
  deriving DecidableEq, Repr

/-- A command record that the port has not sent: operation, target, where its word goes, and whether it
gives BADOP (R64, R65). -/
structure PortCmd where
  kind : NKind
  target : Nat
  compl : Option Nat
  bad : Bool
  deriving DecidableEq, Repr

/-- A name port (R64, R354): writes holds the host's writes that flow control holds back, oldest first. -/
structure NamePort where
  id : Nat
  region : Nat
  /-- the tray of its host process -/
  host : Nat
  errors : Nat
  outstanding : Nat
  /-- none: a write of another size or offset -/
  writes : List (Option PortCmd)
  deriving DecidableEq, Repr

/-- HOWN of one head (R198). -/
structure Hown where
  owned : Bool
  stale : Bool
  epoch : Nat
  deriving DecidableEq, Repr

/-- KSPOL of one key slot (R427). -/
structure KeySlot where
  owner : Nat
  valid : Bool
  erase : Bool
  erased : Bool
  deriving DecidableEq, Repr

/-- A marker record with its CRC (R199). -/
structure Marker where
  mseq : W32
  slot : Nat
  crc : W32
  deriving DecidableEq, Repr

/-- An image in a slot: its number stands for its bytes and for their digest; the version of its state table, the digest
of the key that signed it, the digest that the signature covers, and whether it was written whole (R199, R200). -/
structure Image where
  number : Nat
  version : Nat
  key : Nat
  digest : Nat
  whole : Bool
  deriving DecidableEq, Repr

/-- The versioned state table in hub memory, with the changes that it holds, oldest first: each the number of a firmware
service and what it was asked (R199, R418, log 19). -/
structure StateTable where
  version : Nat
  changes : List (List Nat)
  deriving DecidableEq, Repr

/-- A firmware complex with its two image slots (R199, R200, R418). -/
structure Complex where
  up : Bool
  active : Bool
  recovery : Bool
  slot0 : Image
  slot1 : Image
  mark0 : Marker
  mark1 : Marker
  running : Nat
  version : Nat
  /-- the standby's mirror of the state table (R199, R418) -/
  mirror : Option StateTable
  deriving DecidableEq, Repr

/-- A device event in a die controller's log: kind, die or 255, detail (R362). -/
structure DevEvent where
  kind : Nat
  die : Nat
  detail : Nat
  deriving DecidableEq, Repr

/-- Base registers firmware sets (R197, R110). -/
structure Bases where
  rcb : Nat
  sq : Nat
  db : Nat
  ns : Nat
  skein : Nat
  jpool : Nat
  rt : Nat
  wl : Nat
  skeinCount : Nat
  jpoolCount : Nat
  stackPool : Nat
  handover : Nat
  deriving DecidableEq, Repr

/-- PRECTL (R123). -/
structure Prectl where
  region : Nat
  busy : Bool
  done : Bool
  err : Bool
  /-- the drain phase has ended (R124) -/
  drained : Bool
  /-- regions of a fault domain still to be pre-empted (R368) -/
  queue : List Nat
  deriving DecidableEq, Repr

/-- A fradb breakpoint (R355, R357, R436): address, the original word in each attached region that maps it, number of the
arrival that stops (0: each), and whether it has come. -/
structure BreakPt where
  addr : Nat
  words : List (Nat × W32)
  hit : Nat
  spent : Bool
  deriving DecidableEq, Repr

/-- The debugger (R355 to R358, R436). -/
structure Fradb where
  attached : List Nat
  breaks : List BreakPt
  intakeHold : Bool
  /-- arms with a step pending: thread, arm (R355, R358) -/
  stepping : List (Nat × Bool)
  /-- arms that have made their step and wait for their operations before the hold (R356) -/
  stopping : List (Nat × Bool)
  /-- arms with a step pending whose instruction could not issue when it was tried last (R358) -/
  refused : List (Nat × Bool)
  /-- arms that execute the original instruction of the breakpoint they are at -/
  passing : List (Nat × Bool)
  report : List Nat
  deriving DecidableEq, Repr

/-- A RED contribution (R290, R144): entry numbers the RED it belongs to; base and bytes are its page. -/
structure Contrib where
  who : Who
  region : Nat
  entry : Nat
  base : Nat
  bytes : Nat
  core : Nat
  sched : Nat
  launch : Nat
  det : Bool
  rank : Nat
  epoch : Nat
  lane : Nat
  addr : W64
  issued : W64
  op : Nat
  et : Nat
  sat : Bool
  pc : Nat
  place : Place
  value : W32
  deriving DecidableEq, Repr

/-! ### Operations in flight -/

/-- A request to a host's or a peer's memory, of an operation in flight (R389, R390): arm, lane, address,
place, bytes, and what a store found there. -/
structure Far where
  armB : Bool
  lane : Nat
  addr : W64
  place : Place
  size : Nat
  old : Nat
  /-- further lanes of the one request of an ATOM or ATOMS at a host location (R439) -/
  also : List Nat
  /-- the clock when its instruction issued (R391) -/
  issued : W64
  deriving DecidableEq, Repr

/-- What a completion writes into a register. -/
inductive Fill where
  | word (r : RegId) (x : W32)
  /-- lanes of v(n) in the mask, and its tag -/
  | lanes (n : Nat) (m : Mask) (xs : List W32) (tag : Nat)
  /-- the same while other lanes of the instruction are still to be performed: the register stays empty (R439) -/
  | part (n : Nat) (m : Mask) (xs : List W32) (tag : Nat)
  deriving DecidableEq, Repr

/-- A word of a copy that its engine has not written (R299): the source's place and address, the value read at issue with
the error that reading it showed, the destination, and the error that its translation showed. -/
structure CopyWord where
  src : Place
  srcAddr : W64
  value : W32
  srcErr : Option Nat
  dst : Place
  dstAddr : W64
  dstErr : Option Nat
  deriving DecidableEq, Repr

/-- A copy under way (R299): its scheduler's slot, its arm, the clock at issue, the first error, the requests of the
lines sent last, the words still to write in the order of their lines. -/
structure CopyJob where
  core : Nat
  sched : Nat
  armB : Bool
  issued : W64
  err : Option MCheck
  far : List Far
  todo : List CopyWord
  deriving DecidableEq, Repr

/-- A row of a TRD waiting for its watermark (R15, R303), with the address and head word of its instruction
(R45). -/
structure TrdReq where
  issued : W64 × W32
  armB : Bool
  cl : Nat
  tile : Nat
  row : Nat
  vd : Nat
  mask : Mask
  deriving DecidableEq, Repr

/-- An operation that has left its issuer and has not completed. The event named in each docstring
takes the first of its kind. -/
inductive Flight where
  /-- LOAD_DATA_RETURN: the values, the error the response reports, if any (R391), the requests to hosts
  and peers -/
  | load (who : Who) (fills : List Fill) (err : Option MCheck) (far : List Far)
  /-- ATOMIC_RETURN, as a load -/
  | atomic (who : Who) (fills : List Fill) (err : Option MCheck) (far : List Far)
  /-- VSFU_COMPLETE -/
  | sfu (tid : Nat) (fills : List Fill)
  /-- STORE_PERFORMED -/
  | store (who : Who) (far : List Far)
  /-- CACHE_MAINTENANCE_COMPLETE -/
  | maint (who : Who)
  /-- WAKE/SIG/DEPO/JOIN/NGRANT/NREVOKE_DELIVERY -/
  | nameOp (op : NameOp)
  /-- POSTED_OP_ACK; of a name operation its target, and whether it took the direct path (R54) -/
  | ack (who : Who) (status : Nat) (dest : Option (Nat × Bool))
  /-- JOIN_VALUE_ARRIVAL -/
  | joinValue (who : Who) (reg : RegId) (x : W32)
  /-- SKEIN_ALLOC: destination pair, kind, descriptor, parent, and the pair that held the parent -/
  | skeinAlloc (tid : Nat) (d : RegId) (kind : Nat) (desc : W64) (parent : W64) (bpair : Option RegId)
  /-- INDIRECTION_ALLOC -/
  | indAlloc (tid : Nat) (d a : RegId) (h : W64)
  /-- SKEIN_DROP; who none: no issuing arm (R402), the region to charge -/
  | skeinDrop (who : Option Who) (charge : Nat) (h : W64)
  /-- SKEIN_BIND -/
  | skeinBind (who : Who) (h : W64) (fin : Option Place)
  /-- SCOPEW_ATTACH -/
  | scopewAttach (who : Who) (d a : RegId) (h : W64)
  /-- SKEIN_REPLY of HINFO: destination pair, handle -/
  | hinfo (tid : Nat) (d : RegId) (h : W64)
  /-- SKEIN_REPLY -/
  | skeinReply (tid : Nat) (fills : List Fill)
  /-- SCOPEW_COMPLETE -/
  | scopewDone (who : Who) (d : RegId) (x : W32)
  /-- TAKE_ITEM_DELIVERY -/
  | takeItem (who : Who) (armB : Bool) (d : Nat) (item : List W32)
  /-- POST_ACCEPT -/
  | post (who : Who) (q : Nat) (item : List W32)
  /-- WATCH_INSTALL_COMPLETE: the watch to install, or a status -/
  | watchInstall (tid : Nat) (d : RegId) (w : Option Watch) (status : W32)
  /-- WATCH_QUERY_REPLY -/
  | watchQuery (tid : Nat) (d : RegId) (x : W32)
  /-- UNWATCH_COMPLETE -/
  | unwatch (tid : Nat) (d : RegId) (wid : Nat) (x : W32)
  /-- WATCHED_WRITE_AT_HOME: physical word address, value before, value after -/
  | watchedWrite (pa : Nat) (old new : W32)
  /-- MSIG_DELIVERY -/
  | msig (who : Who) (reg : RegId) (cl : Nat) (x : W32)
  /-- TRD_SERVE -/
  | trd (who : Who) (r : TrdReq)
  /-- COPY_COMPLETE -/
  | copy (tid : Nat) (job : CopyJob)
  /-- BARRIER_ARRIVAL: issuing thread, arm, barrier, contribution, whether it then waits (BARX) -/
  | arrive (tid : Nat) (armB : Bool) (a b : Nat) (thenWait : Bool)
  /-- ATOMIC_BUFFER_DRAIN -/
  | drain (tid : Nat)
  /-- RED_APPLY -/
  | redApply (c : Contrib)
  /-- WALK_COMPLETE of a NOTPRESENT miss on a die -/
  | walk (die : Nat) (m : Miss)
  /-- FBREAD_REPLY -/
  | fbread (tid : Nat) (fills : List Fill)
  /-- COH_CHANGE_PUBLISH: PTE address, word to publish, status register, the frozen frame and its bytes, the
  frame it moves to -/
  | coh (tid : Nat) (d : RegId) (pteAt pte : Nat) (old : Place) (bytes : Nat) (new : Option Place)
  /-- WSLOAD_COMPLETE: die, 15 for all six; offset; the source and its pieces -/
  | wsload (tid : Nat) (armB : Bool) (die off : Nat) (src : W64) (parts : List (Place × Nat))
  /-- TLBINV_COMPLETE -/
  | tlbinv (tid : Nat) (armB : Bool) (kind va troot : Nat)
  /-- HALT_STOPPED -/
  | halt (tid : Nat) (armB : Bool) (target : Nat)
  /-- LOAD_DATA_RETURN of a reply that its thread, which has ended, takes no more: the thread, its region, LOC and the
  requests that can still fail (R249, R391) -/
  | discarded (tid region loc : Nat) (far : List Far)
  /-- SWAPOUT's wait for SAVED -/
  | swapout (tid : Nat) (d : RegId) (target : Nat)
  deriving DecidableEq, Repr

/-- Which agent moves next: an arm of a thread, or a step of another agent with its payload. -/
inductive Turn where
  | arm (tid : Nat) (armB : Bool)
  | event (i : Sys2Proof.Instr) (payload : List Nat)
  deriving DecidableEq, Repr

/-- The state of one K9-6M. -/
structure State where
  /-- the thread that has the turn; tid 0 with no arm occupied when none has -/
  cur : Group
  others : List Group
  clusters : List Cluster
  /-- the clusters of pre-empted subtrees (R124, R126) -/
  clusterRecs : List ClusterRec
  /-- objects whose skein records firmware has still to import before a subtree resumes: its root, OID (R176) -/
  imports : List (Nat × Nat)
  /-- groups lost with a fenced die, name and region: their names hold operations until an image brings the group back or
  the region ends (R422) -/
  lost : List (Nat × Nat)
  dies : List Die
  mdies : List MDie
  mem : Memory
  /-- lines whose newest value has not reached LPDDR, with what LPDDR holds (R101, R293) -/
  dirty : List (Nat × List Byte)
  hostMem : Memory
  peerMem : Memory
  weights : Memory
  tlb : List TlbEntry
  /-- cached translations of peer memory that were removed: the next use of one fails (R195) -/
  gone : List TlbEntry
  names : List NameEntry
  /-- the cores' NTLBs, newest entry first (R54) -/
  ntlb : List NtlbEntry
  hold : List NameOp
  /-- joiner records of the pool at JPOOLBASE in use (R61, R178) -/
  joinUsed : List Nat
  skeins : List Skein
  skeinErrors : Nat
  waiting : List Launch
  started : List Started
  plq : List Plq
  queueTails : List (Nat × Nat)
  /-- doorbell writes that the hub has not read, queue and tail, oldest first (R110) -/
  doorbells : List (Nat × Nat)
  stageqs : List StageQ
  watches : List Watch
  abuf : List Contrib
  /-- lanes of REDs that wait for room in their buffers, in order (R290) -/
  redq : List Contrib
  rsets : List Contrib
  /-- epochs that every group of their launch has closed, in the order of their closing (R144) -/
  closed : List (Nat × Nat)
  rsetCap : Nat
  /-- launches and pages whose reduction sets overflowed: launch, page base, page bytes (R396) -/
  rsetLost : List (Nat × Nat × Nat)
  tokcap : Nat
  nextLaunchId : Nat
  prectl : Prectl
  peers : List Peer
  links : List Link
  /-- host trays whose host is lost with the CXL link of its head, their ports being up (R416) -/
  lostHosts : List Nat
  performed : List (Nat × Nat)
  incarn : Nat
  /-- this device's domain id (R194) -/
  did : Nat
  ports : List NamePort
  howns : List Hown
  owner : Nat
  epoch : Nat
  handoverSeq : Nat
  complexes : List Complex
  /-- the key digest fused into the hub (R199) -/
  fuse : Nat
  stateTable : Option StateTable
  /-- firmware services that wait for an active complex, oldest first (R418) -/
  fwWait : List Turn
  /-- reports and answers over the management interface, oldest first: kind and data (R200, R419, R437) -/
  mgmt : List (Nat × List Nat)
  keys : List KeySlot
  alarm : Bool
  /-- the device identity key is whole (R427) -/
  identity : Bool
  debugCut : Bool
  bases : Bases
  reports : List (Nat × Nat)
  events : List DevEvent
  /-- the cycles that each region's doldrums detector has counted, and the clock when it last counted (R48) -/
  hangs : List (Nat × Nat × W64)
  /-- SPDM responses by mailbox: 0 and 1 the heads, 2 the management interface (R196, R202) -/
  spdm : List (Nat × List Nat)
  /-- SPDM requests that wait for an active complex, oldest first (R418) -/
  spdmWait : List (Nat × Sys2Proof.Instr)
  fradb : Fradb
  clock : W64
  flight : List Flight
  agenda : List Turn
  ev : List Nat
  ir : W32
  fresh : Nat
  deriving DecidableEq, Repr

/-! ### Reset values -/

/-- Memory with nothing listed. -/
def Memory.empty : Memory := ⟨[]⟩

/-- A divergence-free arm that is not occupied. -/
def Arm.free : Arm where
  occ := false
  ws := .ready
  wreg := 0
  splitOff := false
  mode := 0x2001#32
  pc := 0
  srcnt := 0
  waux := 0
  park := 0
  parkFetch := false
  replay := false
  bank := .replicate 16 0
  bfull := BitVec.allOnes 16
  dstk := []
  deep := 0
  holds := []
  drain := none
  on := none
  onWrite := false
  owes := []
  turned := false
  lost := false
  age := 0
  since := 0

/-- A vector register as at launch (R30): zero, RAW32, full. -/
def VReg.zero : VReg := ⟨.replicate 96 0, 0, true⟩

/-- No thread: the focus of State when no group or sequencer has the turn. -/
def Group.idle : Group where
  tid := 0
  seq := none
  name := 0
  region := 0
  rank := 0
  ngroups := 0
  launchId := 0
  nbidx := 0xFFFFFFFF#32
  vregs := 16
  lastLanes := 96
  spadKiB := 0
  info := ⟨false, false, false, false, false, 0, 0, 0, 0, 0, false, none, none⟩
  eff := ⟨0, 0, false, 0, 0⟩
  loc := ⟨0, 0, 0, 0⟩
  resident := false
  migrating := false
  evicted := false
  preempted := false
  s := .replicate 48 0
  sfull := BitVec.allOnes 64
  v := .replicate 128 VReg.zero
  p := #v[BitVec.allOnes 96, 0, 0, 0, 0, 0, 0, 0]
  pfull := BitVec.allOnes 8
  sigPend := 0
  wakePend := false
  repoch := 0
  nerr := 0
  nout := 0
  tcause := 0
  tpc := 0
  taddr := 0
  tinfo := 0
  stkB := 0
  spwin := 0
  spad := .empty
  halted := false
  faulted := false
  hold := false
  damaged := false
  mchecks := []
  bar := ⟨0, 0, 0, 0, 0, 0⟩
  phases := []
  pend := []
  bad := []
  recs := []
  saveRec := 0
  exiting := none
  armA := .free
  armB := .free
  sel := false

/-- A tile at power-up (R150). -/
def Tile.reset : Tile := ⟨.empty, 0, 128, none, false, 128, 128, []⟩

/-- A reservation that names nobody. -/
def Resv.none : Resv :=
  ⟨0, ⟨0, ⟨false, false⟩⟩, .s 0, 0, 0, 0, 0, 0, 0, ⟨0, 0, false, 0, 0⟩, 0, 0, 0, 0, false⟩

/-- A cluster at power-up (R150, R305). -/
def Cluster.reset : Cluster where
  running := false
  req := .none
  msigDone := false
  ending := false
  tiles := List.replicate 16 .reset
  optable := 0x580#32 :: List.replicate 15 0
  resv := []
  walks := List.replicate 8 Option.none
  engine := []
  permq := []
  vr := 128
  vc := 128
  scaleA := 0
  scaleB := 0
  scaled := false
  bound := []
  leader := Option.none
  clustUsed := false
  grant := false
  retired := false
  retiring := false

/-- DIEPWR at reset (R205). -/
def Power.reset : Power := ⟨0, 0, false, 0, 105, none⟩

/-- A compute die at reset. -/
def Die.reset : Die := ⟨[], false, 0, [], 0, 0, 0, [], [], .reset, [], false, false, 2⟩

/-- A memory die at reset. -/
def MDie.reset : MDie := ⟨.reset, [], [], false, 6, false⟩

/-- LINKSTAT at reset (R414). -/
def Link.reset : Link := ⟨false, 0, false, false, false, 0, 0, 0, none, 0, false⟩

/-- A firmware complex before power-up: slot 0 holds an image that verifies, slot 1 none, and
marker 0 names slot 0; the CRCs are those of the records (log 19). -/
def Complex.reset : Complex :=
  ⟨false, false, false, ⟨1, 1, 1, 1, true⟩, ⟨0, 0, 0, 0, true⟩, ⟨1, 0, 0xE0708A00#32⟩, ⟨0, 1, 0xB77FC6F1#32⟩, 0, 1,
    none⟩

/-- Where firmware lays out its areas (log 19). -/
def Bases.reset : Bases where
  rcb := 0x4000000000
  sq := 0x4001000000
  db := 0x4002000000
  ns := 0x4003000000
  skein := 0x4004000000
  jpool := 0x4005000000
  rt := 0x4006000000
  wl := 0x4007000000
  skeinCount := 65536
  jpoolCount := 4096
  stackPool := 0x4100000000
  handover := 0x4008000000

/-- The machine right after reset: no group, no launch, every unit as the spec's reset columns and
R150 state (logs 3, 4, 19 for the values the spec does not give). -/
def State.reset : State where
  cur := .idle
  others := []
  clusters := List.replicate 144 .reset
  clusterRecs := []
  imports := []
  lost := []
  dies := List.replicate 6 .reset
  mdies := List.replicate 6 .reset
  mem := .empty
  dirty := []
  hostMem := .empty
  peerMem := .empty
  weights := .empty
  tlb := []
  gone := []
  names := []
  ntlb := []
  hold := []
  joinUsed := []
  skeins := []
  skeinErrors := 0
  waiting := []
  started := []
  plq := []
  queueTails := []
  doorbells := []
  stageqs := List.replicate 256 ⟨[], none, []⟩
  watches := []
  abuf := []
  redq := []
  rsets := []
  closed := []
  rsetCap := 65536
  rsetLost := []
  tokcap := 2160
  nextLaunchId := 1
  prectl := ⟨0, false, false, false, false, []⟩
  peers := List.replicate 128 ⟨false, 0, 0, 0⟩
  links := List.replicate 24 .reset
  lostHosts := []
  performed := []
  incarn := 0
  did := 0
  ports := []
  howns := [⟨true, false, 0⟩, ⟨false, false, 0⟩]
  owner := 0
  epoch := 0
  handoverSeq := 0
  complexes := [.reset, .reset]
  fuse := 1
  stateTable := none
  fwWait := []
  mgmt := []
  keys := ⟨0, false, true, false⟩ :: List.replicate 63 ⟨0, false, false, false⟩
  alarm := false
  identity := true
  debugCut := false
  bases := .reset
  reports := []
  events := []
  hangs := []
  spdm := []
  spdmWait := []
  fradb := ⟨[], [], false, [], [], [], [], []⟩
  clock := 0
  flight := []
  agenda := []
  ev := []
  ir := 0
  fresh := 0

end Sys2Proof.Machine
end

