-- ==== Sys2Proof/Machine/Mem.lean ====
section
/-!
DEFINITION. Byte memory: reading, writing, little-endian words, the canonical form.
-/

namespace Sys2Proof.Machine

/-- The byte at an address; an unlisted byte reads zero (log 4). -/
def cellsGet : List Host.Cell → Nat → Byte
  | [], _ => 0
  | (k, c) :: r, a => if k = a then c else cellsGet r a

/-- The cells with one byte changed; a zero byte is not listed. -/
def cellsPut : List Host.Cell → Nat → Byte → List Host.Cell
  | [], a, b => if b = 0 then [] else [(a, b)]
  | (k, c) :: r, a, b =>
    if a < k then (if b = 0 then (k, c) :: r else (a, b) :: (k, c) :: r)
    else if a = k then (if b = 0 then r else (a, b) :: r)
    else (k, c) :: cellsPut r a b

/-- Addresses strictly rising and above the bound, no byte zero. -/
def cellsWfFrom : Nat → List Host.Cell → Bool
  | _, [] => true
  | lo, (k, c) :: r => decide (lo ≤ k) && decide (c ≠ 0) && cellsWfFrom (k + 1) r

/-- The canonical form of memory. -/
def Memory.wf (m : Memory) : Bool := cellsWfFrom 0 m.cells

/-- Reading one byte. -/
def Memory.get (m : Memory) (a : Nat) : Byte := cellsGet m.cells a

/-- Writing one byte. -/
def Memory.put (m : Memory) (a : Nat) (b : Byte) : Memory := ⟨cellsPut m.cells a b⟩

/-- The n bytes from an address. -/
def Memory.bytes (m : Memory) (a : Nat) : Nat → List Byte
  | 0 => []
  | n + 1 => m.get a :: m.bytes (a + 1) n

/-- Writing bytes from an address on. -/
def Memory.putBytes (m : Memory) (a : Nat) : List Byte → Memory
  | [] => m
  | b :: bs => (m.put a b).putBytes (a + 1) bs

/-- A number from its little-endian bytes (R2). -/
def ofBytes : List Byte → Nat
  | [] => 0
  | b :: bs => b.toNat + 256 * ofBytes bs

/-- The little-endian number of n bytes at an address (R2). -/
def Memory.rd (m : Memory) (a n : Nat) : Nat := ofBytes (m.bytes a n)

/-- Writing the n little-endian bytes of a number (R2). -/
def Memory.wr (m : Memory) (a n v : Nat) : Memory := m.putBytes a (leBytes n v)

/-- Bits hi to lo of a number. -/
def bitsOf (x hi lo : Nat) : Nat := x / 2 ^ lo % 2 ^ (hi + 1 - lo)

/-- One bit of a number. -/
def bitAt (x n : Nat) : Bool := x / 2 ^ n % 2 == 1

/-- A number as a field's width of bits at a position. -/
def fieldAt (v w lo : Nat) : Nat := v % 2 ^ w * 2 ^ lo

/-- The smaller of a count and its ceiling. -/
def satTo (ceiling n : Nat) : Nat := if n < ceiling then n else ceiling

/-- The list with position n replaced through f; unchanged beyond its end. -/
def modAt {α : Type} (f : α → α) : Nat → List α → List α
  | _, [] => []
  | 0, x :: r => f x :: r
  | n + 1, x :: r => x :: modAt f n r

/-- Element i of a vector; the default beyond its end. -/
def vget {α : Type} {n : Nat} (v : Vector α n) (i : Nat) (d : α) : α := v.toList.getD i d

/-- A vector with element i changed; unchanged beyond its end. -/
def vset {α : Type} {n : Nat} (v : Vector α n) (i : Nat) (x : α) : Vector α n :=
  ⟨⟨v.toList.set i x⟩, by simp⟩

/-- The vector of n elements that has f k at k. -/
def tab {α : Type} (n : Nat) (f : Nat → α) : Vector α n := ⟨⟨(List.range n).map f⟩, by simp⟩

/-- The first element that satisfies p, taken out of the list. -/
def takeOut {α : Type} (p : α → Bool) : List α → Option (α × List α)
  | [] => none
  | x :: r => if p x then some (x, r) else
    match takeOut p r with
    | some (y, r') => some (y, x :: r')
    | none => none

/-- The lowest number from n on, within the fuel, that is not in the list. -/
def lowestFree (used : List Nat) : Nat → Nat → Option Nat
  | 0, _ => none
  | k + 1, n => if used.contains n then lowestFree used k (n + 1) else some n

end Sys2Proof.Machine
end

