-- ==== Sys2Proof/Machine/Flags.lean ====
section
/-!
DEFINITION. The fields of the words software reads and writes whole: MODE, the policy word, TCAUSE,
ARMS, FBSTAT.
-/

namespace Sys2Proof.Machine

/-- Bits hi to lo of a 32-bit word as a number. -/
def W32.field (x : W32) (hi lo : Nat) : Nat := bitsOf x.toNat hi lo

/-! ### MODE (R218) -/

/-- ET. -/
def modeEt (m : W32) : Nat := bitsOf m.toNat 3 0
/-- RM. -/
def modeRm (m : W32) : Nat := bitsOf m.toNat 6 4
/-- SAT. -/
def modeSat (m : W32) : Bool := bitAt m.toNat 7
/-- GUARD. -/
def modeGuard (m : W32) : Nat := bitsOf m.toNat 11 8
/-- SCOPE. -/
def modeScope (m : W32) : Nat := bitsOf m.toNat 13 12
/-- SRIDX. -/
def modeSridx (m : W32) : Nat := bitsOf m.toNat 19 16

/-- MODE without its RSVD bits (R5, R218). -/
def modeKept (m : W32) : W32 := m &&& 0x000F3FFF#32

/-- MODE after SETM: bits 11:0 from the immediate (R239). -/
def modeSetm (m : W32) (imm : Nat) : W32 := (m &&& 0xFFFFF000#32) ||| w32 (imm % 4096)

/-- MODE after SWR: the writable fields; SRIDX only in a sequencer, RSVD bits ignored (R218, R333). -/
def modeSwr (m x : W32) (inSeq : Bool) : W32 :=
  let w : W32 := if inSeq then 0x000F3FFF#32 else 0x00003FFF#32
  (m &&& ~~~w) ||| (x &&& w)

/-! ### Policy word (R84) -/

/-- SCOPE of a policy word. -/
def polScope (p : W32) : Nat := bitsOf p.toNat 17 16
/-- L1BYP. -/
def polL1Byp (p : W32) : Bool := bitAt p.toNat 18
/-- L2BYP. -/
def polL2Byp (p : W32) : Bool := bitAt p.toNat 19

/-! ### TCAUSE (R334) -/

/-- TCAUSE from its fields. -/
def tcauseWord (cause : Nat) (armB inh : Bool) (detail : Nat) : W32 :=
  w32 (fieldAt cause 4 0 + (if armB then 16 else 0) + (if inh then 32 else 0) + fieldAt detail 8 8)
/-- CAUSE. -/
def tcauseCause (t : W32) : Nat := bitsOf t.toNat 3 0
/-- ARM. -/
def tcauseArm (t : W32) : Bool := bitAt t.toNat 4
/-- INH. -/
def tcauseInh (t : W32) : Bool := bitAt t.toNat 5
/-- TCAUSE after SWR: CAUSE and DETAIL are writable. -/
def tcauseSwr (t x : W32) : W32 := (t &&& 0xFFFF00F0#32) ||| (x &&& 0x0000FF0F#32)
/-- TCAUSE without its RSVD bits (R5). -/
def tcauseKept (t : W32) : W32 := t &&& 0x0000FF3F#32
/-- TCAUSE with INH clear. -/
def tcauseClearInh (t : W32) : W32 := t &&& ~~~(0x20#32)

/-! ### ARMS and FBSTAT (R334) -/

/-- ARMS from its fields. -/
def armsWord (aocc bocc self : Bool) (nerr nout : Nat) : W32 :=
  w32 ((if aocc then 1 else 0) + (if bocc then 2 else 0) + (if self then 4 else 0)
    + fieldAt nerr 8 8 + fieldAt (satTo 255 nout) 8 16)

/-- FBSTAT from its fields. -/
def fbstatWord (count : Nat) (drop : Bool) (npark : Nat) : W32 :=
  w32 (fieldAt count 4 0 + (if drop then 16 else 0) + fieldAt (satTo 255 npark) 8 8)

/-! ### Scalar arithmetic shared by the scalar and vector families -/

/-- Leading zeros of a 32-bit word, 32 for zero (R235). -/
def clz32 (x : W32) : Nat := if x.toNat = 0 then 32 else 31 - Nat.log2 x.toNat

/-- Set bits among the low n of a number. -/
def popCount : Nat → Nat → Nat
  | 0, _ => 0
  | n + 1, x => x % 2 + popCount n (x / 2)

/-- Bit-reversal of the low n bits. -/
def bitRev : Nat → Nat → Nat
  | 0, _ => 0
  | n + 1, x => x % 2 * 2 ^ n + bitRev n (x / 2)

end Sys2Proof.Machine
end

