-- ==== Sys2Proof/Machine/Groups.lean ====
section
/-!
DEFINITION. Threads and their registers: finding a thread, its arms, reading and writing a register
with its full/empty bit.
-/

namespace Sys2Proof.Machine

/-! ### Arms -/

/-- An arm slot: false A, true B. -/
def Group.arm (g : Group) (b : Bool) : Arm := if b then g.armB else g.armA

/-- A change of one arm slot. -/
def Group.mapArm (g : Group) (b : Bool) (f : Arm → Arm) : Group :=
  if b then { g with armB := f g.armB } else { g with armA := f g.armA }

/-- The arm that has the turn. -/
def Group.me (g : Group) : Arm := g.arm g.sel

/-- A change of the arm that has the turn. -/
def Group.mapMe (g : Group) (f : Arm → Arm) : Group := g.mapArm g.sel f

/-- The thread is a sequencer. -/
def Group.isSeq (g : Group) : Bool := g.seq.isSome

/-- A group is privileged when its region is region 0; a sequencer never is (R222, R433). -/
def Group.privileged (g : Group) : Bool := !g.isSeq && g.region == 0

/-! ### Registers -/

/-- s(n) of an arm. -/
def RegId.ofS (armB : Bool) (n : Nat) : RegId := if n < 48 then .s n else .b armB n

/-- The value of an s register; the other kinds read zero here. -/
def Group.val32 (g : Group) : RegId → W32
  | .s n => vget g.s n 0
  | .b armB n => vget (g.arm armB).bank (n - 48) 0
  | .v _ => 0
  | .p _ => 0

/-- A v register. -/
def Group.vreg (g : Group) (n : Nat) : VReg := vget g.v n .zero

/-- A p register; p0 is all-true (02, R213). -/
def Group.pred (g : Group) (n : Nat) : Mask := if n = 0 then BitVec.allOnes 96 else vget g.p n 0

/-- The full/empty bit of a register (R22); p0 is always full. -/
def Group.full (g : Group) : RegId → Bool
  | .s n => g.sfull.getLsbD n
  | .b armB n => (g.arm armB).bfull.getLsbD (n - 48)
  | .v n => (g.vreg n).full
  | .p n => n == 0 || g.pfull.getLsbD n

/-- A bit of a word set to a truth value. -/
def setBit {w : Nat} (x : BitVec w) (n : Nat) (b : Bool) : BitVec w :=
  if b then x ||| BitVec.ofNat w (2 ^ n) else x &&& ~~~(BitVec.ofNat w (2 ^ n))

/-- The full/empty bit of a register set or cleared. -/
def Group.setFull (g : Group) (r : RegId) (b : Bool) : Group :=
  match r with
  | .s n => { g with sfull := setBit g.sfull n b }
  | .b armB n => g.mapArm armB fun a => { a with bfull := setBit a.bfull (n - 48) b }
  | .v n => { g with v := vset g.v n { g.vreg n with full := b } }
  | .p n => if n = 0 then g else { g with pfull := setBit g.pfull n b }

/-- Kind number of a register in the error list: 0 s or p, 1 v lane. -/
def RegId.badKey : RegId → Nat × Nat
  | .s n => (0, n)
  | .b armB n => (if armB then 3 else 0, n)
  | .v n => (1, n)
  | .p n => (2, n)

/-- A whole write of a register clears an uncorrectable error in it (R393). -/
def Group.clearBad (g : Group) (r : RegId) : Group :=
  { g with bad := g.bad.filter fun (k, n, _) => !(k == r.badKey.1 && n == r.badKey.2) }

/-- Writing an s register: the value, and full (R217). -/
def Group.put32 (g : Group) (r : RegId) (x : W32) : Group :=
  match r with
  | .s n => ({ g with s := vset g.s n x }.setFull r true).clearBad r
  | .b armB n =>
    ((g.mapArm armB fun a => { a with bank := vset a.bank (n - 48) x }).setFull r true).clearBad r
  | .v _ => g
  | .p _ => g

/-- Writing a pair: both words, both full (R214). -/
def Group.put64 (g : Group) (r0 r1 : RegId) (x : W64) : Group :=
  (g.put32 r0 (loW x)).put32 r1 (hiW x)

/-- Lanes of the list where the mask is set, of the vector elsewhere. -/
def mergeLanes (m : Mask) (xs : List W32) (old : Vector W32 96) : Vector W32 96 :=
  tab 96 fun k => if m.getLsbD k then xs.getD k 0 else vget old k 0

/-- Writing lanes of a v register: the lanes in the mask take the value, the register its tag and full
(R37, R217); errors in those lanes and in the tag are gone (R393). -/
def Group.putV (g : Group) (n : Nat) (m : Mask) (xs : List W32) (tag : Nat) : Group :=
  { g with
    v := vset g.v n ⟨mergeLanes m xs (g.vreg n).lanes, tag, true⟩
    bad := g.bad.filter fun (k, r, lane) => !(r == n && (k == 5 || (k == 1 && m.getLsbD lane))) }

/-- Writing bits of a p register where the mask is set (R219); p0 is not writable. -/
def Group.putP (g : Group) (n : Nat) (m x : Mask) : Group :=
  if n = 0 then g else
  ({ g with p := vset g.p n ((x &&& m) ||| (vget g.p n 0 &&& ~~~m)) }.setFull (.p n) true).clearBad (.p n)

/-- s0 to s47 as a group or a routine begins: the values given, zero after them, and the policy words s40 to
s47 0x0000FF00 (R30, R147). -/
def initialS (xs : List W32) : Vector W32 48 := tab 48 fun i => if i < 40 then xs.getD i 0 else 0x0000FF00#32

/-! ### Operand values of the arm that has the turn -/

/-- An S operand: a register, or the literal field − 64 (R213). -/
def Group.sval (g : Group) (f : Nat) : W32 :=
  if f < 64 then g.val32 (.ofS g.sel f) else w32 (f - 64)

/-- An SP operand: a pair, low word first, or the zero-extended literal (R213, R214). -/
def Group.spval (g : Group) (f : Nat) : W64 :=
  if f < 64 then pairOf (g.val32 (.ofS g.sel f)) (g.val32 (.ofS g.sel (f + 1))) else w64 (f - 64)

/-- Writing s(n) of the arm that has the turn. -/
def Group.setS (g : Group) (n : Nat) (x : W32) : Group := g.put32 (.ofS g.sel n) x

/-- Writing the pair s(n):s(n + 1) of the arm that has the turn. -/
def Group.setSP (g : Group) (n : Nat) (x : W64) : Group :=
  g.put64 (.ofS g.sel n) (.ofS g.sel (n + 1)) x

/-- The registers of a scalar field: none for a literal. -/
def Group.sregs (g : Group) (f : Nat) : List RegId := if f < 64 then [.ofS g.sel f] else []

/-- The registers of a pair field. -/
def Group.spregs (g : Group) (f : Nat) : List RegId :=
  if f < 64 then [.ofS g.sel f, .ofS g.sel (f + 1)] else []

/-- k consecutive s registers of an arm from n. -/
def Group.sblockOf (g : Group) (b : Bool) (n : Nat) : Nat → List RegId
  | 0 => []
  | k + 1 => .ofS b n :: g.sblockOf b (n + 1) k

/-- k consecutive s registers from n. -/
def Group.sblock (g : Group) (n k : Nat) : List RegId := g.sblockOf g.sel n k

/-- The mask of an arm: s61 lanes 0 to 31, s62, s63 (R38). -/
def Arm.mask (a : Arm) : Mask := vget a.bank 15 0 ++ vget a.bank 14 0 ++ vget a.bank 13 0

/-- The mask of the arm that has the turn; a sequencer's is all lanes (R253). -/
def Group.mask (g : Group) : Mask := if g.isSeq then BitVec.allOnes 96 else g.me.mask

/-- The arm with its mask written into s61 to s63 (R11). -/
def Arm.setMask (a : Arm) (m : Mask) : Arm :=
  { a with
    bank := vset (vset (vset a.bank 13 (m.setWidth 32)) 14 ((m >>> (32 : Nat)).setWidth 32)) 15
      ((m >>> (64 : Nat)).setWidth 32)
    bfull := a.bfull ||| 0xE000#16 }

/-- The guard predicate under MODE.GUARD (R219). -/
def Group.guardMask (g : Group) : Mask :=
  let n := modeGuard g.me.mode
  if n < 8 then g.pred n else ~~~(g.pred (n - 8))

/-- The register that the guard reads. -/
def Group.guardReg (g : Group) : RegId := .p (modeGuard g.me.mode % 8)

/-- The lanes that take part (R219). -/
def Group.active (g : Group) : Mask := g.mask &&& g.guardMask

/-- ET of the arm that has the turn. -/
def Group.et (g : Group) : Nat := modeEt g.me.mode
/-- RM of the arm that has the turn. -/
def Group.rm (g : Group) : Nat := modeRm g.me.mode
/-- SAT of the arm that has the turn. -/
def Group.sat (g : Group) : Bool := modeSat g.me.mode

/-- A PC moved on by an instruction's length. -/
def Arm.next (a : Arm) (bytes : Nat) : Arm := { a with pc := a.pc + w64 bytes }

/-- A change of the PC of the arm that has the turn. -/
def Group.setPc (g : Group) (pc : W64) : Group := g.mapMe fun a => { a with pc := pc }

/-- The register that a blocked arm waits for is full, or for a writer no producer of it is outstanding (R215,
R217). -/
def Group.unblocked (g : Group) (b : Bool) : Bool :=
  match (g.arm b).on with
  | some r => g.full r || ((g.arm b).onWrite && !g.pend.contains r)
  | none => true

/-- An arm of a group waits in the sense of R42 (parked arms included); one whose register has been filled
waits no more. -/
def Group.armWaits (g : Group) (b : Bool) : Bool :=
  let a := g.arm b
  a.occ && !(a.ws == .ready || a.ws == .arriving || (a.ws == .blocked && g.unblocked b))

/-- The errors pending for an arm (R391). -/
def Group.mchecksOf (g : Group) (armB : Bool) : List MCheck := g.mchecks.filter fun m => m.armB == armB

/-- The error of the oldest instruction, and of it that of the lowest lane (R391). -/
def oldestMcheck : List MCheck → Option MCheck
  | [] => none
  | m :: rest =>
    match oldestMcheck rest with
    | some x =>
      if x.issued.toNat < m.issued.toNat ∨ (x.issued = m.issued ∧ x.lane < m.lane) then some x else some m
    | none => some m

/-- A group waits when no arm of it can issue, as when fradb holds it (R42, R356). -/
def Group.waits (g : Group) : Bool :=
  g.hold || (!g.armA.occ || g.armWaits false || g.halted) && (!g.armB.occ || g.armWaits true || g.halted)

/-! ### Threads -/

/-- Every thread of the device; the idle focus is none. -/
def State.threads (s : State) : List Group :=
  if s.cur.tid = 0 then s.others else s.cur :: s.others

/-- The thread with an id. -/
def State.thread (s : State) (tid : Nat) : Option Group := s.threads.find? fun g => g.tid == tid

/-- A change of the thread with an id. -/
def State.modThread (s : State) (tid : Nat) (f : Group → Group) : State :=
  if s.cur.tid = tid then { s with cur := f s.cur }
  else { s with others := s.others.map fun g => if g.tid = tid then f g else g }

/-- A change of the thread that has the turn. -/
def State.modCur (s : State) (f : Group → Group) : State := { s with cur := f s.cur }

/-- The turn given to an arm of a thread; no change when there is no such thread. -/
def State.focus (s : State) (tid : Nat) (armB : Bool) : State :=
  if s.cur.tid = tid then { s with cur := { s.cur with sel := armB } }
  else
    match takeOut (fun g => g.tid == tid) s.others with
    | some (g, rest) =>
      { s with
        cur := { g with sel := armB }
        others := if s.cur.tid = 0 then rest else s.cur :: rest }
    | none => s

/-- The thread removed; the focus becomes idle when it was the thread. -/
def State.dropThread (s : State) (tid : Nat) : State :=
  if s.cur.tid = tid then { s with cur := .idle }
  else { s with others := s.others.filter fun g => !(g.tid == tid) }

/-- Thread id of a sequencer. -/
def seqTid (cl : Nat) : Nat := 2 ^ 64 + cl

/-- The resident or saved group of a name. -/
def State.groupOf (s : State) (name : Nat) : Option Group :=
  s.threads.find? fun g => g.tid == name && g.seq.isNone

/-! ### Places on the device -/

/-- Core number die × 96 + y × 8 + x (R69). -/
def CoreLoc.core (l : CoreLoc) : Nat := l.die * 96 + l.y * 8 + l.x

/-- Cluster number die × 24 + cy × 4 + cx, the bit of PLACESET (R7, R23). -/
def CoreLoc.cluster (l : CoreLoc) : Nat := l.die * 24 + l.y / 2 * 4 + l.x / 2

/-- The scheduler of a slot: slots 0 to 7 and 8 to 15. -/
def CoreLoc.sched (l : CoreLoc) : Nat := l.slot / 8

/-- The die of a thread: its core's, or its cluster's. -/
def Group.die (g : Group) : Nat :=
  match g.seq with
  | some cl => cl / 24
  | none => g.loc.die

/-- The cluster of a thread. -/
def Group.cluster (g : Group) : Nat :=
  match g.seq with
  | some cl => cl
  | none => g.loc.cluster

/-- A cluster. -/
def State.cluster (s : State) (cl : Nat) : Cluster := s.clusters.getD cl .reset

/-- A change of a cluster. -/
def State.modCluster (s : State) (cl : Nat) (f : Cluster → Cluster) : State :=
  { s with clusters := modAt f cl s.clusters }

/-- A compute die. -/
def State.die (s : State) (d : Nat) : Die := s.dies.getD d .reset

/-- A change of a compute die. -/
def State.modDie (s : State) (d : Nat) (f : Die → Die) : State := { s with dies := modAt f d s.dies }

/-- A memory die. -/
def State.mdie (s : State) (d : Nat) : MDie := s.mdies.getD d .reset

/-- A change of a memory die. -/
def State.modMdie (s : State) (d : Nat) (f : MDie → MDie) : State :=
  { s with mdies := modAt f d s.mdies }

/-- A number that no earlier free value was applied to. -/
def State.tick (s : State) : State := { s with fresh := s.fresh + 1 }

/-- The clock is read: an open number of cycles has passed (log 6). -/
def State.sample (s : State) : State :=
  { s with clock := s.clock + w64 (Config.extraCycles s.fresh) }.tick

/-- The arm that has the turn alone. -/
def Group.mine (g : Group) : Arms := ⟨!g.sel, g.sel⟩

/-- The thread and the arm that has the turn: who issues an operation now (R86). -/
def Group.who (g : Group) : Who := ⟨g.tid, g.mine⟩

/-- An operation stands in the program order of an arm of a thread (R86). -/
def Who.of (w : Who) (tid : Nat) (armB : Bool) : Bool := w.tid == tid && (if armB then w.arms.b else w.arms.a)

/-- An operation sent on its way. -/
def State.send (s : State) (f : Flight) : State := { s with flight := s.flight ++ [f] }

end Sys2Proof.Machine
end

