-- ==== Sys2Proof/Machine/Regions.lean ====
section
/-!
DEFINITION. The region tree: region control blocks in memory, their limits, effective values and
ancestor chains (R23 to R27).
-/

namespace Sys2Proof.Machine

/-- A field of a region control block (R23). -/
inductive RcbField where
  | maxcores | maxgroups | tokshare | prio | fdom | memquota | nsbase | nscount | swapthr | hanglog
  | det | troot | seed | hfault | hhang | hrunaway | halarm | savebase | savesize | flogbase | flogsize
  | placeset | skpool | skpooln
  deriving DecidableEq, Repr

/-- Offset, bytes and OVR bit of a field (R23). -/
def RcbField.layout : RcbField → Nat × Nat × Nat
  | .maxcores => (0x08, 2, 0)
  | .maxgroups => (0x0A, 2, 1)
  | .tokshare => (0x0C, 2, 2)
  | .prio => (0x0E, 1, 3)
  | .fdom => (0x0F, 1, 4)
  | .memquota => (0x10, 4, 5)
  | .nsbase => (0x14, 2, 6)
  | .nscount => (0x16, 2, 6)
  | .swapthr => (0x18, 4, 7)
  | .hanglog => (0x1C, 1, 8)
  | .det => (0x1D, 1, 9)
  | .troot => (0x20, 8, 10)
  | .seed => (0x28, 8, 11)
  | .hfault => (0x30, 8, 12)
  | .hhang => (0x38, 8, 13)
  | .hrunaway => (0x40, 8, 14)
  | .halarm => (0x48, 8, 15)
  | .savebase => (0x50, 8, 16)
  | .savesize => (0x58, 8, 16)
  | .flogbase => (0x60, 8, 17)
  | .flogsize => (0x68, 4, 17)
  | .placeset => (0x70, 24, 18)
  | .skpool => (0x88, 8, 19)
  | .skpooln => (0x90, 4, 19)

/-- A value between two limits. -/
def clampTo (lo hi x : Nat) : Nat := if x < lo then lo else if hi < x then hi else x

/-- A stored value read inside the limits of the table (R25). -/
def RcbField.limit (f : RcbField) (x : Nat) : Nat :=
  match f with
  | .maxcores => clampTo 1 576 x
  | .maxgroups => clampTo 1 9216 x
  | .hanglog => clampTo 16 40 x
  | .prio => satTo 7 x
  | .det => x % 2
  | .savebase => x / 4096 * 4096
  | .savesize => x / 4096 * 4096
  | .flogbase => x / 64 * 64
  | .skpool => x / 64 * 64
  | .placeset => x % 2 ^ 144
  | _ => x

/-- Address of a region's control block (R23). -/
def State.rcbAt (s : State) (r : Nat) : Nat := s.bases.rcb + r * 256

/-- A region's own value of a field (R24, R25). -/
def State.own (s : State) (r : Nat) (f : RcbField) : Nat :=
  f.limit (s.mem.rd (s.rcbAt r + f.layout.1) f.layout.2.1)

/-- PARENT of a region. -/
def State.parent (s : State) (r : Nat) : Nat := s.mem.rd (s.rcbAt r) 4

/-- The region overrides the field (R23). -/
def State.overrides (s : State) (r : Nat) (f : RcbField) : Bool :=
  bitAt (s.mem.rd (s.rcbAt r + 4) 4) f.layout.2.2

/-- A region's chain stops at it: region 0, or a break (R25). -/
def State.isTop (s : State) (r : Nat) : Bool := r == 0 || decide (r ≤ s.parent r)

/-- An overriding value combined with the parent's (R24). -/
def RcbField.combine (f : RcbField) (v p : Nat) : Nat :=
  match f with
  | .maxcores | .maxgroups | .tokshare | .memquota => if v < p then v else p
  | .prio => if v < p then p else v
  | .placeset => v &&& p
  | .det => v ||| p
  | _ => v

/-- The effective value, with the length of the chain as fuel (R24, R25). -/
def State.effFuel (s : State) (f : RcbField) : Nat → Nat → Nat
  | 0, r => s.own r f
  | k + 1, r =>
    if s.isTop r then s.own r f
    else if s.overrides r f then f.combine (s.own r f) (s.effFuel f k (s.parent r))
    else s.effFuel f k (s.parent r)

/-- EFF(r, f) (R24). -/
def State.eff (s : State) (r : Nat) (f : RcbField) : Nat := s.effFuel f r r

/-- The regions from r up to its first break or region 0 (R25), with fuel. -/
def State.chainFuel (s : State) : Nat → Nat → List Nat
  | 0, r => [r]
  | k + 1, r => if s.isTop r then [r] else r :: s.chainFuel k (s.parent r)

/-- The ancestor chain of a region, itself first (R25). -/
def State.chain (s : State) (r : Nat) : List Nat := s.chainFuel r r

/-- Region r lies in the subtree of region a (R24, R25, R55). -/
def State.inSubtree (s : State) (r a : Nat) : Bool := (s.chain r).contains a

/-- A skein record of an image has still to be imported before groups of the region resume (R176). -/
def State.importWaits (s : State) (region : Nat) : Bool := s.imports.any fun x => s.inSubtree region x.1

/-- A region's subtree is being pre-empted (R124). -/
def State.preempting (s : State) (region : Nat) : Bool := s.prectl.busy && s.inSubtree region s.prectl.region

/-- The region's groups are being saved by a pre-emption whose drain has ended: their names are MIGRATING until they are
SAVED, and no rank of it is placed (R52, R124). -/
def State.saving (s : State) (region : Nat) : Bool := s.preempting region && s.prectl.drained

/-- The chain meets a region whose PARENT is not below its own id (R25, R376 code 2). -/
def State.brokenChain (s : State) (r : Nat) : Bool :=
  (s.chain r).any fun x => x != 0 && decide (x ≤ s.parent x)

/-- The effective values a group takes from its region at its start (R27). -/
def State.effVals (s : State) (r : Nat) (launchDet : Bool) : EffVals where
  troot := s.eff r .troot
  seed := w64 (s.eff r .seed)
  det := launchDet || s.eff r .det == 1
  swapthr := s.eff r .swapthr
  placeset := s.eff r .placeset

end Sys2Proof.Machine
end

