-- ==== Sys2Proof/Machine/Store.lean ====
section
/-!
DEFINITION. Reads and writes at a place: device memory with its watched words, dirty lines and damaged
lines, host and peer memory, weight stores, scratchpads (R2, R90, R101, R185, R392).
-/

namespace Sys2Proof.Machine

/-- A sector's physical range: 288 GiB (R76). -/
def sectorSize : Nat := 0x4800000000

/-- The home sector of a device address (R16). -/
def sectorOf (pa : Nat) : Nat := pa / sectorSize

/-- The place n bytes on. -/
def Place.plus (p : Place) (n : Nat) : Place :=
  match p with
  | .dev pa => .dev (pa + n)
  | .host port pa => .host port (pa + n)
  | .peer q pa => .peer q (pa + n)
  | .weight die off => .weight die (off + n)
  | .spad tid off => .spad tid (off + n)
  | .removed q pa => .removed q (pa + n)

/-- A word of device memory lies in an installed watch's range (R183, R185). -/
def State.watched (s : State) (pa : Nat) : Bool :=
  s.watches.any fun w => w.parts.any fun (a, l, _) => decide (a ≤ pa) && decide (pa < a + l)

/-- A line is on its home's damaged-line list (R392). -/
def State.damaged (s : State) (pa : Nat) : Bool :=
  (s.mdie (sectorOf pa)).damaged.contains (pa / 64 * 64)

/-- The line leaves the damaged-line list: one operation wrote all of it (R392). -/
def State.clearDamage (s : State) (line : Nat) : State :=
  s.modMdie (sectorOf line) fun d => { d with damaged := d.damaged.filter fun x => !(x == line) }

/-- Entries of a memory die's damaged-line list (R392). -/
def damageList : Nat := 1024

/-- The damaged-line list of the line's home has no room for it (R392). -/
def State.damageFull (s : State) (line : Nat) : Bool :=
  !s.damaged line && decide (damageList ≤ (s.mdie (sectorOf line)).damaged.length)

/-- The line enters the damaged-line list of its home while the list has room (R392). -/
def State.listDamage (s : State) (line : Nat) : State :=
  if s.damaged line || s.damageFull line then s
  else s.modMdie (sectorOf line) fun d => { d with damaged := line :: d.damaged }

/-- The line has a value that LPDDR does not hold yet; what LPDDR holds is kept (R101, R293). -/
def State.noteDirty (s : State) (pa : Nat) : State :=
  let line := pa / 64 * 64
  if s.dirty.any (fun e => e.1 == line) then s
  else { s with dirty := (line, s.mem.bytes line 64) :: s.dirty }

/-- The watched words among the words that a write of n bytes covers, reported to their home with the
values before and after (R185). -/
def watchNotes (s : State) (after : Memory) (pa : Nat) : Nat → List Flight
  | 0 => []
  | k + 1 =>
    let w := pa / 4 * 4
    (if s.watched w then [Flight.watchedWrite w (w32 (s.mem.rd w 4)) (w32 (after.rd w 4))] else [])
      ++ watchNotes s after (w + 4) k

/-- A write of n bytes, in one word or an aligned doubleword, to device memory. -/
def State.storeDev (s : State) (pa n v : Nat) : State :=
  let s1 := s.noteDirty pa
  let after := s.mem.wr pa n v
  { s1 with
    mem := after
    flight := s1.flight ++ (if s.watches.isEmpty then [] else watchNotes s after pa ((n + 3) / 4)) }

/-- The place is another machine's memory. -/
def Place.away : Place → Bool
  | .host _ _ | .peer _ _ => true
  | _ => false

/-- A Porruter port. -/
def State.link (s : State) (p : Nat) : Link := s.links.getD p .reset

/-- A peer-table entry. -/
def State.peer (s : State) (q : Nat) : Peer := s.peers.getD q ⟨false, 0, 0, 0⟩

/-- The peer's entry is valid and a port of its mask is up (R194, R195). -/
def State.peerUp (s : State) (q : Nat) : Bool :=
  (s.peer q).valid && (List.range 24).any fun p => (s.peer q).ports.getLsbD p && (s.link p).up

/-- A port that faces the host tray is up, and its host is not lost (R398, R415, R416). -/
def State.trayUp (s : State) (h : Nat) : Bool :=
  !s.lostHosts.contains h && s.links.any fun l => l.up && l.peer.isNone && l.host == h

/-- The host behind a port can be reached, over the port or another that faces the same tray (R415). -/
def State.hostAt (s : State) (p : Nat) : Bool := (s.link p).peer.isNone && s.trayUp (s.link p).host

/-- Key of a peer's address in peer memory. -/
def peerKey (p pa : Nat) : Nat := p * 2 ^ 57 + pa

/-- Key of a weight-store offset. -/
def weightKey (die off : Nat) : Nat := die * 2 ^ 28 + off

/-- The little-endian number of n bytes at a place. -/
def State.loadAt (s : State) (p : Place) (n : Nat) : Nat :=
  match p with
  | .dev pa => s.mem.rd pa n
  | .host _ pa => s.hostMem.rd pa n
  | .peer q pa => s.peerMem.rd (peerKey q pa) n
  | .weight die off => s.weights.rd (weightKey die off) n
  | .spad tid off =>
    match s.thread tid with
    | some g => g.spad.rd off n
    | none => 0
  | .removed _ _ => 0

/-- A write of n bytes at a place. -/
def State.storeAt (s : State) (p : Place) (n v : Nat) : State :=
  match p with
  | .dev pa => if (s.mdie (sectorOf pa)).fenced then s else s.storeDev pa n v
  | .host p pa => if s.hostAt p then { s with hostMem := s.hostMem.wr pa n v } else s
  | .peer q pa =>
    if s.peerUp q then { s with peerMem := s.peerMem.wr (peerKey q pa) n v } else s
  | .weight die off => { s with weights := s.weights.wr (weightKey die off) n v }
  | .removed _ _ => s
  | .spad tid off =>
    s.modThread tid fun g =>
      { g with
        spad := g.spad.wr off n v
        bad := g.bad.filter fun (k, w, _) => !(k == 4 && w == off / 4 && 4 ≤ n) }

/-- The memory of a place with the key of the place in it. -/
def State.memOf (s : State) (p : Place) : Memory × Nat :=
  match p with
  | .dev pa => (s.mem, pa)
  | .host _ pa => (s.hostMem, pa)
  | .peer q pa => (s.peerMem, peerKey q pa)
  | .weight die off => (s.weights, weightKey die off)
  | .spad _ _ | .removed _ _ => (.empty, 0)

/-- The memory of a place replaced. -/
def State.setMemOf (s : State) (p : Place) (m : Memory) : State :=
  match p with
  | .dev _ => { s with mem := m }
  | .host _ _ => { s with hostMem := m }
  | .peer _ _ => { s with peerMem := m }
  | .weight _ _ => { s with weights := m }
  | .spad _ _ | .removed _ _ => s

/-- A weight-store word with an uncorrectable error, or in a damaged bank (R395). -/
def State.weightBad (s : State) (die off : Nat) : Bool :=
  (s.die die).badBanks.getLsbD (off / 256 % 32) || (s.die die).badWords.contains (off / 4 * 4)

/-- MCHECK DETAIL that a read of the place meets in the data: a damaged line, a fenced die (R422), a damaged weight bank
(R392, R395), a peer that is gone (R390), a host that cannot be reached (R415, R416). -/
def State.readErr (s : State) (p : Place) : Option Nat :=
  match p with
  | .dev pa => if s.damaged pa || (s.mdie (sectorOf pa)).fenced then some 1 else none
  | .weight die off => if s.weightBad die off then some 6 else none
  | .removed _ _ => some 2
  | .peer q _ => if s.peerUp q then none else some 2
  | .host p _ => if s.hostAt p then none else some 3
  | _ => none

/-- A scratchpad word with an uncorrectable error (R393). -/
def State.spadBad (s : State) (p : Place) : Bool :=
  match p with
  | .spad tid off =>
    match s.thread tid with
    | some g => g.bad.any fun (k, w, _) => k == 4 && w == off / 4
    | none => false
  | _ => false

/-- A structure the device itself writes in device memory, n bytes at a time. -/
def State.pokeN (s : State) (a n v : Nat) : State := s.storeDev a n v

end Sys2Proof.Machine
end

