-- ==== Sys2Proof/Machine/Records.lean ====
section
/-!
DEFINITION. The records that the homes keep in device memory and cache: name trees and entries (R49 to R52,
R54, R399, R406), joiner and waiter records (R61, R178), skein records (R168, R169, R404, R406).
-/

namespace Sys2Proof.Machine

/-! ### Fields of records -/

/-- A number as n little-endian bytes at an offset: offset, bytes, value. -/
abbrev HField := Nat × Nat × Nat

/-- Fields written from an address on. -/
def writeFields (m : Memory) (a : Nat) (fs : List HField) : Memory :=
  fs.foldl (fun m (o, n, v) => m.wr (a + o) n v) m

/-- Fields written by the device into its own memory. -/
def State.putFields (s : State) (a : Nat) (fs : List HField) : State := { s with mem := writeFields s.mem a fs }

/-- The number that names a register in a record (R61, R45). -/
def RegId.num : RegId → Nat
  | .s n => n
  | .b _ n => n
  | .v n => n
  | .p n => n

/-! ### Joiner and waiter records (R61, R178) -/

/-- Joiner records that the pool still holds. -/
def State.joinerFree (s : State) : Nat := s.bases.jpoolCount - s.joinUsed.length

/-- Address of a joiner record. -/
def State.joinerAt (s : State) (rec : Nat) : Nat := s.bases.jpool + rec * 32

/-- The record that the pool gives next: the lowest not in use (log 20). -/
def State.nextJoiner (s : State) : Nat := (lowestFree s.joinUsed (s.joinUsed.length + 1) 0).getD 0

/-- The reply word of a group's record: bit 0 the arm, bits 7:1 the register (R61). -/
def replyWord (w : Who) (r : RegId) : Nat :=
  (match r with
    | .b armB _ => if armB then 1 else 0
    | _ => if w.arms.b && !w.arms.a then 1 else 0) + r.num * 2

/-- A record taken from the pool and written with no successor. -/
def State.takeJoiner (s : State) (name reply : Nat) : State :=
  ({ s with joinUsed := s.nextJoiner :: s.joinUsed }).putFields (s.joinerAt s.nextJoiner)
    [(0, 8, name), (8, 8, reply), (0x10, 8, 0), (0x18, 8, 0)]

/-- The records of a list, each linked to the next (R61). -/
def State.linkJoiners (s : State) : List Nat → State
  | [] => s
  | [r] => s.putFields (s.joinerAt r) [(0x10, 8, 0)]
  | r :: q :: rest => (s.putFields (s.joinerAt r) [(0x10, 8, s.joinerAt q)]).linkJoiners (q :: rest)

/-- Records returned to the pool. -/
def State.freeJoiners (s : State) (rs : List Nat) : State :=
  { s with joinUsed := s.joinUsed.filter fun r => !rs.contains r }

/-- Address of the first record of a list, 0 where it is empty. -/
def State.joinHead (s : State) : List Nat → Nat
  | [] => 0
  | r :: _ => s.joinerAt r

/-- The records of a list in memory, from an address on: number, name, reply. -/
def State.readJoiners (s : State) : Nat → Nat → List (Nat × Nat × Nat)
  | 0, _ => []
  | k + 1, a =>
    if a = 0 then []
    else ((a - s.bases.jpool) / 32, s.mem.rd a 8, s.mem.rd (a + 8) 8) :: s.readJoiners k (s.mem.rd (a + 0x10) 8)

/-- The register and the arm of a reply word. -/
def replyReg (x : Nat) : RegId := .ofS (bitAt x 0) (bitsOf x 7 1)

/-- A group that a record names, with the arm of its reply word. -/
def replyWho (name x : Nat) : Who := ⟨name, ⟨!bitAt x 0, bitAt x 0⟩⟩

/-- The joiner of a record: a record that names nobody is a host's (log 43). -/
def joinerOf (x : Nat × Nat × Nat) : Joiner :=
  if x.2.1 = 0 then .host x.1 (if x.2.2 = 0 then none else some x.2.2) else .group x.1 (replyWho x.2.1 x.2.2) (replyReg x.2.2)

/-- The record of a joiner. -/
def Joiner.record : Joiner → Nat
  | .group r _ _ => r
  | .host r _ => r

/-! ### Name trees (R49, R50, R399) -/

/-- The name space of a name. -/
def nameSpace (name : Nat) : Nat := name / 2 ^ 48
/-- The serial of a name. -/
def nameSerial (name : Nat) : Nat := name % 2 ^ 48

/-- What a pointer or a walk of a tree leads to. -/
inductive NodeEnd where
  | at (a : Nat)
  | absent
  /-- an uncorrectable error, or a misaligned pointer, at an address (R399) -/
  | bad (a : Nat)
  deriving DecidableEq, Repr

/-- The node that the pointer at an address leads to (R50); in_ is the node that holds the pointer. -/
def State.namePtr (s : State) (in_ at_ : Nat) (leaf : Bool) : NodeEnd :=
  let p := s.mem.rd at_ 8
  let size := if leaf then 2 ^ 17 else 2 ^ 15
  if s.damaged at_ then .bad in_
  else if p % 2 = 0 then .absent
  else if p % size ≠ 1 then .bad (p / size * size)
  else .at (p / size * size)

/-- The levels of a tree from a node on: the entry's address (R50). -/
def State.nameFrom (s : State) (serial : Nat) : List (Nat × Nat) → Nat → NodeEnd
  | [], leaf => .at (leaf + serial % 4096 * 32)
  | l :: rest, node =>
    match s.namePtr node (node + bitsOf serial l.1 l.2 * 8) rest.isEmpty with
    | .at n => s.nameFrom serial rest n
    | e => e

/-- Where the tree of its space holds a name's entry (R50). -/
def State.nameAt (s : State) (name : Nat) : NodeEnd :=
  match s.namePtr (s.bases.ns + nameSpace name * 8) (s.bases.ns + nameSpace name * 8) false with
  | .at root => s.nameFrom (nameSerial name) [(47, 36), (35, 24), (23, 12)] root
  | e => e

/-! ### Name entries (R51, R54, R406) -/

/-- STATE of CTRL (R51). -/
def NState.code : NState → Nat
  | .free => 0 | .resident => 1 | .saved => 2 | .migrating => 3 | .host => 4 | .dead => 5

/-- The state of a STATE field; 6 and 7 are reserved. -/
def NState.ofCode (n : Nat) : Option NState :=
  [NState.free, .resident, .saved, .migrating, .host, .dead][n]?

/-- A name that translates as absent (R50). -/
def NameEntry.free (name : Nat) : NameEntry :=
  ⟨name, .free, 0, 0, false, 0, 0, 0, 0, 0, [], 0, false⟩

/-- An entry that the name home cannot use (R399). -/
def NameEntry.bad (name : Nat) : NameEntry := { NameEntry.free name with damaged := true }

/-- The 32 bytes of an entry (R51). -/
def State.entryFields (s : State) (e : NameEntry) : List HField :=
  [(0, 8, e.loc),
   (8, 4, e.state.code + fieldAt e.rights 4 4 + (if e.all then 256 else 0) + fieldAt e.gen 16 16),
   (0xC, 2, e.owner), (0xE, 2, e.grantee), (0x10, 4, e.pending.toNat), (0x14, 4, e.exitval.toNat),
   (0x18, 8, s.joinHead (e.joiners.map Joiner.record))]

/-- The name port of a HOST entry that only memory holds: the lowest one bound to the entry's OWNER (log 43). -/
def State.portOf (s : State) (owner : Nat) : Nat :=
  match s.ports.find? fun p => p.region == owner with
  | some p => p.id
  | none => 0

/-- The entry at an address (R51, R399). -/
def State.readEntry (s : State) (name a : Nat) : NameEntry :=
  let f (o n : Nat) : Nat := s.mem.rd (a + o) n
  let ctrl := f 8 4
  match NState.ofCode (bitsOf ctrl 2 0) with
  | some st =>
    if s.damaged a then .bad name
    else
      { name := name, state := st, loc := f 0 8, rights := bitsOf ctrl 7 4, all := bitAt ctrl 8
        gen := bitsOf ctrl 31 16, owner := f 0xC 2, grantee := f 0xE 2, pending := w32 (f 0x10 4)
        exitval := w32 (f 0x14 4)
        joiners := (s.readJoiners (s.bases.jpoolCount + 1) (f 0x18 8)).map joinerOf
        port := s.portOf (f 0xC 2), damaged := false }
  | none => .bad name

/-- The entry as the trees in memory hold it. -/
def State.treeEntry (s : State) (name : Nat) : NameEntry :=
  match s.nameAt name with
  | .at a => s.readEntry name a
  | .absent => .free name
  | .bad _ => .bad name

/-- The entry of a name: serial 0 is absent; the name home's cached copy is authoritative (R49, R54,
R406). -/
def State.nameEntry (s : State) (name : Nat) : NameEntry :=
  if nameSerial name = 0 then .free name
  else
    match s.names.find? (fun e => e.name == name) with
    | some e => e
    | none => s.treeEntry name

/-- The address that a device event about a name's entry gives: the entry's, or the node's (R399). -/
def State.entryAt (s : State) (name : Nat) : Nat :=
  match s.nameAt name with
  | .at a => a
  | .bad a => a
  | .absent => 0

/-- Entries that the name home caches (R54). -/
def nameCache : Nat := 8192

/-- The name home can write the entry back: its tree has a leaf for it, and memory holds all of it; HOST
entries, entries with joiners and damaged ones stay (log 43). -/
def State.evictable (s : State) (e : NameEntry) : Bool :=
  e.state != .host && e.joiners.isEmpty && !e.damaged && (match s.nameAt e.name with
    | .at _ => true
    | _ => false)

/-- An entry is written back and leaves the cache (R54, R406). -/
def State.evictName (s : State) : State :=
  match takeOut s.evictable s.names with
  | some (e, rest) =>
    match s.nameAt e.name with
    | .at a => ({ s with names := rest }).putFields a (s.entryFields e)
    | _ => s
  | none => s

/-- An entry replaced in the name home's cache, which a full cache makes room for. -/
def State.setName (s : State) (e : NameEntry) : State :=
  if s.names.any (fun x => x.name == e.name) then
    { s with names := s.names.map fun x => if x.name = e.name then e else x }
  else
    let s1 := if s.names.length < nameCache then s else s.evictName
    { s1 with names := s1.names ++ [e] }

/-! ### Skein records (R168, R169, R404, R406) -/

/-- A record that was never allocated. -/
def Skein.free (oid : Nat) : Skein :=
  ⟨oid, false, 0, 0, 0, false, false, 0, none, 0, 0, [], false⟩

/-- Address of a record (R167). -/
def State.skeinAt (s : State) (oid : Nat) : Nat := s.bases.skein + oid * 64

/-- FIN of a record: the physical address; beside it HOME at bit 48, and HOSTMEM at bit 56, where it is not this
device's (R76, R168, log 43). -/
def finWord : Option Place → Nat
  | some (.dev pa) => pa
  | some (.host x pa) => pa + x * 2 ^ 48 + 2 ^ 56
  | some (.peer q pa) => pa + (q + 0x80) * 2 ^ 48
  | _ => 0

/-- The place that a FIN word names. -/
def finPlace (x : Nat) : Option Place :=
  if x = 0 then none
  else if bitAt x 56 then some (.host (bitsOf x 55 48) (x % 2 ^ 48))
  else if 0x80 ≤ bitsOf x 55 48 then some (.peer (bitsOf x 55 48 - 0x80) (x % 2 ^ 48))
  else some (.dev x)

/-- The 64 bytes of a record (R168). -/
def State.skeinFields (s : State) (r : Skein) : List HField :=
  [(0, 1, if r.live then 1 else 0), (1, 1, r.kind % 4), (2, 2, r.gen % 2 ^ 15), (4, 2, r.region),
   (6, 2, (if r.pool then 1 else 0) + (if r.overFlag then 2 else 0)), (8, 8, r.ret),
   (0x10, 8, finWord r.fin),
   (0x18, 8, r.held.toNat), (0x20, 8, r.desc.toNat), (0x28, 8, s.joinHead (r.waiters.map (·.1))),
   (0x30, 8, 0), (0x38, 8, 0)]

/-- The record in the skein area; a reserved STATE or KIND is damage (R168, R404, R406). -/
def State.areaSkein (s : State) (oid : Nat) : Skein :=
  let a := s.skeinAt oid
  let f (o n : Nat) : Nat := s.mem.rd (a + o) n
  if s.bases.skeinCount ≤ oid then .free oid
  else
    { oid := oid, live := f 0 1 == 1, kind := f 1 1 % 4, gen := f 2 2 % 2 ^ 15, region := f 4 2
      pool := bitAt (f 6 2) 0, overFlag := bitAt (f 6 2) 1, ret := f 8 8
      fin := finPlace (f 0x10 8)
      held := w64 (f 0x18 8), desc := w64 (f 0x20 8)
      waiters := (s.readJoiners (s.bases.jpoolCount + 1) (f 0x28 8)).map fun x =>
        (x.1, replyWho x.2.1 x.2.2, replyReg x.2.2, w64 oid)
      damaged := s.damaged a || decide (1 < f 0 1) || f 1 1 % 4 == 3 }

/-- The record of an object id: the skein home's cached copy, else the area's (R169, R406). -/
def State.skein (s : State) (oid : Nat) : Skein :=
  match s.skeins.find? (fun r => r.oid == oid) with
  | some r => r
  | none => s.areaSkein oid

/-- Records that the skein home caches (R169). -/
def skeinCache : Nat := 4096

/-- A record that can be written back: no mark of damage, which memory cannot hold (R404). -/
def Skein.evictable (r : Skein) : Bool := !r.damaged

/-- A record is written back to the skein area and leaves the cache (R169). -/
def State.evictSkein (s : State) : State :=
  match takeOut Skein.evictable s.skeins with
  | some (r, rest) => ({ s with skeins := rest }).putFields (s.skeinAt r.oid) (s.skeinFields r)
  | none => s

/-- A record replaced in the skein home's cache, which a full cache makes room for. -/
def State.setSkein (s : State) (r : Skein) : State :=
  if s.skeins.any (fun x => x.oid == r.oid) then
    { s with skeins := s.skeins.map fun x => if x.oid = r.oid then r else x }
  else
    let s1 := if s.skeins.length < skeinCache then s else s.evictSkein
    { s1 with skeins := s1.skeins ++ [r] }

/-! ### Damage (R392, R399, R404) -/

/-- A record marked damaged at its home lies in the line. -/
def State.recordMarked (s : State) (line : Nat) : Bool :=
  (s.skeins.any fun r => r.damaged && s.skeinAt r.oid / 64 * 64 == line)
  || s.names.any fun e => e.damaged && s.entryAt e.name / 64 * 64 == line

/-- n bytes from a cover the m bytes from b. -/
def covers (a n b m : Nat) : Bool := decide (a ≤ b) && decide (b + m ≤ a + n)

/-- One operation wrote n bytes from an address: the records and entries in them that a home has marked are read
anew (R399, R404). -/
def State.unmark (s : State) (a n : Nat) : State :=
  if s.skeins.any (·.damaged) || s.names.any (·.damaged) then
    { s with
      skeins := s.skeins.filter fun r => !(r.damaged && covers a n (s.skeinAt r.oid) 64)
      names := s.names.filter fun e => !(e.damaged && covers a n (s.entryAt e.name) 32) }
  else s

/-- The first bytes of the lines that lie whole in n bytes from an address. -/
def wholeLines (a n : Nat) : List Nat :=
  let lo := (a + 63) / 64
  (List.range ((a + n) / 64 - lo)).map fun i => (lo + i) * 64

/-- One operation wrote n bytes from an address: its whole lines leave the damaged-line lists, and the records in it
that a home marked are read anew (R392, R399, R404). -/
def State.rewritten (s : State) (a n : Nat) : State :=
  ((wholeLines a n).foldl (fun s l => if s.damaged l then s.clearDamage l else s) s).unmark a n

end Sys2Proof.Machine
end

