-- ==== Sys2Proof/Machine/Handover.lean ====
section
/-!
DEFINITION. Submission-queue descriptors, and the handover area in which active firmware keeps the hub's state
(R106, R107, R197).
-/

namespace Sys2Proof.Machine

/-- The submission queues (R106). -/
def queueCount : Nat := 1024

/-- Address of a queue's descriptor (R106). -/
def State.sqAt (s : State) (q : Nat) : Nat := s.bases.sq + q * 32

/-- SIZE of a queue; 0 disables it (R106). -/
def State.qSize (s : State) (q : Nat) : Nat := s.mem.rd (s.sqAt q + 8) 4

/-- HEAD of a queue. -/
def State.qHead (s : State) (q : Nat) : Nat := s.mem.rd (s.sqAt q + 0x10) 4

/-- T of a queue: the last accepted tail, HEAD where none was since firmware enabled the queue (R107). -/
def State.qTail (s : State) (q : Nat) : Nat :=
  match s.queueTails.find? (fun x => x.1 == q) with
  | some x => x.2
  | none => s.qHead q

/-- The cells outside n bytes. -/
def Memory.clear (m : Memory) (a n : Nat) : Memory :=
  ⟨m.cells.filter fun c => !(decide (a ≤ c.1) && decide (c.1 < a + n))⟩

/-- The fields of the handover area that are not zero: its head, and QSTATE of the queues in use (R197). -/
def State.handoverFields (s : State) (seq : Nat) : List HField :=
  let b := s.bases
  [(0, 4, seq), (4, 2, 1), (6, 1, s.owner), (8, 8, s.epoch), (0x10, 8, b.sq), (0x18, 8, b.db),
    (0x20, 8, b.rcb), (0x28, 8, b.ns), (0x30, 8, b.skein), (0x38, 8, b.jpool), (0x40, 8, b.rt),
    (0x48, 4, b.skeinCount), (0x50, 8, b.wl)]
  ++ (List.range queueCount).filterMap fun q =>
    let x := s.qHead q + s.qTail q * 2 ^ 32
    if x = 0 then none else some (0x100 + q * 8, 8, x)

/-- Active firmware rewrites the handover area, 64 KiB with its reserved bytes zero; SEQ was odd meanwhile and is
even again. With no complex active the rewrite waits until one is (R197, R418, R419). -/
def State.handover (s : State) : State :=
  let seq := (s.handoverSeq + 2) % 2 ^ 32
  if !s.complexes.any (·.active) then s
  else { s with
    handoverSeq := seq
    mem := writeFields (s.mem.clear s.bases.handover 65536) s.bases.handover (s.handoverFields seq) }

/-! ### Firmware services (R199, R418, R419) -/

/-- The change enters the state table and the standby's mirror before firmware acts on it (R418). -/
def State.commit (s : State) (change : List Nat) : State :=
  let t : StateTable := match s.stateTable with
    | some t => { t with changes := t.changes ++ [change] }
    | none => ⟨match s.complexes.find? (·.active) with
        | some c => c.version
        | none => 0, [change]⟩
  { s with
    stateTable := some t
    complexes := s.complexes.map fun c => if c.up && !c.active then { c with mirror := some t } else c }

/-- Firmware serves requests: a complex is active (R418, R419). -/
def State.served (s : State) : Bool := s.complexes.any (·.active)

/-- A request of firmware that waits for an active complex, with what it was asked (R418). -/
def State.keepRequest (s : State) (i : Sys2Proof.Instr) (ev : List Nat) : State :=
  { s with fwWait := s.fwWait ++ [.event i ev] }

/-- A request to a service of firmware, by number: made with its change committed, or, with no complex active, kept
until one is (R418, R419). -/
def State.service (s : State) (n : Nat) (i : Sys2Proof.Instr) (body : State → State) : State :=
  if s.served then body (s.commit (n :: s.ev)) else s.keepRequest i s.ev

/-- A complex is active again: the requests that waited come next, in their order (R418). -/
def State.resumeServices (s : State) : State := { s with agenda := s.fwWait ++ s.agenda, fwWait := [] }

/-- n bytes at an address meet the descriptors (R106). -/
def State.meetsQueues (s : State) (a n : Nat) : Bool :=
  decide (a < s.bases.sq + queueCount * 32) && decide (s.bases.sq < a + n)

/-- After a write to the descriptors: a queue that is disabled forgets its tail, so that T is HEAD when firmware
enables it, and the handover area is rewritten (R107, R197). -/
def State.queuesChanged (s : State) (a n : Nat) : State :=
  if s.meetsQueues a n then
    { s with queueTails := s.queueTails.filter fun x => s.qSize x.1 != 0 }.handover
  else s

end Sys2Proof.Machine
end

