-- ==== Sys2Proof/Machine/Order.lean ====
section
/-!
DEFINITION. Operations under way by class and by the arm in whose program order they stand (R86, R93), and
what a split and a merge make of that order.
-/

namespace Sys2Proof.Machine

/-! ### Classes (R93) -/

/-- The group that issued a name operation, with the arms whose order it stands in. -/
def NameOp.who (op : NameOp) : Option Who :=
  match op.src with
  | .group tid => some ⟨tid, op.arms⟩
  | _ => none

/-- The operation is a JOIN of a group. -/
def NKind.isJoin : NKind → Bool
  | .join _ => true
  | _ => false

/-- An operation in flight of class R, and who issued it. -/
def Flight.asR : Flight → Option Who
  | .load w _ _ _ | .atomic w _ _ _ | .trd w _ => some w
  | _ => none

/-- An operation in flight of class W, and who issued it. -/
def Flight.asW : Flight → Option Who
  | .store w _ | .atomic w _ _ _ | .maint w => some w
  | .redApply c => some c.who
  | _ => none

/-- An outgoing event that has not been acknowledged: class O, HBIND with it (R93, R317). -/
def Flight.asO : Flight → Option Who
  | .ack w _ _ | .post w _ _ | .skeinBind w _ _ => some w
  | .skeinDrop w _ _ => w
  | .nameOp op => if op.kind.isJoin then none else op.who
  | _ => none

/-- An incoming event that has not completed: class I. -/
def Flight.asI : Flight → Option Who
  | .joinValue w _ _ | .scopewAttach w _ _ _ | .scopewDone w _ _ | .takeItem w _ _ _ | .msig w _ _ _ => some w
  | .nameOp op => if op.kind.isJoin then op.who else none
  | _ => none

/-- Some operation of a list stands in an arm's program order. -/
def Option.inOrder (w : Option Who) (tid : Nat) (armB : Bool) : Bool :=
  match w with
  | some w => w.of tid armB
  | none => false

/-- A copy of a thread. -/
def Flight.isCopy (tid : Nat) : Flight → Bool
  | .copy t _ => t == tid
  | _ => false

/-- An MREQ that has not filled its token register, of the requesters that satisfy a test (R93). -/
def State.mreqWhere (s : State) (p : Who → Bool) : Bool :=
  (s.clusters.any fun c => (c.running && !c.msigDone && p c.req.who) || c.resv.any fun r => !r.bind && p r.who)
  || s.clusterRecs.any (fun x =>
      (x.unit.running && !x.unit.msigDone && p x.unit.req.who) || x.unit.resv.any fun r => !r.bind && p r.who)
  || s.flight.any fun f => match f with
    | .msig w _ _ _ => p w
    | _ => false

/-- A JOIN whose target has not ended: its joiner record names the arm (R61). -/
def State.joinPending (s : State) (tid : Nat) (armB : Bool) : Bool :=
  s.names.any fun n => n.joiners.any fun j => match j with
    | .group _ w _ => w.of tid armB
    | .host _ _ => false

/-- An operation of the class in the name home's hold buffer stands in an arm's program order (R62). -/
def State.held (s : State) (join : Bool) (tid : Nat) (armB : Bool) : Bool :=
  s.hold.any fun op => op.kind.isJoin == join && Option.inOrder op.who tid armB

/-- Some earlier operation of the arm in the classes is not complete (R93): bits I 3, O 2, R 1, W 0; with
eng every copy and MREQ of its group. -/
def State.outstanding (s : State) (tid : Nat) (armB : Bool) (pred : Nat) (eng : Bool) : Bool :=
  (bitAt pred 0 && ((s.flight.any fun f => Option.inOrder f.asW tid armB)
    || (s.abuf ++ s.redq).any fun c => c.who.of tid armB))
  || (bitAt pred 1 && s.flight.any fun f => Option.inOrder f.asR tid armB)
  || (bitAt pred 2 && ((s.flight.any fun f => Option.inOrder f.asO tid armB) || s.held false tid armB
    || s.plq.any fun q => q.who.of tid armB))
  || (bitAt pred 3 && ((s.flight.any fun f => Option.inOrder f.asI tid armB) || s.held true tid armB
    || s.joinPending tid armB || s.mreqWhere fun w => w.of tid armB))
  || (eng && (s.flight.any (Flight.isCopy tid) || s.mreqWhere fun w => w.tid == tid))

/-! ### Splits and merges (R86) -/

/-- A change of who issued an operation in flight. -/
def Flight.mapWho (f : Who → Who) : Flight → Flight
  | .load w a b c => .load (f w) a b c
  | .atomic w a b c => .atomic (f w) a b c
  | .store w a => .store (f w) a
  | .maint w => .maint (f w)
  | .ack w a b => .ack (f w) a b
  | .joinValue w a b => .joinValue (f w) a b
  | .skeinDrop w a b => .skeinDrop (w.map f) a b
  | .skeinBind w a b => .skeinBind (f w) a b
  | .scopewAttach w a b c => .scopewAttach (f w) a b c
  | .scopewDone w a b => .scopewDone (f w) a b
  | .takeItem w a b c => .takeItem (f w) a b c
  | .post w a b => .post (f w) a b
  | .msig w a b c => .msig (f w) a b c
  | .trd w a => .trd (f w) a
  | .redApply c => .redApply { c with who := f c.who }
  | .nameOp op => .nameOp (match op.who with
    | some w => { op with arms := (f w).arms }
    | none => op)
  | x => x

/-- A change of who a joiner record names. -/
def Joiner.mapWho (f : Who → Who) : Joiner → Joiner
  | .group r w x => .group r (f w) x
  | j => j

/-- A change of who issued an operation of the hold buffer. -/
def NameOp.mapWho (f : Who → Who) (op : NameOp) : NameOp :=
  match op.who with
  | some w => { op with arms := (f w).arms }
  | none => op

/-- A change of the requester of a reservation. -/
def Resv.mapWho (f : Who → Who) (r : Resv) : Resv := { r with who := f r.who }

/-- A change of the requesters of a cluster. -/
def Cluster.mapWho (f : Who → Who) (c : Cluster) : Cluster :=
  { c with req := c.req.mapWho f, resv := c.resv.map (Resv.mapWho f) }

/-- A change of who issued, in everything under way. -/
def State.mapWho (s : State) (f : Who → Who) : State :=
  { s with
    flight := s.flight.map (Flight.mapWho f)
    hold := s.hold.map (NameOp.mapWho f)
    abuf := s.abuf.map fun c => { c with who := f c.who }
    redq := s.redq.map fun c => { c with who := f c.who }
    plq := s.plq.map fun q => { q with who := f q.who }
    names := s.names.map fun e => { e with joiners := e.joiners.map (Joiner.mapWho f) }
    skeins := s.skeins.map fun r => { r with waiters := r.waiters.map fun (n, w, x) => (n, f w, x) }
    clusters := s.clusters.map (Cluster.mapWho f)
    clusterRecs := s.clusterRecs.map fun x => { x with unit := x.unit.mapWho f } }

/-- What precedes the split of arm b precedes both arms (R86). -/
def State.splitOrder (s : State) (tid : Nat) (b : Bool) : State :=
  s.mapWho fun w =>
    if w.tid = tid then
      { w with arms := if b then ⟨w.arms.b, w.arms.b⟩ else ⟨w.arms.a, w.arms.a⟩ }
    else w

/-- After a merge arm b follows what either arm issued (R86). -/
def State.mergeOrder (s : State) (tid : Nat) (b : Bool) : State :=
  s.mapWho fun w =>
    if w.tid = tid then
      { w with arms := if b then ⟨false, w.arms.a || w.arms.b⟩ else ⟨w.arms.a || w.arms.b, false⟩ }
    else w

end Sys2Proof.Machine
end

