-- ==== Sys2Proof/Machine/Ops.lean ====
section
/-!
DEFINITION. The operations every family shares: fault records, region faults and traps (R363 to R368),
the return from a trap (R335), device events, name operations sent, values delivered to registers.
-/

namespace Sys2Proof.Machine

/-! ### Words of records -/

/-- Writes 32-bit words from an address on. -/
def State.storeWords (s : State) (a : Nat) : List Nat → State
  | [] => s
  | w :: ws => (s.storeDev a 4 w).storeWords (a + 4) ws

/-- The low and high words of a 64-bit number. -/
def words64 (x : Nat) : List Nat := [x % 2 ^ 32, x / 2 ^ 32 % 2 ^ 32]

/-- A value OR-ed into 4 bytes of device memory. -/
def State.orWord (s : State) (a v : Nat) : State := s.storeDev a 4 (s.mem.rd a 4 ||| v)

/-! ### Name operations and device events -/

/-- The subtree check of an operation where it issues: the source's region lies in the subtree of the target's
OWNER (R55). -/
def State.subtreeCheck (s : State) (region target : Nat) : Bool :=
  let e := s.nameEntry target
  e.state != .free && s.inSubtree region e.owner

/-- The device's own signal (R55): SIG 1 of R367 or SIG 0 of R80 and R387. -/
def State.deviceSig (s : State) (die region name n : Nat) : State :=
  s.send (.nameOp ⟨.device die, ⟨false, false⟩, region, name, .sig n, s.subtreeCheck region name, none, (0, 0), .home⟩)

/-- A device event in the log of a die, or of the module (die 255) (R362). -/
def State.logEvent (s : State) (kind die detail : Nat) : State :=
  { s with events := s.events ++ [⟨kind, die, detail⟩] }

/-! ### Fault records (R365 to R367) -/

/-- Kinds of fault record (R365). -/
inductive FaultKind where
  | trap | seqtrap | mcheck | hang | runaway | device | alarm | domain
  deriving DecidableEq, Repr

/-- The KIND byte. -/
def FaultKind.code : FaultKind → Nat
  | .trap => 0 | .seqtrap => 1 | .mcheck => 2 | .hang => 3 | .runaway => 4 | .device => 5
  | .alarm => 6 | .domain => 7

/-- The handler field that a kind signals (R365). -/
def FaultKind.handler : FaultKind → RcbField
  | .hang => .hhang
  | .runaway => .hrunaway
  | .alarm => .halarm
  | _ => .hfault

/-- What a fault record holds beside SEQ, FDOM and TIME (R366); tail is bytes 0x38 on. -/
structure FaultRec where
  kind : FaultKind
  region : Nat
  name : Nat
  tpc : Nat
  taddr : Nat
  tinfo : Nat
  tcause : Nat
  nstop : Nat
  loc : Nat
  tail : Nat
  deriving DecidableEq, Repr

/-- A record with the trap fields zero. -/
def FaultRec.plain (kind : FaultKind) (region name nstop loc : Nat) : FaultRec :=
  ⟨kind, region, name, 0, 0, 0, 0, nstop, loc, 0⟩

/-- FLOGHEAD of a region (R23, R367). -/
def State.flogHead (s : State) (r : Nat) : Nat := s.mem.rd (s.rcbAt r + 0x6C) 4

/-- The 16 words of a fault record (R366). -/
def State.faultWords (s : State) (f : FaultRec) : List Nat :=
  [s.flogHead f.region,
   f.kind.code + s.eff f.region .fdom * 256 + f.region % 65536 * 65536]
  ++ words64 s.clock.toNat ++ words64 f.name ++ words64 f.tpc ++ words64 f.taddr
  ++ [f.tinfo % 2 ^ 32, f.tcause % 65536 + satTo 65535 f.nstop * 65536]
  ++ words64 f.loc ++ words64 f.tail

/-- Writes a record into the region's ring and advances FLOGHEAD; a ring of no entries only advances
(R367). -/
def State.writeFault (s0 : State) (f : FaultRec) : State :=
  let s := s0.sample
  let head := s.flogHead f.region
  let size := s.eff f.region .flogsize
  let s1 := if size = 0 then s
    else s.storeWords (s.eff f.region .flogbase + head % size * 64) (s.faultWords f)
  s1.storeDev (s.rcbAt f.region + 0x6C) 4 (head + 1)

/-- Signals the region's effective handler for the kind, or logs a device event when there is none
(R367). -/
def State.signalHandler (s : State) (f : FaultRec) : State :=
  let h := s.eff f.region f.kind.handler
  if h = 0 then s.logEvent f.kind.code 255 f.region else s.deviceSig 255 f.region h 1

/-- Record and signal, without the fault domain. -/
def State.reportFault (s : State) (f : FaultRec) : State := (s.writeFault f).signalHandler f

/-- The region ids in which a test holds. -/
def regionsWhere (p : Nat → Bool) : List Nat := (List.range 65536).filter p

/-- The other regions of the fault domain of a DEVICE fault are pre-empted and get a DOMAIN record each
(R368). -/
def State.domainFault (s : State) (f : FaultRec) : State :=
  let d := s.eff f.region .fdom
  if f.kind = .device ∧ d ≠ 0 then
    let rs := regionsWhere fun r => r != f.region && s.eff r .fdom == d
    let s1 := { s with prectl := { s.prectl with queue := s.prectl.queue ++ rs } }
    rs.foldl (fun s r => s.reportFault (.plain .domain r 0 0 0)) s1
  else s

/-- A region fault: the named threads stop, the record is written, the handler signalled, the fault
domain pre-empted (R365, R368). -/
def State.regionFault (s : State) (f : FaultRec) (stops : List Nat) : State :=
  let s1 := stops.foldl (fun s tid => s.modThread tid fun g => { g with halted := true, faulted := true }) s
  (s1.reportFault f).domainFault f

/-- LOC of a group in a fault record: its core and slot as in R51. -/
def CoreLoc.word (l : CoreLoc) : Nat := l.die + (l.y * 8 + l.x) * 8 + l.slot * 1024

/-! ### Traps (R363) -/

/-- Trap causes (R334). -/
inductive Cause where
  | illegal | priv | format | empty | misalign | aperture | prot | name | handle | watch | matrix
  | barrier | mcheck | brk | soft
  deriving DecidableEq, Repr

/-- TCAUSE.CAUSE (R334). -/
def Cause.code : Cause → Nat
  | .illegal => 0 | .priv => 1 | .format => 2 | .empty => 3 | .misalign => 4 | .aperture => 5
  | .prot => 6 | .name => 7 | .handle => 8 | .watch => 9 | .matrix => 10 | .barrier => 11
  | .mcheck => 12 | .brk => 13 | .soft => 14

/-- A trap: cause, DETAIL, TADDR and TINFO (R372, R429). -/
structure Trap where
  cause : Cause
  detail : Nat
  addr : W64
  info : W32
  deriving DecidableEq, Repr

/-- A trap whose TADDR is zero. -/
def Trap.plain (cause : Cause) (detail : Nat) (info : W32) : Trap := ⟨cause, detail, 0, info⟩

/-- An ILLEGAL trap: TINFO is the head word (R372). -/
def State.illegal (s : State) (detail : Nat) : Trap := .plain .illegal detail s.ir

/-- The pair s56:s57 of the arm that has the turn: its trap entry (R363). -/
def Group.trapEntry (g : Group) : W64 :=
  pairOf (g.val32 (.b g.sel 56)) (g.val32 (.b g.sel 57))

/-- The holds of R360 that a request made end once its routine has made its MSIG. -/
def State.dropHold (s : State) (req tid : Nat) : State :=
  s.modThread tid fun g =>
    let f (a : Arm) : Arm := { a with holds := a.holds.filter fun h => !(h.req == req) }
    { g with armA := f g.armA, armB := f g.armB }

/-- The record of a trap. -/
def trapRecord (kind : FaultKind) (g : Group) (t : Trap) (tcause : W32) (nstop loc : Nat) : FaultRec :=
  ⟨kind, g.region, g.name.toNat, g.me.pc.toNat, t.addr.toNat, t.info.toNat, tcause.toNat, nstop, loc, 0⟩

/-- Every MCHECK has a record of its own kind, handled or not (R363, R365). -/
def State.logMcheck (s : State) (g : Group) (t : Trap) (tcause : W32) (loc : Nat) : State :=
  if t.cause = .mcheck then s.regionFault (trapRecord .mcheck g t tcause 0 loc) [] else s

/-- The trap taken by a group's arm (R363). -/
def State.trapGroup (s : State) (t : Trap) : State :=
  let g := s.cur
  let tc (inh : Bool) : W32 := tcauseWord t.cause.code g.sel inh t.detail
  if tcauseInh g.tcause then
    (s.regionFault (trapRecord .trap g t (tc true) 1 g.loc.word) [g.tid]).logMcheck g t (tc true) g.loc.word
  else
    let framed (inh : Bool) : State :=
      s.modCur fun g => { g with tpc := g.me.pc, taddr := t.addr, tinfo := t.info, tcause := tc inh }
    if g.trapEntry = 0 then
      ((framed false).regionFault (trapRecord .trap g t (tc false) 1 g.loc.word) [g.tid]).logMcheck g t (tc false)
        g.loc.word
    else
      ((framed true).modCur fun g => g.setPc g.trapEntry).logMcheck g t (tc true) g.loc.word

/-- A trap in a sequencer ends its routine and charges the requester's region; the engine finishes what is queued, and
then the MSIG of R148 is made (R313, R364). -/
def State.trapSeq (s : State) (cl : Nat) (t : Trap) : State :=
  let g := s.cur
  let tc : W32 := tcauseWord t.cause.code false false t.detail
  ((s.modCluster cl fun c => { c with ending := true }).regionFault (trapRecord .seqtrap g t tc 0 0) []).logMcheck g t tc 0

/-- The group's contributions in the atomic buffer start to drain (R98). -/
def State.flush (s : State) (tid : Nat) : State :=
  if s.abuf.any (fun c => c.who.tid == tid) && !s.flight.contains (.drain tid) then s.send (.drain tid)
  else s

/-- The breakpoint at an address (R355). -/
def State.breakAt (s : State) (pc : Nat) : Option BreakPt := s.fradb.breaks.find? fun b => b.addr == pc

/-- The arm that has the turn executes the instruction under its breakpoint (R357). -/
def State.passBreak (s : State) : State :=
  { s with fradb := { s.fradb with passing := (s.cur.tid, s.cur.sel) :: s.fradb.passing } }

/-- The instruction under a breakpoint in a region. -/
def BreakPt.original (b : BreakPt) (r : Nat) : Option W32 := (b.words.find? fun x => x.1 == r).map (·.2)

/-- A breakpoint counts one arrival (R357). -/
def BreakPt.arrive (b : BreakPt) : BreakPt :=
  if b.hit = 1 then { b with spent := true } else { b with hit := b.hit - 1 }

/-- Who issued a store, an atomic or a posted operation in flight (R317, R356). -/
def Flight.posted : Flight → Option Who
  | .store w _ | .atomic w _ _ _ | .ack w _ _ | .skeinBind w _ _ => some w
  | .redApply c => some c.who
  | .skeinDrop w _ _ => w
  | .nameOp op => if op.kind.isJoin then none else op.who
  | _ => none

/-- The stores, atomics and posted operations of the arm that has the turn are complete, so that fradb may
hold its group (R356). A LAUNCH is not posted (R317). -/
def State.stopReady (s : State) : Bool :=
  !((s.flight.any fun f => Option.inOrder f.posted s.cur.tid s.cur.sel)
    || ((s.abuf ++ s.redq).any fun c => c.who.of s.cur.tid s.cur.sel) || s.held false s.cur.tid s.cur.sel)

/-- fradb holds the group of the arm that has the turn, once the arm's operations are complete; until then
the arm stays stopped at its instruction (R356). -/
def State.debugHold (s : State) : State :=
  let me := (s.cur.tid, s.cur.sel)
  if s.stopReady then
    { s with
      cur := { s.cur with hold := true }
      fradb := { s.fradb with stopping := s.fradb.stopping.filter fun x => !(x == me) } }
  else
    let s1 := s.flush s.cur.tid
    if s1.fradb.stopping.contains me then s1
    else { s1 with fradb := { s1.fradb with stopping := me :: s1.fradb.stopping } }

/-- A BREAK trap that fradb takes: the arm stops for a hold, or passes (R355 to R357). -/
def State.takeBreak (s : State) : State :=
  match s.breakAt s.cur.me.pc.toNat with
  | none => s.debugHold
  | some b =>
    if b.spent then s.passBreak
    else if b.hit = 0 then s.debugHold
    else
      let counted (s : State) : State := { s with fradb := { s.fradb with
        breaks := s.fradb.breaks.map fun x => if x.addr = b.addr then x.arrive else x } }
      if b.hit = 1 then (counted s).debugHold else counted s.passBreak

/-- The arm that has the turn leaves its instruction: it passes no breakpoint any more, and a step of
fradb ends: the arm stops (R355, R356). -/
def State.debugStop (s : State) : State :=
  if s.fradb.stepping.isEmpty && s.fradb.passing.isEmpty then s
  else
    let me := (s.cur.tid, s.cur.sel)
    let stepped := s.fradb.stepping.contains me
    { s with
      fradb := { s.fradb with
        passing := s.fradb.passing.filter fun x => !(x == me)
        stepping := s.fradb.stepping.filter fun x => !(x == me)
        refused := s.fradb.refused.filter fun x => !(x == me)
        stopping := if stepped then me :: s.fradb.stopping else s.fradb.stopping } }

/-- The arm that has the turn could not issue the instruction that fradb has it step over (R358). -/
def State.turnedAway (s : State) : State :=
  let me := (s.cur.tid, s.cur.sel)
  if s.fradb.stepping.contains me && !s.fradb.refused.contains me then
    { s with fradb := { s.fradb with refused := me :: s.fradb.refused } }
  else s

/-- fradb keeps nothing of a thread that is gone. -/
def State.debugForget (s : State) (tid : Nat) : State :=
  let keep (l : List (Nat × Bool)) : List (Nat × Bool) := l.filter fun x => !(x.1 == tid)
  { s with fradb := { s.fradb with
    stepping := keep s.fradb.stepping, stopping := keep s.fradb.stopping, refused := keep s.fradb.refused
    passing := keep s.fradb.passing } }

/-- Taking a trap at the instruction of the arm that has the turn (R363). BREAK goes to fradb in a
region it is attached to (R355). -/
def State.takeTrap (s : State) (t : Trap) : State :=
  match s.cur.seq with
  | some cl => s.trapSeq cl t
  | none =>
    if t.cause = .brk ∧ s.fradb.attached.contains s.cur.region then
      s.takeBreak
    else s.trapGroup t

/-- The return from a trap: INH clear, the trapped arm continues at TPC, or TPC + 4 for SOFT (R335). -/
def State.returnTrap (s : State) : State :=
  s.modCur fun g =>
    let pc := if tcauseCause g.tcause = Cause.soft.code then g.tpc + 4 else g.tpc
    { g with tcause := tcauseClearInh g.tcause }.mapArm (tcauseArm g.tcause) fun a => { a with pc := pc }

/-! ### Values delivered -/

/-- A group can still be reached by a reply: it has not exited. -/
def State.alive (s : State) (tid : Nat) : Bool := s.threads.any fun g => g.tid == tid

/-- One outstanding producer of a register fewer. -/
def Group.settle (g : Group) (r : RegId) : Group := { g with pend := g.pend.erase r }

/-- A completion writes its value and sets the register full (R217). -/
def Group.fill (g : Group) : Fill → Group
  | .word r x => (g.put32 r x).settle r
  | .lanes n m xs tag => (g.putV n m xs tag).settle (.v n)
  | .part n m xs tag => (g.putV n m xs tag).setFull (.v n) false

/-- The completions of one operation, in order; a thread that has exited gets none (R249). -/
def State.fills (s : State) (tid : Nat) (fs : List Fill) : State :=
  s.modThread tid fun g => fs.foldl Group.fill g

/-- Destinations emptied at issue, each with a producer outstanding (R217); an instruction that is replayed
is the producer already (R79). -/
def Group.awaiting (g : Group) (rs : List RegId) : Group :=
  rs.foldl (fun g r =>
    { (g.setFull r false) with pend := if g.me.replay && g.pend.contains r then g.pend else r :: g.pend }) g

/-- An MCHECK known from a response: pending until the arm's next boundary (R391). -/
def State.pendMcheck (s : State) (tid : Nat) (e : Option MCheck) : State :=
  match e with
  | none => s
  | some m => s.modThread tid fun g => { g with mchecks := g.mchecks ++ [m] }

/-- An error that no arm takes as a trap becomes an MCHECK record of a thread, its region and LOC (R391). -/
def State.mcheckRecord (s : State) (region name loc : Nat) (m : MCheck) : State :=
  s.regionFault ⟨.mcheck, region, name, 0, m.addr.toNat, m.lane,
    (tcauseWord Cause.mcheck.code m.armB false m.detail).toNat, 0, loc, 0⟩ []

/-- LOC of a thread in its MCHECK records: a group's core and slot. -/
def Group.faultLoc (g : Group) : Nat := if g.isSeq then 0 else g.loc.word

/-- One posted operation more or fewer (R317). -/
def Group.postOne (g : Group) : Group := { g with nout := g.nout + 1 }

/-- The acknowledgement of a posted operation: NOUT, and NERR keeps the first status (R317). -/
def Group.ackOne (g : Group) (status : Nat) : Group :=
  { g with nout := g.nout - 1, nerr := if g.nerr = 0 then status else g.nerr }

/-! ### Events -/

/-- Payload number n of the event row being executed. -/
def State.arg (s : State) (n : Nat) : Nat := s.ev.getD n 0

/-- Payload n as a truth value. -/
def State.argB (s : State) (n : Nat) : Bool := s.arg n == 1

/-- Taking the first operation of a kind from those in flight: the event that completes it has happened;
nothing happens when there is none. -/
def State.complete {α : Type} (s : State) (pick : Flight → Option α) (k : State → α → State) : State :=
  match takeOut (fun f => (pick f).isSome) s.flight with
  | some (f, rest) =>
    match pick f with
    | some x => k { s with flight := rest } x
    | none => s
  | none => s

end Sys2Proof.Machine
end

