-- ==== Sys2Proof/Machine/Operands.lean ====
section
/-!
DEFINITION. Operand forms and the issue of one instruction: the checks of R227 in order, waiting on
empty registers (R215 to R217), mailbox sources (R59), and what an instruction's own effect ends in.
-/

namespace Sys2Proof.Machine

/-! ### Sources -/

/-- A source register and what an empty one does: none blocks; some (detail, field) traps EMPTY (R215). -/
structure Src where
  reg : RegId
  onEmpty : Option (Nat × Nat)
  deriving DecidableEq, Repr

/-- Sources that block while empty. -/
def blocking (rs : List RegId) : List Src := rs.map fun r => ⟨r, none⟩

/-- Sources read through field a of a format-A word (R215); under effective DET they block (R216). -/
def Group.srcA (g : Group) (ea : Bool) (field : Nat) (rs : List RegId) : List Src :=
  rs.map fun r => ⟨r, if ea && !g.eff.det then some (1, field) else none⟩

/-- Sources read through field b (R215, R216). -/
def Group.srcB (g : Group) (eb : Bool) (field : Nat) (rs : List RegId) : List Src :=
  rs.map fun r => ⟨r, if eb && !g.eff.det then some (2, field) else none⟩

/-- The implicit sources of an instruction that lanes take part in: the mask and the guard (R215,
R219). -/
def Group.laneSrcs (g : Group) : List Src :=
  blocking [.b g.sel 61, .b g.sel 62, .b g.sel 63, g.guardReg]

/-- The mask alone (BRS, R241). -/
def Group.maskSrcs (g : Group) : List Src :=
  if g.isSeq then [] else blocking [.b g.sel 61, .b g.sel 62, .b g.sel 63]

/-- Policy register s40 + pol (R84, R220). -/
def Group.polSrc (pol : Nat) : List Src := blocking [.s (40 + pol)]

/-! ### What is checked before an instruction's own effect -/

/-- The checks of one instruction at steps 2 to 7 of R227. -/
structure Pre where
  /-- executed by a sequencer too (R149) -/
  seqOk : Bool := false
  /-- executed by a sequencer only (R226) -/
  seqOnly : Bool := false
  /-- v registers that must lie below VREGS (R213) -/
  vs : List Nat := []
  /-- the operand kinds that depend on ET hold (R224) -/
  even : Bool := true
  /-- PRIV DETAIL when a group outside region 0 issues it; 0 none (R226) -/
  priv : Nat := 0
  /-- reads RM (R132, R431) -/
  readsRm : Bool := false
  /-- its result depends on timing (R32) -/
  timing : Bool := false
  /-- element types accepted (R254); none: ET is not read -/
  ets : Option (List Nat) := none
  /-- a further trap of step 5 -/
  mode : Option Trap := none
  srcs : List Src := []
  /-- registers written -/
  dests : List RegId := []
  /-- the trap of step 7 -/
  tags : Option Trap := none
  /-- the lanes of a v register that the instruction reads where they are not those that take part -/
  reads : List (Nat × Mask) := []

/-- What the checks decide. -/
inductive Verdict where
  | go
  | trap (t : Trap)
  /-- for a source to be full, or with write for the outstanding producer of a destination -/
  | wait (r : RegId) (write : Bool)
  deriving DecidableEq, Repr

/-- A FORMAT trap: DETAIL, code found and where (R372). -/
def formatTrap (detail code site : Nat) : Trap := .plain .format detail (w32 (code + site * 16))

/-- The first tag of the list outside its allowed ones: (site, tag, allowed) (R131). -/
def tagTrap : List (Nat × Nat × List Nat) → Option Trap
  | [] => none
  | (site, tag, ok) :: r => if ok.contains tag then tagTrap r else some (formatTrap 2 tag site)

/-- The first reserved tag of conversion sources: (site, tag) (R10). -/
def rsvdTagTrap : List (Nat × Nat) → Option Trap
  | [] => none
  | (site, tag) :: r => if tag < 12 then rsvdTagTrap r else some (formatTrap 3 tag site)

/-- Step 2 for the fields whose kind depends on the group (R213, R224). -/
def Pre.fieldsOk (p : Pre) (g : Group) : Bool := p.vs.all (fun n => decide (n < g.vregs)) && p.even

/-- Steps 2 to 4: operand fields, issuer, privilege (R225, R226, R433). -/
def Pre.early (p : Pre) (s : State) : Option Trap :=
  if s.cur.isSeq then
    if !p.seqOk then some (s.illegal 8)
    else if !p.fieldsOk s.cur then some (s.illegal 5)
    else if p.priv ≠ 0 then some (.plain .priv p.priv s.ir)
    else none
  else if !p.fieldsOk s.cur then some (s.illegal 5)
  else if p.seqOnly then some (s.illegal 7)
  else if p.priv ≠ 0 ∧ !s.cur.privileged then some (.plain .priv p.priv s.ir)
  else none

/-- Step 5: MODE (R132, R32, R254). -/
def Pre.modeCheck (p : Pre) (s : State) : Option Trap :=
  if p.readsRm ∧ 6 ≤ s.cur.rm then some (s.illegal 9)
  else if p.timing ∧ s.cur.eff.det then some (s.illegal 10)
  else
    match p.ets with
    | some ok => if ok.contains s.cur.et then p.mode else some (formatTrap 1 s.cur.et 0)
    | none => p.mode

/-- The lanes of v(n) that an instruction reads: those that take part, or those that it says (R219). -/
def Pre.lanesRead (p : Pre) (g : Group) (n : Nat) : Mask :=
  match p.reads.find? fun x => x.1 == n with
  | some x => x.2
  | none => g.active

/-- An uncorrectable error in what the instruction reads, a register, a lane or a tag (R393): the trap it takes. -/
def Pre.badSource (p : Pre) (g : Group) : Option Trap :=
  match g.bad.find? (fun (k, n, lane) =>
      p.srcs.any fun x => (x.reg.badKey == (k, n) && (k != 1 || (p.lanesRead g n).getLsbD lane))
        || (k == 5 && x.reg == .v n)) with
  | some (_, n, lane) => some ⟨.mcheck, 4, 0, w32 (lane + n * 256)⟩
  | none => none

/-- Step 6: sources and destinations (R215, R217). -/
def Pre.sources (p : Pre) (g : Group) : Verdict :=
  match p.srcs.find? (fun x => !g.full x.reg) with
  | some x =>
    match x.onEmpty with
    | some (detail, field) => .trap (.plain .empty detail (w32 field))
    | none => .wait x.reg false
  | none =>
    match p.dests.find? (fun r => g.pend.contains r && !g.full r) with
    | some r => .wait r true
    | none => .go

/-- Steps 2 to 7 of R227, and the registers that R393 damages. -/
def Pre.verdict (p : Pre) (s : State) : Verdict :=
  match p.early s with
  | some t => .trap t
  | none =>
    match p.modeCheck s with
    | some t => .trap t
    | none =>
      match p.sources s.cur with
      | .go =>
        match p.tags with
        | some t => .trap t
        | none =>
          match p.badSource s.cur with
          | some t => .trap t
          | none => .go
      | v => v

/-! ### What an instruction's own effect ends in -/

/-- The end of step 8. -/
inductive Eff where
  /-- completes; the arm goes on at the next instruction -/
  | done (s : State)
  /-- completes with no effect: no full/empty bit changes either (R428) -/
  | idle (s : State)
  /-- completes; the arm goes on where the effect has put its PC -/
  | jump (s : State)
  /-- traps, with no effect but what the state given already holds (R428) -/
  | trap (s : State) (t : Trap)
  /-- waits at the instruction, as the state given says -/
  | stay (s : State)
  /-- has parked at the instruction: it stays an outstanding producer of its destinations (R79) -/
  | park (s : State)
  deriving DecidableEq, Repr

/-- Mailbox sources are left empty by an instruction that completes, unless it writes them (R59). -/
def Group.emptyMail (g : Group) (p : Pre) : Group :=
  p.srcs.foldl (fun g x =>
    match x.reg with
    | .s n => if 32 ≤ n ∧ n < 40 ∧ !p.dests.contains (.s n) then g.setFull (.s n) false else g
    | _ => g) g

/-- The arm is ready again, with nothing parked. -/
def Arm.ready (a : Arm) : Arm :=
  { a with
    ws := .ready, wreg := 0, waux := 0, park := 0, replay := false, parkFetch := false, lost := false, owes := []
    turned := false }

/-- The end of an instruction that completes. -/
def State.finish (s : State) (p : Pre) : State :=
  (s.modCur fun g => (g.emptyMail p).mapMe Arm.ready).debugStop

/-- The end of a completing instruction of a length in bytes. -/
def State.advance (s : State) (len : Nat) : State := s.modCur fun g => g.mapMe fun a => a.next len

/-- The arm is in a state; the clock of its beginning stands while the state does (R43, R48). -/
def Arm.enter (a : Arm) (now : W64) (ws : WState) (wreg : Nat) (waux : W32) : Arm :=
  { a with
    ws := ws, wreg := wreg, waux := waux
    since := if a.ws = ws ∧ a.wreg = wreg ∧ a.waux = waux then a.since else now }

/-- The wait of an arm ends: its instruction is resumed on its next turn. -/
def Arm.resume (a : Arm) : Arm := { a with ws := .ready, replay := true }

/-- The arm blocks on an empty register (R215, R217). -/
def State.block (s : State) (r : RegId) (write : Bool) : State :=
  s.modCur fun g => g.mapMe fun a => { a.enter s.clock .blocked r.num a.waux with on := some r, onWrite := write }

/-- The arm leaves the instruction for its trap; a replayed one is the producer of no destination any more (R79,
R435). -/
def State.trapped (s : State) (t : Trap) : State :=
  ((s.modCur fun g => (g.me.owes.foldl Group.settle g).mapMe Arm.ready).debugStop).takeTrap t

/-- The state after an effect. -/
def Eff.apply (e : Eff) (len : Nat) (p : Pre) : State :=
  match e with
  | .done s => (s.finish p).advance len
  | .idle s => (s.finish {}).advance len
  | .jump s => s.finish p
  | .trap s t => s.trapped t
  | .stay s => s
  | .park s => s.modCur fun g => (g.awaiting p.dests).mapMe fun a => { a with owes := p.dests }

/-- A replayed instruction that traps is no producer any more, and one that parks again is one still (R79,
R435). -/
def Eff.unpark (e : Eff) (p : Pre) : Eff :=
  match e with
  | .trap s t => .trap (s.modCur fun g => if g.me.owes.isEmpty then p.dests.foldl Group.settle g else g) t
  | .park s => .stay s
  | e => e

/-- The issue of one instruction of a length in bytes by the arm that has the turn: its checks, then
its effect (R227). A parked instruction that is replayed meets only its own effect again (R435). -/
def issueState (len : Nat) (p : Pre) (body : State → Eff) (s : State) : State :=
  if s.cur.me.replay then ((body s).unpark p).apply len p
  else
    match p.verdict s with
    | .go => (body s).apply len p
    | .trap t => s.trapped t
    | .wait r w => s.block r w

/-- The issue as an outcome: always a next state. -/
def issue (len : Nat) (p : Pre) (body : State → Eff) (s : State) :
    Host.Outcome State Fault Refusal := .next (issueState len p body s)

/-- A wait at the instruction: the arm's state, register and auxiliary word (R45). -/
def State.waitAs (s : State) (ws : WState) (wreg : Nat) (waux : W32) : State :=
  s.modCur fun g => g.mapMe fun a => a.enter s.clock ws wreg waux

/-- The arm is not ready: it stays at the instruction and tries again (R47). -/
def State.stall (s : State) : State :=
  s.turnedAway.modCur fun g => g.mapMe fun a => { a with ws := .ready, turned := true }

/-- Operations of a group that a save may have to record as not started: its TRDs and its name operations in
flight, and those of its record that it has not reissued yet (R45, R62, R124, log 13). -/
def State.unstarted (s : State) (tid : Nat) : Nat :=
  (match s.thread tid with
    | some g => g.recs.length
    | none => 0) + (s.flight.filter fun f => match f with
    | .trd w _ => w.tid == tid
    | .nameOp op => op.src == .group tid
    | _ => false).length

/-- An operation that a save may have to record leaves: the arm is not ready while its group holds sixteen (R45). -/
def State.leaveCore (s : State) (k : State → State) : Eff :=
  if 16 ≤ s.unstarted s.cur.tid then .stay s.stall else .done (k s)

/-- The arm's access waits at a gated memory die, behind what waits there, and the die is asked to wake (R206). -/
def State.holdArm (s : State) (d : Nat) : State :=
  let me : Held := .arm s.cur.tid s.cur.sel
  s.modMdie d fun x => { x with asked := true, held := if x.held.contains me then x.held else x.held ++ [me] }

/-- The arm's access waits: it stays at the instruction and tries again, or a gated memory die gives it the turn once
it has woken (R82, R99, R206). -/
def State.waitHome (s : State) (gate : Option Nat) : State :=
  match gate with
  | some d => (s.holdArm d).stall
  | none => s.stall

/-- A body that only changes the group. -/
def doneG (f : Group → Group) (s : State) : Eff := .done (s.modCur f)

/-- Sign extension of the low n bits of a number to 64 bits (R209, R220). -/
def sext64 (n x : Nat) : W64 :=
  if x % 2 ^ n < 2 ^ (n - 1) then w64 (x % 2 ^ n) else w64 (2 ^ 64 - 2 ^ n + x % 2 ^ n)

/-- Sign extension of a 12-bit immediate to 32 bits (R236). -/
def sext12 (x : Nat) : W32 := (sext64 12 x).setWidth 32

/-- A branch target: PC + 4 × SEXT(off) with an offset of n bits (R209). -/
def branchTarget (pc : W64) (n off : Nat) : W64 := pc + 4 * sext64 n off

end Sys2Proof.Machine
end

