-- ==== Sys2Proof/Machine/Control.lean ====
section
/-!
DEFINITION. Branches, calls, divergence regions, ends and traps: majors 0x0D to 0x11 (R240 to R253,
R11, R12, R39 to R41).
-/

namespace Sys2Proof.Machine

/-! ### Uniform branches -/

/-- A branch whose target is the PC of the arm plus an offset, when taken; else the next word. -/
def State.branch (s : State) (taken : Bool) (bits off : Nat) : Eff :=
  if taken then .jump (s.modCur fun g => g.setPc (branchTarget g.me.pc bits off)) else .done s

/-- BRA (R240). -/
def execBra (off : Nat) (s : State) : Host.Outcome State Fault Refusal :=
  issue 4 { seqOk := true } (fun s => s.branch true 26 off) s

/-- The return registers s58:s59 of the arm that has the turn. -/
def Group.linkRegs (g : Group) : List RegId := [.b g.sel 58, .b g.sel 59]

/-- s58:s59 ← PC + 4 (R240). -/
def Group.link (g : Group) : Group := g.put64 (.b g.sel 58) (.b g.sel 59) (g.me.pc + 4)

/-- CALL (R240). -/
def execCall (off : Nat) (s : State) : Host.Outcome State Fault Refusal :=
  issue 4 { seqOk := true, dests := s.cur.linkRegs }
    (fun s => (s.modCur Group.link).branch true 26 off) s

/-- A branch on a scalar (R241). -/
def branchS (cond : W32 → Bool) (x off : Nat) (s : State) : Host.Outcome State Fault Refusal :=
  issue 4 { seqOk := true, srcs := blocking (s.cur.sregs x) }
    (fun s => s.branch (cond (s.cur.sval x)) 16 off) s

/-- A branch on a predicate and the arm's mask (R241). -/
def branchP (cond : Mask → Mask → Bool) (x off : Nat) (s : State) :
    Host.Outcome State Fault Refusal :=
  issue 4 { seqOk := true, srcs := blocking [.p x] ++ s.cur.maskSrcs }
    (fun s => s.branch (cond (s.cur.pred x) s.cur.mask) 16 off) s

/-- BEQZ (R241). -/
def execBeqz (x off : Nat) (s : State) : Host.Outcome State Fault Refusal :=
  branchS (fun v => v == 0) x off s
/-- BNEZ (R241). -/
def execBnez (x off : Nat) (s : State) : Host.Outcome State Fault Refusal :=
  branchS (fun v => v != 0) x off s
/-- BLTZ (R241). -/
def execBltz (x off : Nat) (s : State) : Host.Outcome State Fault Refusal :=
  branchS (fun v => v.msb) x off s
/-- BGEZ (R241). -/
def execBgez (x off : Nat) (s : State) : Host.Outcome State Fault Refusal :=
  branchS (fun v => !v.msb) x off s
/-- BANY (R241). -/
def execBany (x off : Nat) (s : State) : Host.Outcome State Fault Refusal :=
  branchP (fun p m => p &&& m != 0) x off s
/-- BALL (R241). -/
def execBall (x off : Nat) (s : State) : Host.Outcome State Fault Refusal :=
  branchP (fun p m => p &&& m == m) x off s
/-- BNONE (R241). -/
def execBnone (x off : Nat) (s : State) : Host.Outcome State Fault Refusal :=
  branchP (fun p m => p &&& m == 0) x off s

/-! ### Register targets -/

/-- A jump to a register target; bits [1:0] not zero trap MISALIGN TARGET (R242). -/
def State.jumpTo (s : State) (target : W64) (after : State → State) : Eff :=
  if target.toNat % 4 = 0 then .jump ((after s).modCur fun g => g.setPc target)
  else .trap s ⟨.misalign, 2, target, 0⟩

/-- RET: to s58:s59, which always block (R242). -/
def execRet (s : State) : Host.Outcome State Fault Refusal :=
  issue 4 { seqOk := true, srcs := blocking s.cur.linkRegs }
    (fun s => s.jumpTo (pairOf (s.cur.val32 (.b s.cur.sel 58)) (s.cur.val32 (.b s.cur.sel 59))) id) s

/-- JMPR (R242). -/
def execJmpr (a : Nat) (ea _eb : Bool) (s : State) : Host.Outcome State Fault Refusal :=
  issue 4 { seqOk := true, srcs := s.cur.srcA ea a (s.cur.spregs a) }
    (fun s => s.jumpTo (s.cur.spval a) id) s

/-- CALLR: a is read before s58:s59 are written (R242). -/
def execCallr (a : Nat) (ea _eb : Bool) (s : State) : Host.Outcome State Fault Refusal :=
  issue 4 { seqOk := true, srcs := s.cur.srcA ea a (s.cur.spregs a), dests := s.cur.linkRegs }
    (fun s => s.jumpTo (s.cur.spval a) (fun s => s.modCur Group.link)) s

/-! ### Divergence (R11, R39 to R41, R244 to R247) -/

/-- The innermost region opened by DIVR on a stack. -/
def innermostRegion : List DivRec → Option DivRec
  | [] => none
  | r :: rest => if r.kind1 then innermostRegion rest else some r

/-- The innermost region that has split. -/
def splitRegion : List DivRec → Option DivRec
  | [] => none
  | r :: rest => if !r.kind1 && r.split then some r else splitRegion rest

/-- A change of the first record that satisfies p. -/
def modRec (p : DivRec → Bool) (f : DivRec → DivRec) : List DivRec → List DivRec
  | [] => []
  | r :: rest => if p r then f r :: rest else r :: modRec p f rest

/-- The 8 words of a record (R39). -/
def DivRec.words (r : DivRec) : List Nat :=
  words64 r.pc.toNat
  ++ [r.mask.toNat % 2 ^ 32, r.mask.toNat / 2 ^ 32 % 2 ^ 32, r.mask.toNat / 2 ^ 64,
      (if r.kind1 then 1 else 0) + (if r.split then 256 else 0), 0, 0]

/-- Offset in the stack aperture of record n from the bottom of an arm's stack (R39, R70). -/
def divOffset (armB : Bool) (n : Nat) : Nat := (if armB then 0x8000 else 0) + n * 32

/-- A record at an address (R39). -/
def readDivRec (m : Memory) (a : Nat) : DivRec :=
  ⟨w64 (m.rd a 8), BitVec.ofNat 96 (m.rd (a + 8) 12), m.rd (a + 0x14) 1 == 1, m.rd (a + 0x15) 1 == 1⟩

/-- Address of record n from the bottom of an arm's stack in the group's backing (R70). -/
def Group.recAt (g : Group) (b : Bool) (n : Nat) : Nat := g.stkB + divOffset b n

/-- Depth of an arm's stack in records: those in the core and those spilled (R39). -/
def Arm.depth (a : Arm) : Nat := a.dstk.length + a.deep

/-- The stack of an arm, top first: the records in the core, then those that memory holds (R39). -/
def State.stackOf (s : State) (g : Group) (b : Bool) : List DivRec :=
  (g.arm b).dstk ++ (List.range (g.arm b).deep).reverse.map fun n => readDivRec s.mem (g.recAt b n)

/-- The open region of an arm (R245). -/
def State.openRegion (s : State) (g : Group) (b : Bool) : Option DivRec :=
  match innermostRegion (s.stackOf g b) with
  | some r => some r
  | none => if (g.arm b).splitOff then splitRegion (s.stackOf g (!b)) else none

/-- A change of the first record of an arm's stack that satisfies p, in the core or in memory. -/
def State.modStack (s : State) (b : Bool) (p : DivRec → Bool) (f : DivRec → DivRec) : State :=
  let g := s.cur
  if (g.arm b).dstk.any p then s.modCur fun g => g.mapArm b fun a => { a with dstk := modRec p f a.dstk }
  else
    match (List.range (g.arm b).deep).reverse.find? fun n => p (readDivRec s.mem (g.recAt b n)) with
    | some n => s.storeWords (g.recAt b n) (f (readDivRec s.mem (g.recAt b n))).words
    | none => s

/-- A change of the open region of an arm, on whichever stack holds it (R245). -/
def State.modRegion (s : State) (b : Bool) (f : DivRec → DivRec) : State :=
  match innermostRegion (s.stackOf s.cur b) with
  | some _ => s.modStack b (fun r => !r.kind1) f
  | none => if (s.cur.arm b).splitOff then s.modStack (!b) (fun r => !r.kind1 && r.split) f else s

/-- Pushes a record; a fifth record in the core spills the deepest (R39, R246). -/
def State.pushRec (s : State) (r : DivRec) : State :=
  let g := s.cur
  let stk := r :: g.me.dstk
  if stk.length ≤ 4 then s.modCur fun g => g.mapMe fun a => { a with dstk := stk }
  else
    (s.modCur fun g => g.mapMe fun a => { a with dstk := stk.take 4, deep := a.deep + 1 }).storeWords
      (g.recAt g.sel g.me.deep) ((stk.getD 4 r).words)

/-- The number of an arm. -/
def armNum (b : Bool) : Nat := if b then 1 else 0

/-- Positions lo to hi − 1 of arm b's stack whose lines are damaged, as a refill marks them (R373, R393). -/
def State.refillMarks (s : State) (g : Group) (b : Bool) (lo hi : Nat) : List (Nat × Nat × Nat) :=
  ((List.range hi).filter fun n => decide (lo ≤ n) && s.damaged (g.recAt b n)).map fun n => (6, n, armNum b)

/-- A pop of arm b's stack refills a record: an error in it is kept with it (R246, R373). -/
def State.refilling (s : State) (b : Bool) : State :=
  let n := (s.cur.arm b).deep
  if n = 0 then s else s.modCur fun g => { g with bad := s.refillMarks g b (n - 1) n ++ g.bad }

/-- An arm's stack after a pop: the deepest spilled record is refilled from memory (R246). -/
def State.popped (s : State) (g : Group) (b : Bool) (a : Arm) : Arm :=
  if a.deep = 0 then { a with dstk := a.dstk.tail }
  else { a with dstk := a.dstk.tail ++ [readDivRec s.mem (g.recAt b (a.deep - 1))], deep := a.deep - 1 }

/-- The taken set of BRD or BRDN (R244). -/
def Group.takenSet (g : Group) (x : Nat) (inverted : Bool) : Mask :=
  g.active &&& (if inverted then ~~~(g.pred x) else g.pred x)

/-- The arm made by a split: the taken lanes at the target, s48 to s60, MODE and SRCNT copied (R11,
R41, R133, R230). -/
def Arm.splitTo (a : Arm) (target : W64) (taken : Mask) : Arm :=
  ({ Arm.free with
      occ := true
      splitOff := true
      mode := a.mode
      pc := target
      srcnt := a.srcnt
      bank := a.bank
      bfull := a.bfull } : Arm).setMask taken

/-- A split: SPLIT set in the open region, the other slot occupied, the branching arm with the lanes not
taken; both arms take the order that precedes it (R11, R40, R86, R244). -/
def State.split (s : State) (target : W64) (taken rest : Mask) : State :=
  (((s.modRegion s.cur.sel fun r => { r with split := true }).modCur fun g =>
    (g.mapArm (!g.sel) fun _ => g.me.splitTo target taken).mapMe fun a => a.setMask rest)).splitOrder
    s.cur.tid s.cur.sel

/-- BRD and BRDN (R244, R245, R246, R253). -/
def divergent (inverted : Bool) (x off : Nat) (s : State) : Host.Outcome State Fault Refusal :=
  issue 4 { seqOk := true, srcs := blocking [.p x, s.cur.guardReg] ++ s.cur.maskSrcs }
    (fun s =>
      let g := s.cur
      let t := g.takenSet x inverted
      let n := g.mask &&& ~~~t
      let target := branchTarget g.me.pc 16 off
      if t = 0 then .done s
      else if n = 0 then .jump (s.modCur fun g => g.setPc target)
      else if g.isSeq then .trap s (s.illegal 8)
      else if (s.openRegion g g.sel).isNone then .trap s (s.illegal 12)
      else if !(g.arm (!g.sel)).occ then .done (s.split target t n)
      else if 1024 ≤ g.me.depth then .trap s (s.illegal 11)
      else .done ((s.pushRec ⟨target, t, true, false⟩).modCur fun g => g.mapMe fun a => a.setMask n)) s

/-- BRD (R244). -/
def execBrd (x off : Nat) (s : State) : Host.Outcome State Fault Refusal := divergent false x off s

/-- BRDN (R244). -/
def execBrdn (x off : Nat) (s : State) : Host.Outcome State Fault Refusal := divergent true x off s

/-- DIVR: opens a region; NOP in a sequencer (R246, R253). -/
def execDivr (off : Nat) (s : State) : Host.Outcome State Fault Refusal :=
  issue 4 { seqOk := true }
    (fun s =>
      if s.cur.isSeq then .done s
      else if 1024 ≤ s.cur.me.depth then .trap s (s.illegal 11)
      else .done (s.pushRec ⟨branchTarget s.cur.me.pc 16 off, 0, false, false⟩)) s

/-- YLD: the arm is released with its continuation PC; ILLEGAL in a sequencer (R248, R253). -/
def execYld (off : Nat) (s : State) : Host.Outcome State Fault Refusal :=
  issue 4 { seqOk := true }
    (fun s =>
      if s.cur.isSeq then .trap s (s.illegal 8)
      else .stay (s.modCur fun g =>
        g.mapMe fun a =>
          { a.ready.enter s.clock .yld 0 0 with pc := branchTarget a.pc 16 off }).debugStop) s

/-- A long-latency destination in an arm's own bank is outstanding (R41). -/
def Group.bankPending (g : Group) (b : Bool) : Bool :=
  g.pend.any fun r => match r with
    | .b armB _ => armB == b
    | _ => false

/-- The split-off arm b has arrived at the RCV at x: it waits there with an empty stack and nothing on
its way to its bank (R40, R41). -/
def Group.arrived (g : Group) (b : Bool) (x : W64) : Bool :=
  let a := g.arm b
  a.occ && a.splitOff && a.ws == .rcv && a.pc == x && a.dstk.isEmpty && !g.bankPending b

/-- The opening arm b waits at its region's RCV at x. -/
def Group.opened (g : Group) (b : Bool) (x : W64) : Bool :=
  let a := g.arm b
  a.occ && a.ws == .rcv && a.pc == x &&
    (match a.dstk with
      | r :: _ => !r.kind1 && r.pc == x && r.split
      | [] => false)

/-- The larger of two stochastic-rounding counters (R133). -/
def maxW (a b : W32) : W32 := if a.ult b then b else a

/-- The other arm waits at the RCV that closes arm b's region. -/
def Group.joins (g : Group) (b : Bool) : Bool :=
  let other := g.arm (!b)
  match (g.arm b).dstk with
  | r :: _ => r.split && other.occ && other.splitOff && other.ws == .rcv && other.pc == r.pc
  | [] => false

/-- The merge at an RCV, where pop takes the region's record: arm b keeps its slot with both masks, the
other slot is freed (R12, R40, R133, R230). -/
def Group.merge (g : Group) (b : Bool) (pop : Arm → Arm) : Group :=
  let other := g.arm (!b)
  let joined := g.joins b
  let m := match (g.arm b).dstk with
    | r :: _ => r.mask
    | [] => 0
  let m' := if joined then m ||| other.mask else m
  let g1 := g.mapArm b fun a =>
    ({ (pop a).ready with
        pc := a.pc + 4
        srcnt := if joined then maxW a.srcnt other.srcnt else a.srcnt
        holds := if joined then a.holds ++ other.holds else a.holds } : Arm).setMask m'
  if joined then g1.mapArm (!b) fun _ => .free else g1

/-- The RCV that closes the region of arm b: its record popped, the arms merged, and the order that either
arm established kept (R12, R40, R86). -/
def State.close (s : State) (b : Bool) : State :=
  let s1 := (s.refilling b).modCur fun g => g.merge b (s.popped g b)
  if s.cur.joins b then s1.mergeOrder s.cur.tid b else s1

/-- An uncorrectable error in the record on top of arm b's stack, found when it was refilled (R373): the trap of the RCV
that pops it. -/
def State.popTrap (s : State) (b : Bool) : Option Trap :=
  let n := (s.cur.arm b).depth - 1
  if s.cur.bad.contains (6, n, armNum b) then
    some ⟨.mcheck, 1, 0xFE80000000000000#64 + w64 (divOffset b n), 0⟩
  else none

/-- The merge that arm b waits for at its RCV can take place (R12, R41). -/
def Group.mergeable (g : Group) (b : Bool) : Bool :=
  let a := g.arm b
  if a.dstk.isEmpty then g.opened (!b) a.pc && !g.bankPending b
  else g.opened b a.pc && g.arrived (!b) a.pc

/-- An arm of a group can act: it is ready, the register it waits for is full, or the merge it waits for at
its RCV can take place (R12, R41, R215). -/
def Group.armReady (g : Group) (b : Bool) : Bool :=
  (g.arm b).occ && (match (g.arm b).ws with
    | .ready => true
    | .blocked => g.unblocked b
    | .rcv => g.mergeable b
    | _ => false)

/-- RCV (R40, R41, R247); NOP in a sequencer (R253). -/
def State.receive (s : State) : Eff :=
  let g := s.cur
  let b := g.sel
  let x := g.me.pc
  let waiting : State := s.waitAs .rcv 0 0
  if g.isSeq then .done s
  else
    match g.me.dstk with
    | r :: _ =>
      if !r.kind1 then
        if r.pc ≠ x then .trap s (s.illegal 13)
        else
          match s.popTrap b with
          | some t => .trap s t
          | none =>
            let s1 := s.modCur fun g => g.mapMe fun a =>
              { a with dstk := modRec (fun _ => true) (fun r => { r with mask := r.mask ||| g.me.mask }) a.dstk }
            if r.split && !g.arrived (!b) x then .stay (s1.waitAs .rcv 0 0)
            else .jump (s1.close b)
      else
        match s.popTrap b with
        | some t => .trap s t
        | none =>
          let m := g.me.mask
          let s1 := (s.refilling b).modCur fun g => g.mapMe (s.popped g b)
          .jump ((s1.modRegion b fun q => { q with mask := q.mask ||| m }).modCur fun g =>
            g.mapMe fun a => ({ a with pc := r.pc } : Arm).setMask r.mask)
    | [] =>
      if !g.me.splitOff then .trap s (s.illegal 13)
      else
        match s.openRegion g b with
        | none => .trap s (s.illegal 13)
        | some q =>
          if q.pc ≠ x then .trap s (s.illegal 13)
          else if g.opened (!b) x && !g.bankPending b then
            match s.popTrap (!b) with
            | some t => .trap s t
            | none => .jump ((waiting.close (!b)).modCur fun g => { g with sel := !b })
          else .stay waiting

/-- RCV (R247). -/
def execRcv (s : State) : Host.Outcome State Fault Refusal :=
  issue 4 { seqOk := true, srcs := s.cur.maskSrcs } State.receive s

/-! ### Ends, traps, nothing -/

/-- The other arm is discarded where it stands: what its WSLOAD has still to load, a TAKE that waits, and the arm with
its parked lanes and its TDRAIN (R249). -/
def State.discardOther (s : State) : State :=
  let b := !s.cur.sel
  let tid := s.cur.tid
  { s with
    cur := s.cur.mapArm b fun _ => .free
    flight := s.flight.filter fun f => match f with
      | .wsload t c _ _ _ _ => !(t == tid && c == b)
      | _ => true
    stageqs := s.stageqs.map fun q => { q with waiting := q.waiting.filter fun x => !(x.1 == tid && x.2.1 == b) } }

/-- EXIT: in a group, issue stops in both arms, the other arm is discarded, and the end waits for the group's operations; in
a sequencer, the routine ends once its operations have (R249, R253). -/
def execExit (a : Nat) (ea _eb : Bool) (s : State) : Host.Outcome State Fault Refusal :=
  issue 4 { seqOk := true, srcs := s.cur.srcA ea a (s.cur.sregs a) }
    (fun s =>
      match s.cur.seq with
      | some cl => .stay (s.modCluster cl fun c => { c with ending := true })
      | none =>
        let v := s.cur.sval a
        .stay ((s.discardOther.modCur fun g => { g with exiting := some v }).flush s.cur.tid)) s

/-- TRAP: SOFT, with the operand in TINFO, and as every trap with no other effect (R250, R428). -/
def execTrap (a : Nat) (ea _eb : Bool) (s : State) : Host.Outcome State Fault Refusal :=
  issue 4 { seqOk := true, srcs := s.cur.srcA ea a (s.cur.sregs a) }
    (fun s => .trap s (.plain .soft 0 (s.cur.sval a))) s

/-- BKPT: BREAK (R250). -/
def execBkpt (s : State) : Host.Outcome State Fault Refusal :=
  issue 4 { seqOk := true } (fun s => .trap s (.plain .brk 0 0)) s

/-- NOP (R251). -/
def execNop (s : State) : Host.Outcome State Fault Refusal :=
  issue 4 { seqOk := true } .done s

end Sys2Proof.Machine
end

