-- ==== Sys2Proof/Machine/Translate.lean ====
section
/-!
DEFINITION. Addresses: classification, apertures and the scratchpad window (R35, R67 to R71), the page
walk (R72 to R76, R384), cached translations (R78), permission (R77), the checks of a memory
instruction's lanes (R279), parking (R79, R80), and the fetch of an instruction word.
-/

namespace Sys2Proof.Machine

/-! ### The walk -/

/-- What an access does, for the checks of R77. -/
inductive Access where
  | load | store | atomic | fetch
  deriving DecidableEq, Repr

/-- The access writes. -/
def Access.writes (a : Access) : Bool := a == .store || a == .atomic

/-- How a walk ends. -/
inductive WalkEnd where
  /-- a leaf entry, its address and the page size code -/
  | leaf (pte pteAt psize : Nat)
  | absent (psize : Nat)
  /-- malformed: the PROT DETAIL of R385 -/
  | bad (detail : Nat)
  /-- a table word with an uncorrectable error (R392) -/
  | damaged
  deriving DecidableEq, Repr

/-- Bytes of a page by PSIZE (R73). -/
def pageBytes (psize : Nat) : Nat :=
  if psize = 0 then 0x10000 else if psize = 1 then 0x200000 else 0x40000000

/-- Levels of a walk after the zone descriptor: high and low bit of the index (R74). -/
def walkLevels (psize : Nat) : List (Nat × Nat) :=
  if psize = 0 then [(52, 42), (41, 29), (28, 16)]
  else if psize = 1 then [(52, 42), (41, 30), (29, 21)]
  else [(52, 42), (41, 30)]

/-- Bytes of the table of a level. -/
def tableBytes (level : Nat × Nat) : Nat := 8 * 2 ^ (level.1 + 1 - level.2)

/-- FRAME of a leaf entry (R76). -/
def pteFrame (pte : Nat) : Nat := bitsOf pte 47 12 * 4096
/-- HOME of a leaf entry. -/
def pteHome (pte : Nat) : Nat := bitsOf pte 55 48
/-- KEY of a leaf entry. -/
def pteKey (pte : Nat) : Nat := bitsOf pte 63 56
/-- COH of a leaf entry. -/
def pteCoh (pte : Nat) : Nat := bitsOf pte 2 1
/-- HOSTMEM of a leaf entry. -/
def pteHost (pte : Nat) : Bool := bitAt pte 5

/-- A leaf entry's HOME agrees with its other fields (R75, R76, R384). -/
def homeOk (pte : Nat) : Bool :=
  let h := pteHome pte
  if pteHost pte then decide (h < 24) && pteCoh pte != 2
  else if h < 6 then sectorOf (pteFrame pte) == h
  else decide (0x80 ≤ h) && pteCoh pte != 2

/-- Why a leaf entry is malformed (R75, R384): PROT DETAIL; none when it is well-formed. -/
def leafBad (pte psize : Nat) : Option Nat :=
  if bitsOf pte 11 8 ≠ 0 then some 0x11
  else if pteFrame pte % pageBytes psize ≠ 0 then some 0x12
  else if !homeOk pte then some 0x13
  else none

/-- A table word cannot be read: its line is damaged, or its die fenced (R392, R422). -/
def State.tableLost (s : State) (a : Nat) : Bool := s.damaged a || (s.mdie (sectorOf a)).fenced

/-- The levels of a walk from a table on (R75). -/
def State.walkFrom (s : State) (va psize : Nat) : List (Nat × Nat) → Nat → WalkEnd
  | [], _ => .absent psize
  | l :: rest, t =>
    if t % tableBytes l ≠ 0 then .bad 0x12
    else
      let at_ := t + bitsOf va l.1 l.2 * 8
      let e := s.mem.rd at_ 8
      if s.tableLost at_ then .damaged
      else if e % 2 = 0 then .absent psize
      else if rest.isEmpty then
        match leafBad e psize with
        | some d => .bad d
        | none => .leaf e at_ psize
      else if bitsOf e 11 1 ≠ 0 ∨ bitsOf e 63 48 ≠ 0 then .bad 0x11
      else s.walkFrom va psize rest (bitsOf e 47 12 * 4096)

/-- The table words that a walk of an address reads. -/
def State.walkPath (s : State) (va psize : Nat) : List (Nat × Nat) → Nat → List Nat
  | [], _ => []
  | l :: rest, t =>
    let at_ := t + bitsOf va l.1 l.2 * 8
    let e := s.mem.rd at_ 8
    at_ :: (if e % 2 = 0 then [] else s.walkPath va psize rest (bitsOf e 47 12 * 4096))

/-- Every word that WALK(troot, va) reads. -/
def State.walkReads (s : State) (troot va : Nat) : List Nat :=
  let zat := troot + bitsOf va 56 53 * 8
  let zd := s.mem.rd zat 8
  let psize := bitsOf zd 2 1
  zat :: (if zd % 2 = 0 ∨ psize = 3 then [] else s.walkPath va psize (walkLevels psize) (bitsOf zd 47 12 * 4096))

/-- WALK(troot, va) (R75). -/
def State.walk (s : State) (troot va : Nat) : WalkEnd :=
  let zat := troot + bitsOf va 56 53 * 8
  let zd := s.mem.rd zat 8
  let psize := bitsOf zd 2 1
  if s.tableLost zat then .damaged
  else if zd % 2 = 0 then .absent psize
  else if psize = 3 then .bad 0x10
  else if bitsOf zd 11 5 ≠ 0 ∨ bitsOf zd 63 48 ≠ 0 then .bad 0x11
  else s.walkFrom va psize (walkLevels psize) (bitsOf zd 47 12 * 4096)

/-! ### Cached translations (R78) -/

/-- The cached entry covers the address under the root. -/
def TlbEntry.covers (e : TlbEntry) (die troot va : Nat) : Bool :=
  e.die == die && e.troot == troot && va / pageBytes e.psize == e.base / pageBytes e.psize

/-- Whose TLBs a translation looks in: the die, and of a core its instruction TLB or its data TLB; a sequencer has none of
its own (R78, log 45). -/
structure View where
  die : Nat
  core : Option (Nat × Bool)
  deriving DecidableEq, Repr

/-- The TLBs that a thread's access looks in. -/
def Group.view (g : Group) (acc : Access) : View :=
  ⟨g.die, if g.isSeq then none else some (g.loc.core, acc == .fetch)⟩

/-- The entry lies in one of the TLBs and covers the address under the root. -/
def TlbEntry.seen (e : TlbEntry) (w : View) (troot va : Nat) : Bool :=
  e.covers w.die troot va && (e.core.isNone || e.core == w.core)

/-- The cached entry that an access uses: its core's, else the die's (R78). -/
def State.cached (s : State) (w : View) (troot va : Nat) : Option TlbEntry :=
  match s.tlb.find? (fun e => e.seen w troot va && e.core == w.core) with
  | some e => some e
  | none => s.tlb.find? (fun e => e.seen w troot va)

/-- The translation of a global address: cached, or walked. -/
def State.translate (s : State) (w : View) (troot va : Nat) : WalkEnd :=
  match s.cached w troot va with
  | some e => .leaf e.pte e.pteAt e.psize
  | none => s.walk troot va

/-- Entries of a TLB: a die's second level, a core's instruction TLB, its data TLB (R78). -/
def tlbSize : Option (Nat × Bool) → Nat
  | none => 4096
  | some (_, true) => 32
  | some (_, false) => 64

/-- The list without its last element that satisfies a test. -/
def dropLast {α : Type} (p : α → Bool) : List α → List α
  | [] => []
  | x :: r => if p x && !r.any p then r else x :: dropLast p r

/-- A translation enters the TLB that it names, unless it is there: a full one drops its oldest (R78, log 45). -/
def State.cache (s : State) (e : TlbEntry) : State :=
  let own (x : TlbEntry) : Bool := x.die == e.die && x.core == e.core
  if s.tlb.any fun x => own x && x.covers e.die e.troot e.base then s
  else
    let l := if (s.tlb.filter own).length < tlbSize e.core then s.tlb else dropLast own s.tlb
    { s with tlb := e :: l }

/-- A translation enters its core's TLB and the die's. -/
def State.cacheBoth (s : State) (e : TlbEntry) : State := (s.cache { e with core := none }).cache e

/-- A translation is used: cached with A set if it was not, and D set before a first store through it (R77). -/
def State.touch (s : State) (e : TlbEntry) (write : Bool) : State :=
  let mine (x : TlbEntry) : Bool := x.seen ⟨e.die, e.core⟩ e.troot e.base
  if s.tlb.any mine then
    let s1 := s.cache e
    if write && !bitAt e.pte 7 then
      { s1.storeDev e.pteAt 8 (s1.mem.rd e.pteAt 8 ||| 0x80) with
        tlb := s1.tlb.map fun x => if mine x then { x with pte := x.pte ||| 0x80 } else x }
    else s1
  else
    let s1 := s.storeDev e.pteAt 8 (s.mem.rd e.pteAt 8 ||| (0x40 ||| (if write then 0x80 else 0)))
    ({ s1 with gone := s1.gone.filter fun x => !mine x }).cacheBoth
      { e with pte := (e.pte ||| 0x40) ||| (if write then 0x80 else 0) }

/-- Cached translations removed by a test on each (R78, R82, R195, R336). -/
def State.untranslate (s : State) (p : TlbEntry → Bool) : State :=
  { s with tlb := s.tlb.filter fun e => !p e, gone := s.gone.filter fun e => !p e }

/-- The place of an address under a leaf entry. -/
def leafPlace (pte psize va : Nat) : Place :=
  let pa := pteFrame pte + va % pageBytes psize
  if pteHost pte then .host (pteHome pte) pa
  else if pteHome pte < 6 then .dev pa
  else .peer (pteHome pte - 0x80) pa

/-- The first permission that fails: PROT DETAIL (R77). The deny bitmaps are read at every access (log 45). -/
def State.denied (s : State) (troot pte : Nat) (acc : Access) : Option Nat :=
  let k := pteKey pte
  let deny (off : Nat) : Bool := k != 0 && bitAt (s.mem.rd (troot + off + k / 8) 1) (k % 8)
  if acc.writes && !bitAt pte 3 then some 1
  else if acc == .fetch && !bitAt pte 4 then some 1
  else if acc == .load && deny 0x80 then some 2
  else if acc.writes && deny 0xA0 then some 2
  else none

/-! ### Apertures (R67 to R71) -/

/-- Where an address leads. -/
inductive Reach where
  /-- the place, that of the second word of a doubleword, the translation used -/
  | hit (lo hi : Place) (e : Option TlbEntry)
  | fail (c : Cause) (detail : Nat)
  | absent (psize : Nat)
  /-- the access waits: for the publish step (R82), for an engine's write (R99), or for a memory die to wake
  (R206) -/
  | frozen (gate : Option Nat)
  deriving DecidableEq, Repr

/-- STACKPA (R70). -/
def stackPa (base a lane : Nat) : Nat :=
  if a < 0x10000 then base + a
  else base + 0x10000 + (a - 0x10000) / 4 * 384 + lane * 4 + a % 4

/-- First column of a member's rectangle on its left die. -/
def Group.rectX (g : Group) : Nat := (g.loc.x + 8 - g.nbidx.toNat % g.info.w) % 8

/-- The half of member i (R35). -/
def Group.halfOf (g : Group) (i : Nat) : Nat := if g.rectX + i % g.info.w < 8 then 0 else 1

/-- The members of a half in member-index order (R35). -/
def Group.halfMembers (g : Group) (half : Nat) : List Nat :=
  (List.range (g.info.w * g.info.h)).filter fun i => g.halfOf i == half

/-- Member i of a group's neighbourhood, until it exits. -/
def State.member (s : State) (g : Group) (i : Nat) : Option Group :=
  s.threads.find? fun m => m.info.nbh && m.info.lead == g.info.lead && m.launchId == g.launchId
    && m.nbidx.toNat == i && m.seq.isNone

/-- The backed place at an offset of a group's scratchpad window (R35, R69). -/
def State.window (s : State) (g : Group) (off size : Nat) : Option Place :=
  let part := g.spadKiB * 1024
  if g.info.nbh then
    if part = 0 then none
    else
      match (g.halfMembers (off / 2 ^ 24)).drop (off % 2 ^ 24 / part) with
      | i :: _ =>
        if off % 2 ^ 24 % part + size ≤ part then
          (s.member g i).map fun m => .spad m.tid (off % 2 ^ 24 % part)
        else none
      | [] => none
  else if off + size ≤ part then some (.spad g.tid off)
  else none

/-- An aperture-space address of a thread (R67 to R71, R284). -/
def State.aperture (s : State) (g : Group) (acc : Access) (lane addr size : Nat) : Reach :=
  let a := addr - 0xFE00000000000000
  if acc == .fetch then .fail .aperture 3
  else if a < 0x10000000 then
    if acc == .load then .hit (.weight g.die a) (.weight g.die (a + 4)) none else .fail .prot 3
  else if 0x80000000000000 ≤ a ∧ a < 0x80000000014000 then
    let o := a - 0x80000000000000
    if g.isSeq then .fail .aperture 4
    else if o < 0x10000 ∧ acc ≠ .load then .fail .prot 4
    else .hit (.dev (stackPa g.stkB o lane)) (.dev (stackPa g.stkB (o + 4) lane)) none
  else if g.isSeq then
    if 0x100000000000000 ≤ a ∧ a < 0x100000000000000 + 576 * 2 ^ 25 then .fail .aperture 4
    else .fail .aperture 2
  else if g.spwin.toNat ≤ addr ∧ addr < g.spwin.toNat + 2 ^ 25 then
    match s.window g (addr - g.spwin.toNat) size with
    | some p => .hit p (p.plus 4) none
    | none => .fail .aperture 2
  else .fail .aperture 2

/-- A device address is homed on a memory die that is not in D0: the die (R206). -/
def State.gatedAt (s : State) (pa : Nat) : Option Nat :=
  if (s.mdie (sectorOf pa)).power.state = 0 then none else some (sectorOf pa)

/-- A place is homed on a gated memory die (R206). -/
def State.gated (s : State) (p : Place) : Option Nat :=
  match p with
  | .dev pa => s.gatedAt pa
  | _ => none

/-- A gated memory die that the translation of an address has to read (R206). -/
def State.walkGate (s : State) (w : View) (troot va : Nat) : Option Nat :=
  if (s.cached w troot va).isSome then none
  else (s.walkReads troot va).findSome? s.gatedAt

/-- INCARN that a translation of a place carries (R78, R194). -/
def State.incarnOf (s : State) (p : Place) : Nat :=
  match p with
  | .peer q _ => (s.peer q).incarn
  | _ => 0

/-- The translation of an address was removed when its peer was lost, and nothing has used it since (R195). -/
def State.wasRemoved (s : State) (w : View) (troot va : Nat) : Option TlbEntry :=
  if (s.cached w troot va).isSome then none
  else s.gone.find? fun e => e.seen w troot va

/-- A global address of a thread (R72 to R78). -/
def State.global (s : State) (g : Group) (acc : Access) (hostOk : Bool) (va : Nat) : Reach :=
  match s.walkGate (g.view acc) g.eff.troot va with
  | some d => .frozen (some d)
  | none =>
  match s.wasRemoved (g.view acc) g.eff.troot va with
  | some e =>
    let p := leafPlace e.pte e.psize va
    .hit p (p.plus 4) (some e)
  | none =>
  match s.translate (g.view acc) g.eff.troot va with
  | .absent psize => .absent psize
  | .bad d => .fail .prot d
  | .damaged => .fail .mcheck 5
  | .leaf pte pteAt psize =>
    if pteCoh pte = 3 then .frozen none
    else
      match s.denied g.eff.troot pte acc with
      | some d => .fail .prot d
      | none =>
        let p := leafPlace pte psize va
        if pteHost pte && !hostOk then .fail .prot 5
        else .hit p (p.plus 4)
          (some ⟨g.die, g.eff.troot, va / pageBytes psize * pageBytes psize, psize, pte, pteAt, s.incarnOf p, (g.view acc).core⟩)

/-- Two ranges of bytes share a 64-byte line. -/
def sameLine (a n b m : Nat) : Bool := decide (a / 64 * 64 < b + m) && decide (b / 64 * 64 < a + n)

/-- n bytes at a place and m bytes at another meet in a line. -/
def Place.meets (p : Place) (n : Nat) (q : Place) (m : Nat) : Bool :=
  match p, q with
  | .dev a, .dev b => sameLine a n b m
  | .host x a, .host y b => x == y && sameLine a n b m
  | .peer x a, .peer y b => x == y && sameLine a n b m
  | .weight x a, .weight y b => x == y && sameLine a n b m
  | .spad x a, .spad y b => x == y && sameLine a n b m
  | _, _ => false

/-- The copies of a thread run: it has ended, or it is resident and not being pre-empted; else they stand at a line
boundary, and own nothing (R124, R299). -/
def State.copiesRun (s : State) (tid : Nat) : Bool :=
  match s.thread tid with
  | some g => g.resident && !s.preempting g.region
  | none => true

/-- A TSTORE or a copy that has issued owns the lines of the n bytes at a place and has not yet written them: accesses
to them wait (R99). -/
def State.engineOwns (s : State) (p : Place) (n : Nat) : Bool :=
  (s.clusters.any fun c => c.engine.any fun e => match e.op with
    | .tstore _ _ _ rows => (rows.drop e.step).any fun r => r.any fun b => p.meets n b.1 b.2
    | _ => false)
  || s.flight.any fun f => match f with
    | .copy t j => s.copiesRun t && j.todo.any fun w => p.meets n w.dst 4
    | _ => false

/-- Position of a place in a frame of n bytes (R82). -/
def Place.offsetIn (p frame : Place) (n : Nat) : Option Nat :=
  match p, frame with
  | .dev a, .dev b => if b ≤ a ∧ a < b + n then some (a - b) else none
  | .host x a, .host y b => if x = y ∧ b ≤ a ∧ a < b + n then some (a - b) else none
  | .peer x a, .peer y b => if x = y ∧ b ≤ a ∧ a < b + n then some (a - b) else none
  | _, _ => none

/-- A place of a frame of n bytes that has moved; another stays (R82). -/
def Place.moved (old new : Place) (n : Nat) (p : Place) : Place :=
  match p.offsetIn old n with
  | some o => new.plus o
  | none => p

/-- The place lies in a frame that is frozen until a coherence change is published (R82). -/
def State.frozenAt (s : State) (p : Place) : Bool :=
  s.flight.any fun f => match f with
    | .coh _ _ _ _ old n _ => (p.offsetIn old n).isSome
    | _ => false

/-- The requests of an operation in flight to hosts and peers. -/
def Flight.far : Flight → List Far
  | .load _ _ _ fs | .atomic _ _ _ fs | .store _ fs => fs
  | .copy _ j => j.far
  | .discarded _ _ _ fs => fs
  | _ => []

/-- The Porruter port that carries requests to a place: the host's, or the lowest of the peer's that is up; the spec does
not say which of several a requester takes (DESIGN CHOICE, log 26). -/
def State.portFor (s : State) (p : Place) : Option Nat :=
  match p with
  | .host x _ => some x
  | .peer q _ => (List.range 24).find? fun i => (s.peer q).ports.getLsbD i && (s.link i).up
  | _ => none

/-- Requests and bytes outstanding on the link to a place, those of drained contributions too (R193). -/
def State.sent (s : State) (p : Place) : Nat × Nat :=
  let out := (s.flight.flatMap fun f => match f with
    | .redApply c => if c.place.away then [(c.place, 4)] else []
    | f => f.far.map fun x => (x.place, x.size)).filter fun x => s.portFor x.1 == s.portFor p
  (out.length, (out.map (·.2)).sum)

/-- The send window of the link to a place has no room for k more requests of n bytes: 8,192 requests and 2 MiB
(R193). -/
def State.windowFull (s : State) (p : Place) (k n : Nat) : Bool :=
  p.away && (
    let out := s.sent p
    decide (8192 < out.1 + k) || decide (2097152 < out.2 + k * n))

/-- What an access to n bytes waits for at their place: an engine's write (R99), a frozen frame, whose home refuses it
until the publish step (R82), room in the send window (R193), or a gated memory die. -/
def State.placeGate (s : State) (lo hi : Place) (n : Nat) : Option (Option Nat) :=
  if s.engineOwns lo n || (n == 8 && s.engineOwns hi 4) || s.frozenAt lo || s.windowFull lo 1 n then some none
  else
    match s.gated lo with
    | some d => some (some d)
    | none => (s.gated hi).map some

/-- Checks 1 to 4 of R279 on one address of the thread that has the turn: its place, nothing accessed there. -/
def State.resolve (s : State) (acc : Access) (hostOk : Bool) (align lane : Nat) (addr : W64)
    (size : Nat) : Reach :=
  let a := addr.toNat
  if a % align ≠ 0 then .fail .misalign 1
  else if a / 2 ^ 57 = 0 then s.global s.cur acc hostOk a
  else if a / 2 ^ 57 = 127 then s.aperture s.cur acc lane a size
  else .fail .aperture 1

/-- The same of an access: what it waits for at its place, and the scratchpad word that an uncorrectable error
has met (R393). -/
def State.reach (s : State) (acc : Access) (hostOk : Bool) (align lane : Nat) (addr : W64)
    (size : Nat) : Reach :=
  match s.resolve acc hostOk align lane addr size with
  | .hit lo hi e =>
    match s.placeGate lo hi size with
    | some d => .frozen d
    | none =>
    if acc ≠ .store ∧ (s.spadBad lo || (size == 8 && s.spadBad hi)) then .fail .mcheck 4
    else .hit lo hi e
  | r => r

/-! ### The lanes of an instruction (R278, R279) -/

/-- A lane that can be performed. -/
structure Hit where
  lane : Nat
  lo : Place
  hi : Place
  entry : Option TlbEntry
  addr : W64
  deriving DecidableEq, Repr

/-- What the checks of all lanes give. -/
inductive Checked where
  /-- lanes present, and lanes set aside with their address and page size -/
  | ok (hits : List Hit) (absent : List (Nat × W64 × Nat))
  | trap (t : Trap)
  | frozen (gate : Option Nat)
  deriving DecidableEq, Repr

/-- The access of an instruction's lanes. -/
structure Form where
  acc : Access
  hostOk : Bool
  align : Nat
  size : Nat
  deriving DecidableEq, Repr

/-- The trap of a failing lane (R279, R372); a walk reports lane 0. -/
def laneTrap (c : Cause) (detail lane : Nat) (addr : W64) : Trap :=
  ⟨c, detail, addr, if c = .mcheck ∧ detail = 5 then 0 else w32 lane⟩

/-- The lanes checked in ascending order: the lowest that fails traps (R279); the requests of all of them have room in
the send window of their link, or the instruction waits (R193). -/
def State.checkLanes (s : State) (f : Form) : List (Nat × W64) → Checked
  | [] => .ok [] []
  | (k, a) :: rest =>
    match s.reach f.acc f.hostOk f.align k a f.size with
    | .fail c d => .trap (laneTrap c d k a)
    | .hit lo hi e =>
      match s.checkLanes f rest with
      | .ok hs as =>
        if s.windowFull lo ((hs.filter fun h => s.portFor h.lo == s.portFor lo).length + 1) f.size then .frozen none
        else .ok (⟨k, lo, hi, e, a⟩ :: hs) as
      | r => r
    | .absent psize =>
      match s.checkLanes f rest with
      | .ok hs as => .ok hs ((k, a, psize) :: as)
      | r => r
    | .frozen d =>
      match s.checkLanes f rest with
      | .trap t => .trap t
      | _ => .frozen d

/-- The translations of the lanes performed are used; one that was removed is not cached again. -/
def State.touchAll (s : State) (write : Bool) (hs : List Hit) : State :=
  hs.foldl (fun s h => match h.entry with
    | some e => if s.gone.contains e then s else s.touch e write
    | none => s) s

/-- The removed translations that the lanes met have been met: the next access walks (R195, R390). -/
def State.forget (s : State) (hs : List Hit) : State :=
  let met (e x : TlbEntry) : Bool := x.seen ⟨e.die, e.core⟩ e.troot e.base
  { s with gone := s.gone.filter fun x => !hs.any fun h => match h.entry with
      | some e => s.gone.contains e && met e x
      | none => false }

/-! ### Parking (R79, R80) -/

/-- Entries of a die's miss table (R78). -/
def missTable : Nat := 64

/-- The miss is of the page. -/
def Miss.samePage (m : Miss) (troot va psize : Nat) : Bool :=
  m.troot == troot && m.psize == psize && m.va / pageBytes psize == va / pageBytes psize

/-- Name that a fault-buffer entry gives for the parked thread: a sequencer's requester (R337). -/
def State.parkName (s : State) : Nat :=
  match s.cur.seq with
  | some cl => (s.cluster cl).req.who.tid
  | none => s.cur.tid

/-- The arm that has the turn joins the miss of a page, or opens it: its walk completes later. -/
def State.joinMiss (s : State) (acc : Access) (copy : Bool) (va psize : Nat) : State :=
  let g := s.cur
  let mine : Miss := ⟨va, g.eff.troot, g.region, acc.writes, acc == .fetch, copy || g.isSeq, psize, 1,
    s.parkName, decide (missTable ≤ (s.die g.die).misses.length), [(g.tid, g.sel)]⟩
  if (s.die g.die).misses.any (fun m => m.samePage g.eff.troot va psize) then
    s.modDie g.die fun d =>
      { d with misses := d.misses.map fun m =>
          if m.samePage g.eff.troot va psize then
            { m with isW := m.isW || mine.isW, isX := m.isX || mine.isX, isSeq := m.isSeq || mine.isSeq,
                     npark := m.npark + 1, arms := m.arms ++ mine.arms }
          else m }
  else
    (s.modDie g.die fun d => { d with misses := d.misses ++ [mine] }).send (.walk g.die mine)

/-- One miss for each page of the lanes set aside (R78, R80). -/
def State.joinAll (s : State) (acc : Access) (copy : Bool) :
    List (Nat × Nat) → List (Nat × W64 × Nat) → State
  | _, [] => s
  | seen, (_, a, psize) :: rest =>
    let page := (psize, a.toNat / pageBytes psize)
    if seen.contains page then s.joinAll acc copy seen rest
    else (s.joinMiss acc copy a.toNat psize).joinAll acc copy (page :: seen) rest

/-- The set of lanes set aside. -/
def parkedMask (absent : List (Nat × W64 × Nat)) : Mask :=
  absent.foldl (fun m x => setBit m x.1 true) 0

/-- The arm parks at its instruction with the lanes set aside in its parked-lane mask; parked on its fetch,
it keeps what it has done of the instruction (R79, R243). -/
def State.park (s : State) (acc : Access) (copy : Bool) (absent : List (Nat × W64 × Nat)) : State :=
  (s.modCur fun g => g.mapMe fun a =>
    { a.enter s.clock .parked a.wreg a.waux with
      park := if acc = .fetch then a.park else parkedMask absent
      replay := acc == .fetch && a.replay
      parkFetch := acc == .fetch })
    |>.joinAll acc copy [] absent

/-- A place is homed on a gated memory die where an access waits already (R206). -/
def State.behind (s : State) (p : Place) : Bool :=
  match s.gated p with
  | some d => !(s.mdie d).held.isEmpty
  | none => false

/-- A memory die is in D0 again. -/
def State.wakeDie (s : State) (d : Nat) : State :=
  s.modMdie d fun x => { x with power := { x.power with state := 0 }, asked := false }

/-- An engine's or a buffer's access to a gated memory die, with none before it there, waits at the hub until the die has
woken for it (R206). -/
def State.wakeFor (s : State) (p : Place) : State :=
  match s.gated p with
  | some d => s.wakeDie d
  | none => s

/-- An access of an engine or of a buffer to n bytes at a place waits: for the publish step of a frozen frame (R82), for
room in the send window (R193), or behind other accesses at a gated memory die (R206). -/
def State.unitWaits (s : State) (p : Place) (n : Nat) : Bool :=
  s.frozenAt p || s.windowFull p 1 n || s.behind p

/-- One of several accesses of n bytes that leave together waits (R82, R193, R206). -/
def State.unitsWait (s : State) (ps : List Place) (n : Nat) : Bool :=
  ps.any fun p => s.unitWaits p n || s.windowFull p ((ps.filter fun q => s.portFor q == s.portFor p).length) n

/-! ### Values at a place -/

/-- n bytes at the places of a lane: a doubleword is read as its two words (R70). -/
def State.loadHit (s : State) (h : Hit) (size : Nat) : Nat :=
  if size = 8 then s.loadAt h.lo 4 + 2 ^ 32 * s.loadAt h.hi 4 else s.loadAt h.lo size

/-- n bytes stored at the places of a lane. -/
def State.storeHit (s : State) (h : Hit) (size v : Nat) : State :=
  if size = 8 then (s.storeAt h.lo 4 v).storeAt h.hi 4 (v / 2 ^ 32) else s.storeAt h.lo size v

/-- The translation that a lane uses was removed with its peer (R195, R390). -/
def State.removedHit (s : State) (h : Hit) : Bool :=
  match h.entry with
  | some e => (match h.lo with
    | .peer _ _ => s.gone.contains e
    | _ => false)
  | none => false

/-- The error that the data of a lane shows (R390, R392, R395). -/
def State.hitErr (s : State) (h : Hit) (size : Nat) : Option Nat :=
  if s.removedHit h then some 2
  else
    match s.readErr h.lo with
    | some d => some d
    | none => if size = 8 then s.readErr h.hi else none

/-- The requests of an operation's lanes to hosts and peers (R389, R390). -/
def State.farOf (s : State) (size : Nat) (hs : List Hit) : List Far :=
  hs.filterMap fun h =>
    if h.lo.away && (s.hitErr h size).isNone then some ⟨s.cur.sel, h.lane, h.addr, h.lo, size, s.loadHit h size, [], s.clock⟩
    else none

/-- A request of an atomic beside those before it: at a host location the lanes share one (R439). -/
def joinRequest (l : List Far) (x : Far) : List Far :=
  match x.place with
  | .host _ _ =>
    if l.any fun y => y.place == x.place then
      l.map fun y => if y.place == x.place then { y with also := y.also ++ [x.lane] } else y
    else l ++ [x]
  | _ => l ++ [x]

/-- The error of the lowest lane as a pending MCHECK (R391). -/
def State.laneErr (s : State) (size : Nat) : List Hit → Option MCheck
  | [] => none
  | h :: rest =>
    match s.hitErr h size with
    | some d => some ⟨s.cur.sel, h.addr, h.lane, d, s.clock⟩
    | none => s.laneErr size rest

/-- A lane's value, zero where the response reports an error (R391). -/
def State.laneVal (s : State) (h : Hit) (size : Nat) : Nat :=
  match s.hitErr h size with
  | some _ => 0
  | none => s.loadHit h size

/-- An instruction that is not performed lane by lane meets a translation that was removed with its peer: the MCHECK
of the first; else what follows (R195, R390). -/
def State.met (s : State) (hs : List Hit) (k : Eff) : Eff :=
  match hs.find? s.removedHit with
  | some h => .trap (s.forget hs) ⟨.mcheck, 2, h.addr, 0⟩
  | none => k

/-- The removed translation of an address has been met (R195). -/
def State.forgetAt (s : State) (w : View) (troot va : Nat) : State :=
  { s with gone := s.gone.filter fun e => !e.seen w troot va }

/-- A lane covers a byte of device memory. -/
def Hit.coversByte (h : Hit) (size pa : Nat) : Bool :=
  match h.lo, h.hi with
  | .dev lo, .dev hi =>
    if size = 8 then (decide (lo ≤ pa) && decide (pa < lo + 4)) || (decide (hi ≤ pa) && decide (pa < hi + 4))
    else decide (lo ≤ pa) && decide (pa < lo + size)
  | _, _ => false

/-- A line leaves the damaged-line list when the performed lanes of one store cover it (R392). -/
def State.clearCovered (s : State) (size : Nat) (hs : List Hit) : State :=
  hs.foldl (fun s h =>
    match h.lo with
    | .dev pa =>
      if (s.damaged pa || s.recordMarked (pa / 64 * 64)) && (List.range 64).all (fun i => hs.any fun x => x.coversByte size (pa / 64 * 64 + i))
      then s.rewritten (pa / 64 * 64) 64 else s
    | _ => s) s

/-! ### The fetch (R67, R79, R243, R392) -/

/-- What a fetch of 4 bytes answers. -/
inductive Fetched where
  | word (w : Nat) (hits : List Hit)
  | trap (t : Trap)
  | park (addr : W64) (psize : Nat)
  | frozen (gate : Option Nat)
  deriving DecidableEq, Repr

/-- The word at an address, for the thread that has the turn. -/
def State.fetchWord (s : State) (pc : W64) : Fetched :=
  if pc.toNat % 4 ≠ 0 then .trap ⟨.misalign, 2, pc, 0⟩
  else
    match s.reach .fetch true 4 0 pc 4 with
    | .fail c d => .trap (laneTrap c d 0 pc)
    | .absent psize => .park pc psize
    | .frozen d => .frozen d
    | .hit lo hi e =>
      match s.hitErr ⟨0, lo, hi, e, pc⟩ 4 with
      | some d => .trap ⟨.mcheck, d, pc, 0⟩
      | none => .word (s.loadAt lo 4) [⟨0, lo, hi, e, pc⟩]

end Sys2Proof.Machine
end

