-- ==== Sys2Proof/Machine/Damage.lean ====
section
/-!
DEFINITION. Device events, the regions that map a page, and a line that becomes damaged (R362, R369, R392).
-/

namespace Sys2Proof.Machine

/-! ### The regions that map a page (R369, R392, R422, R424) -/

/-- Words with a listed byte among the n doublewords from an address. -/
def listedWords (m : Memory) (a n : Nat) : List Nat :=
  (m.cells.filterMap fun c => if a ≤ c.1 ∧ c.1 < a + 8 * n then some ((c.1 - a) / 8) else none).eraseDups

/-- The leaf entries, each with its page size, below a table. -/
def State.leavesFrom (s : State) (psize : Nat) : List (Nat × Nat) → Nat → List (Nat × Nat)
  | [], _ => []
  | l :: rest, t =>
    (listedWords s.mem t (2 ^ (l.1 + 1 - l.2))).flatMap fun i =>
      let e := s.mem.rd (t + 8 * i) 8
      if e % 2 = 0 then []
      else if rest.isEmpty then (if (leafBad e psize).isNone then [(e, psize)] else [])
      else s.leavesFrom psize rest (bitsOf e 47 12 * 4096)

/-- The leaf entries under a root (R74 to R76). -/
def State.leaves (s : State) (troot : Nat) : List (Nat × Nat) :=
  (listedWords s.mem troot 16).flatMap fun i =>
    let zd := s.mem.rd (troot + 8 * i) 8
    let psize := bitsOf zd 2 1
    if zd % 2 = 0 ∨ psize = 3 then []
    else s.leavesFrom psize (walkLevels psize) (bitsOf zd 47 12 * 4096)

/-- Regions that map a device page, given by base and bytes, that satisfies a test (R23, R369). -/
def State.mappers (s : State) (p : Nat → Nat → Bool) : List Nat :=
  regionsWhere fun r => (s.leaves (s.eff r .troot)).any fun (e, psize) =>
    match leafPlace e psize 0 with
    | .dev a => p a (pageBytes psize)
    | _ => false

/-- A DEVICE fault for each region, with a LOC. -/
def State.charge (s : State) (rs : List Nat) (loc : Nat) : State :=
  rs.foldl (fun s r => s.regionFault (.plain .device r 0 0 loc) []) s

/-! ### Device events (R362): the kinds are the model's (log 25) -/

/-- Kinds of device event beside those of a record without a handler. -/
inductive EventKind where
  | scrub | listFull | refreshFail | throttle | unthrottle | emergency | trip | widthChange | fence
  | clusterLost | channelLost | alarm | complexFailed | recovery | portDown
  deriving DecidableEq, Repr

/-- Number of a kind. -/
def EventKind.code : EventKind → Nat
  | .scrub => 16 | .listFull => 17 | .refreshFail => 18 | .throttle => 19 | .unthrottle => 20
  | .emergency => 21 | .trip => 22 | .widthChange => 23 | .fence => 24 | .clusterLost => 25
  | .channelLost => 26 | .alarm => 27 | .complexFailed => 28 | .recovery => 29 | .portDown => 30

/-- A device event of a kind. -/
def State.note (s : State) (k : EventKind) (die detail : Nat) : State := s.logEvent k.code die detail

/-! ### A line becomes damaged (R392) -/

/-- A page holds an address. -/
def pageHolds (pa : Nat) (a n : Nat) : Bool := decide (a ≤ pa) && decide (pa < a + n)

/-- A line that becomes damaged enters its home's list; once the list is full the die logs an event, and the line is
charged to the regions that map its page (R392, R424). -/
def State.damageLine (s : State) (line : Nat) : State :=
  if s.damageFull line then
    (s.note .listFull (sectorOf line) line).charge (s.mappers (pageHolds line)) line
  else s.listDamage line

end Sys2Proof.Machine
end

