-- ==== Sys2Proof/Machine/Numbers.lean ====
section
/-!
DEFINITION. Element types, floating formats, rounding, NaN payloads and conversions (R129 to R144).
Elements are raw bit patterns held as numbers; finite values are exact before one rounding.
-/

namespace Sys2Proof.Machine

/-! ### Element types (R129) -/

/-- Elements per lane. -/
def etElems (et : Nat) : Nat :=
  match et with
  | 3 | 7 | 8 => 2
  | 4 | 5 | 9 | 10 => 4
  | _ => 1

/-- Element width in bits. -/
def etWidth (et : Nat) : Nat := 32 / etElems et

/-- The floating types. -/
def etFloat (et : Nat) : Bool := 6 ≤ et && et ≤ 10

/-- The unsigned integer types. -/
def etUnsigned (et : Nat) : Bool := et == 2 || et == 5

/-- The elements of a lane, element 0 first. -/
def splitLane (et : Nat) (x : W32) : List Nat :=
  (List.range (etElems et)).map fun j => x.toNat / 2 ^ (etWidth et * j) % 2 ^ etWidth et

/-- A lane from its elements, element 0 first. -/
def joinElems (w : Nat) : List Nat → Nat
  | [] => 0
  | e :: r => e % 2 ^ w + 2 ^ w * joinElems w r

/-- A lane from its elements. -/
def joinLane (et : Nat) (es : List Nat) : W32 := w32 (joinElems (etWidth et) es)

/-- The value of an integer element. -/
def intVal (et x : Nat) : Int :=
  let w := etWidth et
  if etUnsigned et || x < 2 ^ (w - 1) then (x : Int) else (x : Int) - 2 ^ w

/-- An integer wrapped into w bits. -/
def wrapInt (w : Nat) (v : Int) : Nat := (v % 2 ^ w).toNat

/-- Least and greatest values of an integer type, the full range (R134). -/
def intRange (et : Nat) : Int × Int :=
  let w := etWidth et
  if etUnsigned et then (0, 2 ^ w - 1) else (-(2 ^ (w - 1)), 2 ^ (w - 1) - 1)

/-- An integer clamped between two bounds. -/
def clampInt (lo hi v : Int) : Int := if v < lo then lo else if hi < v then hi else v

/-- An exact integer result brought into range: wrapped, or clamped under SAT (R134, R258). -/
def intResult (et : Nat) (sat : Bool) (v : Int) : Nat :=
  let (lo, hi) := intRange et
  wrapInt (etWidth et) (if sat then clampInt lo hi v else v)

/-- An integer saturated into a type's symmetric range (R138). -/
def intSaturate (et : Nat) (v : Int) : Nat :=
  let (lo, hi) := intRange et
  wrapInt (etWidth et) (clampInt (if etUnsigned et then lo else lo + 1) hi v)

/-! ### Floating formats (R130) -/

/-- A floating format: fraction bits, bias, greatest finite magnitude as bits, width. -/
structure Fmt where
  frac : Nat
  bias : Int
  maxBits : Nat
  width : Nat
  code : Nat
  deriving DecidableEq, Repr

/-- The format of a floating type. -/
def fmtOf (et : Nat) : Fmt :=
  match et with
  | 7 => ⟨10, 15, 0x7BFF, 16, 7⟩
  | 8 => ⟨7, 127, 0x7F7F, 16, 8⟩
  | 9 => ⟨3, 7, 0x7E, 8, 9⟩
  | 10 => ⟨2, 15, 0x7B, 8, 10⟩
  | _ => ⟨23, 127, 0x7F7FFFFF, 32, 6⟩

/-- FP32. -/
def fp32 : Fmt := fmtOf 6

/-- The format is an 8-bit one. -/
def Fmt.isFp8 (f : Fmt) : Bool := f.width == 8

/-- The sign bit as a number. -/
def Fmt.signBit (f : Fmt) (neg : Bool) : Nat := if neg then 2 ^ (f.width - 1) else 0

/-- Infinity; E4M3 has none (R130). -/
def Fmt.inf (f : Fmt) (neg : Bool) : Nat := f.signBit neg + f.maxBits + 1

/-- The greatest finite value. -/
def Fmt.maxFin (f : Fmt) (neg : Bool) : Nat := f.signBit neg + f.maxBits

/-- What an element is: m × 2^e with a sign, an infinity, or a NaN. -/
inductive FVal where
  | fin (neg : Bool) (m : Nat) (e : Int)
  | inf (neg : Bool)
  | nan (neg signalling : Bool) (bits : Nat)
  deriving DecidableEq, Repr

/-- The exponent of the format's least quantum. -/
def Fmt.qmin (f : Fmt) : Int := 1 - f.bias - (f.frac : Int)

/-- Reading an element (R130). -/
def Fmt.read (f : Fmt) (x : Nat) : FVal :=
  let neg := bitAt x (f.width - 1)
  let mag := x % 2 ^ (f.width - 1)
  if mag ≤ f.maxBits then
    let ex := mag / 2 ^ f.frac
    let fr := mag % 2 ^ f.frac
    if ex = 0 then .fin neg fr f.qmin else .fin neg (fr + 2 ^ f.frac) (f.qmin + (ex : Int) - 1)
  else if f.code ≠ 9 ∧ mag = f.maxBits + 1 then .inf neg
  else .nan neg (!f.isFp8 && !bitAt mag (f.frac - 1)) x

/-! ### NaNs (R135 to R137) -/

/-- Event codes (R135). -/
inductive Event where
  | none | infsub | zeroinf | sqrtneg | logneg | range | domain | scale | quiet
  deriving DecidableEq, Repr

/-- The code of an event. -/
def Event.code : Event → Nat
  | .none => 0 | .infsub => 1 | .zeroinf => 2 | .sqrtneg => 3 | .logneg => 4 | .range => 5
  | .domain => 6 | .scale => 7 | .quiet => 8

/-- Bits [17:2] of a PC. -/
def pcField (pc : Nat) : Nat := pc / 4 % 65536

/-- A quiet NaN with a sign, a code and, in FP32, a location; canonical in FP8 (R135, R137). -/
def Fmt.quietNan (f : Fmt) (neg : Bool) (code pc : Nat) : Nat :=
  f.signBit neg +
  match f.code with
  | 6 => 0x7FC00000 + code % 64 * 65536 + pcField pc
  | 7 => 0x7E00 + code % 64 * 8
  | 8 => 0x7FC0 + code % 64
  | _ => 0x7F

/-- A NaN that the device generates (R135). -/
def Fmt.newNan (f : Fmt) (ev : Event) (pc : Nat) : Nat := f.quietNan false ev.code pc

/-- The event code a NaN carries, a signalling one being quieted first (R136, R137). -/
def Fmt.nanCode (f : Fmt) (x : Nat) : Nat :=
  match f.code with
  | 6 => if bitAt x 22 then bitsOf x 21 16 else Event.quiet.code
  | 7 => if bitAt x 9 then bitsOf x 8 3 else Event.quiet.code
  | 8 => if bitAt x 6 then bitsOf x 5 0 else Event.quiet.code
  | _ => 0

/-- A NaN operand as a result of its own format: quieted, sign and payload kept; an FP8 NaN unchanged
(R136). -/
def Fmt.quieten (f : Fmt) (x : Nat) : Nat :=
  match f.code with
  | 6 => if bitAt x 22 then x else x / 2 ^ 23 * 2 ^ 23 + 2 ^ 22 + 8 * 2 ^ 16 + x % 2 ^ 16
  | 7 => if bitAt x 9 then x else x / 2 ^ 10 * 2 ^ 10 + 2 ^ 9 + 8 * 2 ^ 3 + x % 2 ^ 3
  | 8 => if bitAt x 6 then x else x / 2 ^ 7 * 2 ^ 7 + 2 ^ 6 + 8
  | _ => x

/-- A NaN of format f converted to format t (R137). -/
def Fmt.convertNan (f t : Fmt) (x pc : Nat) : Nat :=
  if f = t then f.quieten x
  else t.quietNan (bitAt x (f.width - 1)) (f.nanCode x) pc

/-! ### Rounding (R132 to R134) -/

/-- How a result is rounded: RM, SAT, the producing PC, and the 32 random bits of SR (R133). -/
structure RCtx where
  rm : Nat
  sat : Bool
  pc : Nat
  u : Nat
  deriving DecidableEq, Repr

/-- MIX of R133. -/
def mix (z : W64) : W64 :=
  let z := (z ^^^ (z >>> (30 : Nat))) * 0xBF58476D1CE4E5B9#64
  let z := (z ^^^ (z >>> (27 : Nat))) * 0x94D049BB133111EB#64
  z ^^^ (z >>> (31 : Nat))

/-- U of R133, for a word address (PC >> 2, plus the token in EXPR), a position and its factor. -/
def drawU (seed : W64) (rank srcnt wordAddr factor pos : Nat) : Nat :=
  (mix (seed ^^^ mix (w64 (rank * 2 ^ 32 + srcnt)) ^^^ mix (w64 (wordAddr % 2 ^ 32 * factor + pos)))).toNat
    / 2 ^ 32

/-- Whether the neighbour of greater magnitude is taken: k is the lesser one's integer, r the rest below
it out of 2^sh, and st says that the exact value lies above even that. -/
def roundUp (c : RCtx) (neg : Bool) (k r sh : Nat) (st : Bool) : Bool :=
  match c.rm with
  | 0 => decide (2 ^ sh < 2 * r) || (decide (2 * r = 2 ^ sh) && (st || k % 2 == 1))
  | 1 => false
  | 2 => (decide (r ≠ 0) || st) && !neg
  | 3 => (decide (r ≠ 0) || st) && neg
  | 4 => decide (2 ^ sh ≤ 2 * r)
  | _ => decide (c.u < r * 2 ^ 32 / 2 ^ sh)

/-- Overflow after rounding (R134). -/
def Fmt.overflow (f : Fmt) (c : RCtx) (neg : Bool) : Nat :=
  if c.sat || f.code == 9 then f.maxFin neg
  else
    match c.rm with
    | 1 => f.maxFin neg
    | 2 => if neg then f.maxFin neg else f.inf neg
    | 3 => if neg then f.inf neg else f.maxFin neg
    | _ => f.inf neg

/-- An exact magnitude m × 2^e, or one just above it when st, rounded once into a format (R132). -/
def Fmt.round (f : Fmt) (c : RCtx) (neg : Bool) (m : Nat) (e : Int) (st : Bool) : Nat :=
  if m = 0 then f.signBit neg
  else
    let top := (Nat.log2 m : Int) + e
    let q := if top - (f.frac : Int) < f.qmin then f.qmin else top - (f.frac : Int)
    let sh := (q - e).toNat
    let k := if q ≤ e then m * 2 ^ (e - q).toNat else m / 2 ^ sh
    let r := if q ≤ e then 0 else m % 2 ^ sh
    let k' := if roundUp c neg k r sh st then k + 1 else k
    let mag := (q - f.qmin).toNat * 2 ^ f.frac + k'
    if f.maxBits < mag then f.overflow c neg else f.signBit neg + mag

/-- An exact magnitude rounded to an integer (R132). -/
def roundToInt (c : RCtx) (neg : Bool) (m : Nat) (e : Int) : Nat :=
  if 0 ≤ e then m * 2 ^ e.toNat
  else
    let sh := (-e).toNat
    let k := m / 2 ^ sh
    if roundUp c neg k (m % 2 ^ sh) sh false then k + 1 else k

/-! ### Exact sums (R141) -/

/-- A signed exact value v × 2^e. -/
structure Exact where
  v : Int
  e : Int
  deriving DecidableEq, Repr

/-- A finite value as an exact one. -/
def exactOf (neg : Bool) (m : Nat) (e : Int) : Exact := ⟨if neg then -(m : Int) else m, e⟩

/-- The exact sum of two values. -/
def Exact.add (a b : Exact) : Exact :=
  if a.e ≤ b.e then ⟨a.v + b.v * 2 ^ (b.e - a.e).toNat, a.e⟩
  else ⟨a.v * 2 ^ (a.e - b.e).toNat + b.v, b.e⟩

/-- The exact product of two values. -/
def Exact.mul (a b : Exact) : Exact := ⟨a.v * b.v, a.e + b.e⟩

/-- An exact value rounded; zero takes the sign given. -/
def Fmt.roundExact (f : Fmt) (c : RCtx) (x : Exact) (zeroNeg : Bool) : Nat :=
  if x.v = 0 then f.signBit zeroNeg else f.round c (decide (x.v < 0)) x.v.natAbs x.e false

/-- A term of an exact sum: a value, an infinity, or a NaN already as the result holds it. -/
inductive Term where
  | fin (neg : Bool) (m : Nat) (e : Int)
  | inf (neg : Bool)
  | nan (bits : Nat)
  deriving DecidableEq, Repr

/-- The first NaN of the terms. -/
def firstNan : List Term → Option Nat
  | [] => none
  | .nan b :: _ => some b
  | _ :: r => firstNan r

/-- Some term is an infinity of the sign. -/
def hasInf (neg : Bool) (ts : List Term) : Bool := ts.any fun t => t == .inf neg

/-- The exact sum of the finite terms. -/
def sumFin : List Term → Exact
  | [] => ⟨0, 0⟩
  | .fin neg m e :: r => (exactOf neg m e).add (sumFin r)
  | _ :: r => sumFin r

/-- Every term is −0. -/
def allNegZero (ts : List Term) : Bool :=
  ts.all fun t => match t with
    | .fin neg m _ => neg && m == 0
    | _ => false

/-- ROUND of an exact sum with the special values of R141: the first NaN, INFSUB, an infinity, the sum;
a zero sum is −0 only if every term is. -/
def Fmt.sum (f : Fmt) (c : RCtx) (ts : List Term) : Nat :=
  match firstNan ts with
  | some b => b
  | none =>
    if hasInf false ts && hasInf true ts then f.newNan .infsub c.pc
    else if hasInf false ts then f.inf false
    else if hasInf true ts then f.inf true
    else f.roundExact c (sumFin ts) (!ts.isEmpty && allNegZero ts)

/-- An element as a term, its NaN converted to the result's format (R136, R137). -/
def Fmt.term (f t : Fmt) (pc x : Nat) : Term :=
  match f.read x with
  | .fin neg m e => .fin neg m e
  | .inf neg => .inf neg
  | .nan _ _ b => .nan (f.convertNan t b pc)

/-! ### Element arithmetic (R262, R263) -/

/-- The first NaN of the operands, quieted (R136). -/
def Fmt.nanOf (f : Fmt) : List Nat → Option Nat
  | [] => none
  | x :: r =>
    match f.read x with
    | .nan _ _ b => some (f.quieten b)
    | _ => f.nanOf r

/-- a + b with the sign of an exactly zero sum (R262). -/
def Fmt.addVals (f : Fmt) (c : RCtx) (a b : FVal) : Nat :=
  match a, b with
  | .inf na, .inf nb => if na = nb then f.inf na else f.newNan .infsub c.pc
  | .inf na, _ => f.inf na
  | _, .inf nb => f.inf nb
  | .fin na ma ea, .fin nb mb eb =>
    let zeroNeg := (na && nb && ma == 0 && mb == 0) || c.rm == 3
    f.roundExact c ((exactOf na ma ea).add (exactOf nb mb eb)) zeroNeg
  | .nan _ _ x, _ => f.quieten x
  | _, .nan _ _ x => f.quieten x

/-- VFADD of one element (R262). -/
def Fmt.fadd (f : Fmt) (c : RCtx) (a b : Nat) : Nat :=
  match f.nanOf [a, b] with
  | some x => x
  | none => f.addVals c (f.read a) (f.read b)

/-- The value negated. -/
def FVal.neg : FVal → FVal
  | .fin n m e => .fin (!n) m e
  | .inf n => .inf (!n)
  | .nan n s b => .nan n s b

/-- VFSUB of one element (R262). -/
def Fmt.fsub (f : Fmt) (c : RCtx) (a b : Nat) : Nat :=
  match f.nanOf [a, b] with
  | some x => x
  | none => f.addVals c (f.read a) (f.read b).neg

/-- The exact product; none is 0 × ∞. -/
def mulVals (a b : FVal) : Option FVal :=
  match a, b with
  | .fin na ma ea, .fin nb mb eb => some (.fin (na != nb) (ma * mb) (ea + eb))
  | .inf na, .fin nb mb _ => if mb = 0 then none else some (.inf (na != nb))
  | .fin na ma _, .inf nb => if ma = 0 then none else some (.inf (na != nb))
  | .inf na, .inf nb => some (.inf (na != nb))
  | .nan n s x, _ => some (.nan n s x)
  | _, .nan n s x => some (.nan n s x)

/-- A value rounded. -/
def Fmt.roundVal (f : Fmt) (c : RCtx) : FVal → Nat
  | .fin neg m e => f.round c neg m e false
  | .inf neg => f.inf neg
  | .nan _ _ x => f.quieten x

/-- VFMUL of one element (R262). -/
def Fmt.fmul (f : Fmt) (c : RCtx) (a b : Nat) : Nat :=
  match f.nanOf [a, b] with
  | some x => x
  | none =>
    match mulVals (f.read a) (f.read b) with
    | some v => f.roundVal c v
    | none => f.newNan .zeroinf c.pc

/-- VFMA of one element: one rounding; NaN before ZEROINF before INFSUB (R262). -/
def Fmt.fma (f : Fmt) (c : RCtx) (a b d : Nat) : Nat :=
  match f.nanOf [a, b, d] with
  | some x => x
  | none =>
    match mulVals (f.read a) (f.read b) with
    | some v => f.addVals c v (f.read d)
    | none => f.newNan .zeroinf c.pc

/-- Order key of a value, −0 below +0. -/
def Fmt.key (f : Fmt) (x : Nat) : Int :=
  let mag := x % 2 ^ (f.width - 1)
  if bitAt x (f.width - 1) then -(mag : Int) - 1 else mag

/-- VFMIN of one element (R262, R136). -/
def Fmt.fmin (f : Fmt) (a b : Nat) : Nat :=
  match f.nanOf [a, b] with
  | some x => x
  | none => if f.key b < f.key a then b else a

/-- VFMAX of one element. -/
def Fmt.fmax (f : Fmt) (a b : Nat) : Nat :=
  match f.nanOf [a, b] with
  | some x => x
  | none => if f.key a < f.key b then b else a

/-- A value rounded towards zero, clamped to ±300 (R263). -/
def scaleInt : FVal → Int
  | .fin neg m e =>
    let k : Int := if 0 ≤ e then (if 9 ≤ e ∧ m ≠ 0 then 300 else m * 2 ^ e.toNat) else (m / 2 ^ (-e).toNat : Nat)
    let k' := clampInt 0 300 k
    if neg then -k' else k'
  | .inf neg => if neg then -300 else 300
  | .nan _ _ _ => 0

/-- VFSCALE of one element (R263). -/
def Fmt.fscale (f : Fmt) (c : RCtx) (a b : Nat) : Nat :=
  match f.nanOf [a, b] with
  | some x => x
  | none =>
    match f.read a with
    | .fin neg m e => f.round c neg m (e + scaleInt (f.read b)) false
    | v => f.roundVal c v

/-- VFCMP of one element: LT, EQ or GT, none when a NaN takes part; −0 equals +0 (R261). -/
def Fmt.compare (f : Fmt) (a b : Nat) : Option Int :=
  match f.read a, f.read b with
  | .nan _ _ _, _ => none
  | _, .nan _ _ _ => none
  | _, _ =>
    let val (x : Nat) : Int :=
      let mag : Int := (x % 2 ^ (f.width - 1) : Nat)
      if bitAt x (f.width - 1) then -mag else mag
    some (val a - val b)

/-- VFCLASS of one element (R270). -/
def Fmt.classify (f : Fmt) (x : Nat) : Nat :=
  match f.read x with
  | .inf neg => if neg then 0 else 7
  | .nan _ signalling b => if signalling then 8 else 9 + f.nanCode b * 16
  | .fin neg m _ =>
    if m = 0 then (if neg then 3 else 4)
    else if m < 2 ^ f.frac then (if neg then 2 else 5)
    else if neg then 1 else 6

/-! ### Conversions (R137, R138, R267, R271) -/

/-- What an element of any type is worth. -/
def readElem (et x : Nat) : FVal :=
  if etFloat et then (fmtOf et).read x
  else
    let v := intVal et x
    .fin (decide (v < 0)) v.natAbs 0

/-- NaN converted to an integer type (R138). -/
def intNan (et : Nat) : Nat := if etUnsigned et then 0 else 2 ^ (etWidth et - 1)

/-- An exact value rounded and saturated into an integer type (R138). -/
def toInt (c : RCtx) (et : Nat) : FVal → Nat
  | .fin neg m e =>
    let big := (64 : Int) ≤ (Nat.log2 m : Int) + e
    let k : Int := if m = 0 then 0 else if big then 2 ^ 64 else roundToInt c neg m e
    intSaturate et (if neg then -k else k)
  | .inf neg => intSaturate et (if neg then -(2 ^ 64) else 2 ^ 64)
  | .nan _ _ _ => intNan et

/-- A value of a source type into a floating type: rounding, R134, R137, R138. -/
def toFloat (c : RCtx) (src et : Nat) : FVal → Nat
  | .fin neg m e => (fmtOf et).round c neg m e false
  | .inf neg => if et = 9 then (fmtOf 9).signBit neg + (if c.sat then 0x7E else 0x7F) else (fmtOf et).inf neg
  | .nan _ _ x => (fmtOf src).convertNan (fmtOf et) x c.pc

/-- A value of a source type into any type, as RAW32 into I32. -/
def toElem (c : RCtx) (src et : Nat) (v : FVal) : Nat :=
  if etFloat et then toFloat c src et v else toInt c et v

/-- CONVERT(x, T) (R267): bits copied when T is RAW32 or the source's type. -/
def convert (c : RCtx) (src et x : Nat) : Nat :=
  if et = 0 ∨ et = src then x
  else if !etFloat src && !etFloat et then intSaturate et (intVal src x)
  else toElem c src et (readElem src x)

/-- The type of a source: a RAW32 tag is read as ET (R267). -/
def srcType (tag et : Nat) : Nat := if tag = 0 then et else tag

/-- An element of a floating type rounded to an integral value of that type's scale (R271). -/
def integral (c : RCtx) : FVal → FVal
  | .fin neg m e => if 0 ≤ e then .fin neg m e else .fin neg (roundToInt c neg m e) 0
  | v => v

/-- VRND of one element (R271): under an integer ET as VCVT; a special value of ET's own type stays. -/
def roundElem (c : RCtx) (src et x : Nat) : Nat :=
  if !etFloat et || !etFloat src then convert c src et x
  else
    match (fmtOf src).read x with
    | .fin neg m e => toFloat c src et (integral c (.fin neg m e))
    | v => if src = et then x else toFloat c src et v

/-- A valid scale: positive, normal and finite (R140). -/
def validScale (x : Nat) : Bool := 0x00800000 ≤ x && x ≤ 0x7F7FFFFF

/-- The result of an invalid scale (R140). -/
def scaleNan (et pc : Nat) : Nat := if etFloat et then (fmtOf et).newNan .scale pc else intNan et

/-- x × s with a single rounding into a type (R140, R269). -/
def scaled (c : RCtx) (src et x scale : Nat) : Nat :=
  if !validScale scale then scaleNan et c.pc
  else
    match readElem src x, fp32.read scale with
    | .fin neg m e, .fin _ ms es => toElem c src et (.fin neg (m * ms) (e + es))
    | v, _ => toElem c src et v

end Sys2Proof.Machine
end

