-- ==== Sys2Proof/Machine/Sfu.lean ====
section
/-!
DEFINITION. Special functions (R265, R145): special arguments exact, VSQRT correctly rounded, the others
a free value within the stated bound of a high-precision value (log 7).
-/

namespace Sys2Proof.Machine

/-- Function numbers: the fn of major 0x18. -/
inductive SfuFn where
  | rcp | rsq | sqrt | exp2 | log2 | sin | cos | tanh
  deriving DecidableEq, Repr

/-- The fn value (R221). -/
def SfuFn.code : SfuFn → Nat
  | .rcp => 0 | .rsq => 1 | .sqrt => 2 | .exp2 => 3 | .log2 => 4 | .sin => 5 | .cos => 6 | .tanh => 7

/-- π × 2^320. -/
def piFix : Nat :=
  0x3243f6a8885a308d313198a2e03707344a4093822299f31d0082efa98ec4e6c89452821e638d01377
/-- ln 2 × 2^256. -/
def ln2Fix : Nat := 0xb17217f7d1cf79abc9e3b39803f2f6af40f343267298b62d8a0d175b8baafa2b
/-- log2 e × 2^256. -/
def log2eFix : Nat := 0x171547652b82fe1777d0ffda0d23a7d11d6aef551bad2b4b1164a2cd9a342648f

/-- The integer square root, bit by bit from bit i − 1. -/
def isqrtFrom (n : Nat) : Nat → Nat → Nat
  | 0, r => r
  | i + 1, r => isqrtFrom n i (if (r + 2 ^ i) * (r + 2 ^ i) ≤ n then r + 2 ^ i else r)

/-- The integer square root. -/
def isqrt (n : Nat) : Nat := isqrtFrom n (Nat.log2 n / 2 + 1) 0

/-- Σ y^j ÷ j! from term number k on, in fixed point of 256 bits. -/
def expSeries (y : Nat) : Nat → Nat → Nat → Nat
  | 0, _, _ => 0
  | n + 1, k, t => t + expSeries y n (k + 1) (t * y / 2 ^ 256 / (k + 1))

/-- 2^f for a fraction f of 256 bits. -/
def exp2Frac (f : Nat) : Nat := expSeries (f * ln2Fix / 2 ^ 256) 64 0 (2 ^ 256)

/-- An approximation A × 2^e of a real magnitude, with its sign. -/
structure Approx where
  neg : Bool
  a : Nat
  e : Int
  deriving DecidableEq, Repr

/-- A real as an integer of n fraction bits. -/
def fixOf (n : Nat) (neg : Bool) (m : Nat) (e : Int) : Int :=
  let k : Nat := if 0 ≤ e + n then m * 2 ^ (e + n).toNat else m / 2 ^ (-(e + n)).toNat
  if neg then -(k : Int) else k

/-- 2^x for |x| < 2^11. -/
def approxExp2 (x : Int) : Approx :=
  let n := x / 2 ^ 256
  ⟨false, exp2Frac (x % 2 ^ 256).toNat, n - 256⟩

/-- The fraction bits of log2 of z in [1, 2), by repeated squaring. -/
def log2Bits : Nat → Nat → Nat → Nat
  | 0, _, acc => acc
  | n + 1, z, acc =>
    let q := z * z / 2 ^ 128
    if 2 ^ 129 ≤ q then log2Bits n (q / 2) (2 * acc + 1) else log2Bits n q (2 * acc)

/-- log2 of m × 2^e. -/
def approxLog2 (m : Nat) (e : Int) : Approx :=
  let l := Nat.log2 m
  let z := m * 2 ^ 128 / 2 ^ l
  let v : Int := ((l : Int) + e) * 2 ^ 112 + (log2Bits 112 z 0 : Nat)
  ⟨decide (v < 0), v.natAbs, -112⟩

/-- Σ (−1)^j r^(2j + s) ÷ (2j + s)! in fixed point of 320 bits, from term t = r^k ÷ k! on. -/
def trigSeries (r2 : Nat) : Nat → Nat → Int → Int
  | 0, _, _ => 0
  | n + 1, k, t => t + trigSeries r2 n (k + 2) (-(t * r2 / 2 ^ 320 / ((k + 1) * (k + 2))))

/-- sin (quadrant shift 0) or cos (1) of an angle of 320 fraction bits. -/
def approxTrig (shift : Nat) (x : Int) : Approx :=
  let half := piFix / 2
  let q := (x.natAbs / half + shift) % 4
  let r := x.natAbs % half
  let r2 := r * r / 2 ^ 320
  let v : Int := if q % 2 = 0 then trigSeries r2 48 1 r else trigSeries r2 48 0 (2 ^ 320)
  let v := if 2 ≤ q then -v else v
  let v := if shift = 0 ∧ x < 0 then -v else v
  ⟨decide (v < 0), v.natAbs, -320⟩

/-- tanh of a positive magnitude m × 2^e. -/
def approxTanh (neg : Bool) (m : Nat) (e : Int) : Approx :=
  let x := if (6 : Int) ≤ (Nat.log2 m : Int) + e then 64 * 2 ^ 256 else (fixOf 256 false m e).toNat
  let y := 2 * x * log2eFix / 2 ^ 256
  let ex := exp2Frac (y % 2 ^ 256) * 2 ^ (y / 2 ^ 256)
  let one := 2 ^ 256
  ⟨neg, (ex - one) * one / (ex + one), -256⟩

/-- 1 ÷ (m × 2^e). -/
def approxRcp (neg : Bool) (m : Nat) (e : Int) : Approx :=
  let n := Nat.log2 m + 96
  ⟨neg, 2 ^ n / m, -(n : Int) - e⟩

/-- 1 ÷ √(m × 2^e). -/
def approxRsq (m : Nat) (e : Int) : Approx :=
  let m' := if e % 2 = 0 then m else 2 * m
  let e' := if e % 2 = 0 then e else e - 1
  let n := Nat.log2 m' + 96
  ⟨false, isqrt (2 ^ (2 * n) / m'), -(n : Int) - e' / 2⟩

/-- √(m × 2^e) correctly rounded. -/
def Fmt.sqrtRound (f : Fmt) (c : RCtx) (m : Nat) (e : Int) : Nat :=
  let m' := (if e % 2 = 0 then m else 2 * m) * 2 ^ 128
  let e' := if e % 2 = 0 then e else e - 1
  let r := isqrt m'
  f.round c false r (e' / 2 - 64) (decide (r * r ≠ m'))

/-- Distance of a candidate from the approximation is within n quanta of the result's binade, or within
the absolute bound 2^−22 where that applies (R265). -/
def Fmt.within (f : Fmt) (n : Nat) (abs22 : Bool) (x : Approx) (cand : Nat) : Bool :=
  match f.read (cand % 2 ^ f.width) with
  | .fin neg m e =>
    let d := (exactOf neg m e).add (exactOf (!x.neg) x.a x.e)
    let top := (Nat.log2 x.a : Int) + x.e
    let q := if top - (f.frac : Int) < f.qmin then f.qmin else top - (f.frac : Int)
    let le (bound : Exact) : Bool := decide ((bound.add ⟨-(d.v.natAbs : Int), d.e⟩).v ≥ 0)
    le ⟨n, q⟩ || (abs22 && le ⟨1, -22⟩)
  | _ => false

/-- The result of a function with a bound: the free value where it is within it, else the nearest; overflow
by R134 as under RNE, for R265 has these functions ignore RM (DESIGN CHOICE, log 7). -/
def Fmt.pick (f : Fmt) (c : RCtx) (fn : SfuFn) (arg n : Nat) (abs22 : Bool) (x : Approx) : Nat :=
  let near := f.round { c with rm := 0 } x.neg x.a x.e false
  let cand := Config.sfuChoice fn.code f.code arg % 2 ^ f.width
  if near % 2 ^ (f.width - 1) ≤ f.maxBits ∧ f.within n abs22 x cand then cand else near

/-- The quanta of the bound: 1 for FP16 and BF16, the table's for FP32 (R265). -/
def Fmt.quanta (f : Fmt) (n : Nat) : Nat := if f.code = 6 then n else 1

/-- A power of two: its exponent. -/
def pow2Exp (m : Nat) (e : Int) : Option Int :=
  if m = 2 ^ Nat.log2 m then some ((Nat.log2 m : Int) + e) else none

/-- The value 2^k in a format, nearest where it has none, whatever RM is (DESIGN CHOICE, log 7). -/
def Fmt.pow2 (f : Fmt) (c : RCtx) (neg : Bool) (k : Int) : Nat := f.round { c with rm := 0 } neg 1 k false

/-- The reciprocal (R265). -/
def Fmt.rcp (f : Fmt) (c : RCtx) (arg : Nat) : Nat :=
  match f.read arg with
  | .nan _ _ x => f.quieten x
  | .inf neg => f.signBit neg
  | .fin neg m e =>
    if m = 0 then f.inf neg
    else
      match pow2Exp m e with
      | some k => f.pow2 c neg (-k)
      | none => f.pick c .rcp arg (f.quanta 1) false (approxRcp neg m e)

/-- The reciprocal square root (R265). -/
def Fmt.rsq (f : Fmt) (c : RCtx) (arg : Nat) : Nat :=
  match f.read arg with
  | .nan _ _ x => f.quieten x
  | .inf neg => if neg then f.newNan .sqrtneg c.pc else 0
  | .fin neg m e =>
    if m = 0 then f.inf neg
    else if neg then f.newNan .sqrtneg c.pc
    else f.pick c .rsq arg (f.quanta 1) false (approxRsq m e)

/-- The square root, correctly rounded by RM (R265). -/
def Fmt.sqrt (f : Fmt) (c : RCtx) (arg : Nat) : Nat :=
  match f.read arg with
  | .nan _ _ x => f.quieten x
  | .inf neg => if neg then f.newNan .sqrtneg c.pc else f.inf false
  | .fin neg m e =>
    if m = 0 then f.signBit neg
    else if neg then f.newNan .sqrtneg c.pc
    else f.sqrtRound c m e

/-- 2 to a power; exact for an integer power (R265). -/
def Fmt.exp2 (f : Fmt) (c : RCtx) (arg : Nat) : Nat :=
  match f.read arg with
  | .nan _ _ x => f.quieten x
  | .inf neg => if neg then 0 else f.inf false
  | .fin neg m e =>
    if m = 0 then f.pow2 c false 0
    else if (11 : Int) ≤ (Nat.log2 m : Int) + e then f.pow2 c false (if neg then -2048 else 2048)
    else
      let x := fixOf 256 neg m e
      if x % 2 ^ 256 = 0 ∧ x ≠ 0 then f.pow2 c false (x / 2 ^ 256)
      else f.pick c .exp2 arg (f.quanta 2) false (approxExp2 x)

/-- The logarithm to base 2; exact for a power of two (R265). -/
def Fmt.log2 (f : Fmt) (c : RCtx) (arg : Nat) : Nat :=
  match f.read arg with
  | .nan _ _ x => f.quieten x
  | .inf neg => if neg then f.newNan .logneg c.pc else f.inf false
  | .fin neg m e =>
    if m = 0 then f.inf true
    else if neg then f.newNan .logneg c.pc
    else
      match pow2Exp m e with
      | some k => f.round { c with rm := 0 } (decide (k < 0)) k.natAbs 0 false
      | none =>
        let top := (Nat.log2 m : Int) + e
        f.pick c .log2 arg (f.quanta 2) (f.code == 6 && (top == -1 || top == 0)) (approxLog2 m e)

/-- |x| > 2^18 (R145). -/
def beyondRange (m : Nat) (e : Int) : Bool :=
  decide (0 < ((exactOf false m e).add ⟨-(2 ^ 18), 0⟩).v)

/-- The sine, in radians (R145, R265). -/
def Fmt.sin (f : Fmt) (c : RCtx) (arg : Nat) : Nat :=
  match f.read arg with
  | .nan _ _ x => f.quieten x
  | .inf _ => f.newNan .range c.pc
  | .fin neg m e =>
    if m = 0 then f.signBit neg
    else if beyondRange m e then f.newNan .range c.pc
    else f.pick c .sin arg (f.quanta 1) false (approxTrig 0 (fixOf 320 neg m e))

/-- The cosine, in radians (R145, R265). -/
def Fmt.cos (f : Fmt) (c : RCtx) (arg : Nat) : Nat :=
  match f.read arg with
  | .nan _ _ x => f.quieten x
  | .inf _ => f.newNan .range c.pc
  | .fin neg m e =>
    if m = 0 then f.pow2 c false 0
    else if beyondRange m e then f.newNan .range c.pc
    else f.pick c .cos arg (f.quanta 1) false (approxTrig 1 (fixOf 320 neg m e))

/-- The hyperbolic tangent (R265). -/
def Fmt.tanh (f : Fmt) (c : RCtx) (arg : Nat) : Nat :=
  match f.read arg with
  | .nan _ _ x => f.quieten x
  | .inf neg => f.pow2 c neg 0
  | .fin neg m e =>
    if m = 0 then f.signBit neg
    else f.pick c .tanh arg (f.quanta 2) false (approxTanh neg m e)

/-- One element of a special function. -/
def SfuFn.eval (fn : SfuFn) (f : Fmt) (c : RCtx) (arg : Nat) : Nat :=
  match fn with
  | .rcp => f.rcp c arg
  | .rsq => f.rsq c arg
  | .sqrt => f.sqrt c arg
  | .exp2 => f.exp2 c arg
  | .log2 => f.log2 c arg
  | .sin => f.sin c arg
  | .cos => f.cos c arg
  | .tanh => f.tanh c arg

end Sys2Proof.Machine
end

