-- ==== Sys2Proof/Machine/Vector.lean ====
section
/-!
DEFINITION. Vector, predicate, expression and special-function instructions: majors 0x12 to 0x1C (R254
to R277).
-/

namespace Sys2Proof.Machine

/-! ### Elements and rounding contexts -/

/-- Element j of a lane. -/
def elemOf (et : Nat) (x : W32) (j : Nat) : Nat := x.toNat / 2 ^ (etWidth et * j) % 2 ^ etWidth et

/-- The rounding context of element j of lane k for a result of a type, at token tok of EXPR (R133,
R277). -/
def Group.rctx (g : Group) (et tok k j : Nat) : RCtx :=
  let a := g.me
  { rm := g.rm
    sat := g.sat
    pc := a.pc.toNat
    u := if g.rm = 5 then
        drawU g.eff.seed g.rank.toNat a.srcnt.toNat (a.pc.toNat / 4 + tok)
          (if etElems et = 1 then 128 else 512) (if etElems et = 1 then k else k * 4 + j)
      else 0 }

/-- SRCNT after an instruction that rounds under SR (R133). -/
def Group.countSr (g : Group) (rounds : Bool) : Group :=
  if rounds && g.rm == 5 then g.mapMe fun a => { a with srcnt := a.srcnt + 1 } else g

/-- A value for each taking-part lane; the others are not used. -/
def overLanes (m : Mask) (f : Nat → W32) : List W32 :=
  (List.range 96).map fun k => if m.getLsbD k then f k else 0

/-- Lane k of a v register. -/
def Group.lane (g : Group) (n k : Nat) : W32 := vget (g.vreg n).lanes k 0

/-- The tag of a v register. -/
def Group.tag (g : Group) (n : Nat) : Nat := (g.vreg n).tag

/-- One lane, element by element: f of the context and the elements of a, b and d. -/
def Group.elemwise (g : Group) (k : Nat) (f : RCtx → Nat → Nat → Nat → Nat) (a b d : W32) : W32 :=
  let et := g.et
  joinLane et ((List.range (etElems et)).map fun j =>
    f (g.rctx et 0 k j) (elemOf et a j) (elemOf et b j) (elemOf et d j))

/-! ### Families of element types (R254) -/

/-- VARITH and VCMP. -/
def etsInt : List Nat := [0, 1, 2, 3, 4, 5]
/-- Every type but I64. -/
def etsAny : List Nat := [0, 1, 2, 3, 4, 5, 6, 7, 8, 9, 10]
/-- VFCMP, VFLOAT, VFCLASS. -/
def etsFloat : List Nat := [6, 7, 8, 9, 10]
/-- VDOT. -/
def etsDot : List Nat := [7, 8, 9, 10]
/-- VSFU. -/
def etsSfu : List Nat := [6, 7, 8]

/-- The tags a source may have: ET or RAW32 (R131). -/
def Group.okTags (g : Group) : List Nat := [g.et, 0]

/-! ### Forms -/

/-- d V, a V, b V. acc: d is a source too; tagged: sources' tags are checked (R131, R255). -/
def preV2 (g : Group) (ets : List Nat) (rm acc tagged : Bool) (d a b : Nat) (ea eb : Bool) : Pre :=
  { vs := [d, a, b]
    ets := some ets
    readsRm := rm
    srcs := (if acc then blocking [.v d] else []) ++ g.srcA ea a [.v a] ++ g.srcB eb b [.v b] ++ g.laneSrcs
    dests := [.v d]
    tags := if tagged then
        tagTrap ((if acc then [(3, g.tag d, g.okTags)] else []) ++
          [(1, g.tag a, g.okTags), (2, g.tag b, g.okTags)])
      else none }

/-- An element-wise operation on a, b and the old d (R258 to R263). -/
def vec2 (ets : List Nat) (rm acc tagged : Bool) (f : Nat → RCtx → Nat → Nat → Nat → Nat)
    (d a b : Nat) (ea eb : Bool) (s : State) : Host.Outcome State Fault Refusal :=
  issue 4 (preV2 s.cur ets rm acc tagged d a b ea eb)
    (doneG fun g =>
      (g.putV d g.active
        (overLanes g.active fun k => g.elemwise k (f g.et) (g.lane a k) (g.lane b k) (g.lane d k))
        g.et).countSr rm) s

/-- d V, a V. -/
def preV1 (g : Group) (ets : List Nat) (rm tagged : Bool) (d a : Nat) (ea : Bool) : Pre :=
  { vs := [d, a]
    ets := some ets
    readsRm := rm
    srcs := g.srcA ea a [.v a] ++ g.laneSrcs
    dests := [.v d]
    tags := if tagged then tagTrap [(1, g.tag a, g.okTags)] else none }

/-- An element-wise operation on a. -/
def vec1 (ets : List Nat) (tagged : Bool) (f : Nat → Bool → Nat → Nat) (d a : Nat) (ea : Bool)
    (s : State) : Host.Outcome State Fault Refusal :=
  issue 4 (preV1 s.cur ets false tagged d a ea)
    (doneG fun g =>
      g.putV d g.active
        (overLanes g.active fun k => g.elemwise k (fun c x _ _ => f g.et c.sat x) (g.lane a k) 0 0) g.et) s

/-! ### Integer and bitwise elements (R258 to R260) -/

/-- An exact integer operation brought into range (R258). -/
def intOp (f : Int → Int → Int → Int) (et : Nat) (c : RCtx) (a b d : Nat) : Nat :=
  intResult et c.sat (f (intVal et a) (intVal et b) (intVal et d))

/-- VMULH: the upper half of the product (R258). -/
def mulhElem (et : Nat) (_c : RCtx) (a b _d : Nat) : Nat :=
  wrapInt (etWidth et) (intVal et a * intVal et b / 2 ^ etWidth et)

/-- Arithmetic right shift of an element (R259). -/
def sraElem (et a n : Nat) : Nat :=
  let w := etWidth et
  let v : Int := if a < 2 ^ (w - 1) then (a : Int) else (a : Int) - 2 ^ w
  wrapInt w (v / 2 ^ n)

/-- VNEG of an element (R260). -/
def negElem (et : Nat) (sat : Bool) (x : Nat) : Nat :=
  if etFloat et then x ^^^ 2 ^ (etWidth et - 1) else intResult et sat (-(intVal et x))

/-- VABS of an element (R260). -/
def absElem (et : Nat) (sat : Bool) (x : Nat) : Nat :=
  if etFloat et then x % 2 ^ (etWidth et - 1) else intResult et sat (intVal et x).natAbs

/-- VCLZ of an element (R260). -/
def clzElem (et x : Nat) : Nat := if x = 0 then etWidth et else etWidth et - 1 - Nat.log2 x

/-! ### Meanings: VARITH -/

/-- VADD (R258). -/
def execVadd (d a b : Nat) (ea eb : Bool) (s : State) : Host.Outcome State Fault Refusal :=
  vec2 etsInt false false true (intOp fun a b _ => a + b) d a b ea eb s

/-- VSUB (R258). -/
def execVsub (d a b : Nat) (ea eb : Bool) (s : State) : Host.Outcome State Fault Refusal :=
  vec2 etsInt false false true (intOp fun a b _ => a - b) d a b ea eb s

/-- VMUL (R258). -/
def execVmul (d a b : Nat) (ea eb : Bool) (s : State) : Host.Outcome State Fault Refusal :=
  vec2 etsInt false false true (intOp fun a b _ => a * b) d a b ea eb s

/-- VMULH (R258). -/
def execVmulh (d a b : Nat) (ea eb : Bool) (s : State) : Host.Outcome State Fault Refusal :=
  vec2 etsInt false false true (mulhElem) d a b ea eb s

/-- VMAD (R258). -/
def execVmad (d a b : Nat) (ea eb : Bool) (s : State) : Host.Outcome State Fault Refusal :=
  vec2 etsInt false true true (intOp fun a b d => a * b + d) d a b ea eb s

/-- VMIN (R258). -/
def execVmin (d a b : Nat) (ea eb : Bool) (s : State) : Host.Outcome State Fault Refusal :=
  vec2 etsInt false false true (intOp fun a b _ => if b < a then b else a) d a b ea eb s

/-- VMAX (R258). -/
def execVmax (d a b : Nat) (ea eb : Bool) (s : State) : Host.Outcome State Fault Refusal :=
  vec2 etsInt false false true (intOp fun a b _ => if a < b then b else a) d a b ea eb s

/-- VABSD (R258). -/
def execVabsd (d a b : Nat) (ea eb : Bool) (s : State) : Host.Outcome State Fault Refusal :=
  vec2 etsInt false false true (intOp fun a b _ => (a - b).natAbs) d a b ea eb s

/-! ### Meanings: VLOGIC -/

/-- VAND (R259). -/
def execVand (d a b : Nat) (ea eb : Bool) (s : State) : Host.Outcome State Fault Refusal :=
  vec2 etsAny false false false (fun _ _ a b _ => a &&& b) d a b ea eb s

/-- VOR (R259). -/
def execVor (d a b : Nat) (ea eb : Bool) (s : State) : Host.Outcome State Fault Refusal :=
  vec2 etsAny false false false (fun _ _ a b _ => a ||| b) d a b ea eb s

/-- VXOR (R259). -/
def execVxor (d a b : Nat) (ea eb : Bool) (s : State) : Host.Outcome State Fault Refusal :=
  vec2 etsAny false false false (fun _ _ a b _ => a ^^^ b) d a b ea eb s

/-- VSHL (R259). -/
def execVshl (d a b : Nat) (ea eb : Bool) (s : State) : Host.Outcome State Fault Refusal :=
  vec2 etsAny false false false (fun et _ a b _ => a * 2 ^ (b % etWidth et) % 2 ^ etWidth et) d a b ea eb s

/-- VSHR (R259). -/
def execVshr (d a b : Nat) (ea eb : Bool) (s : State) : Host.Outcome State Fault Refusal :=
  vec2 etsAny false false false (fun et _ a b _ => a / 2 ^ (b % etWidth et)) d a b ea eb s

/-- VSRA (R259). -/
def execVsra (d a b : Nat) (ea eb : Bool) (s : State) : Host.Outcome State Fault Refusal :=
  vec2 etsAny false false false (fun et _ a b _ => sraElem et a (b % etWidth et)) d a b ea eb s

/-- VSEL (R259). -/
def execVsel (d a b : Nat) (ea eb : Bool) (s : State) : Host.Outcome State Fault Refusal :=
  vec2 etsAny false true false (fun et _ a b d => (d &&& a) ||| ((2 ^ etWidth et - 1 - d) &&& b)) d a b ea eb s

/-- VMOV (R259). -/
def execVmov (d a : Nat) (ea _eb : Bool) (s : State) : Host.Outcome State Fault Refusal :=
  vec1 etsAny false (fun _ _ x => x) d a ea s

/-! ### Meanings: VUNARY -/

/-- VNOT (R260). -/
def execVnot (d a : Nat) (ea _eb : Bool) (s : State) : Host.Outcome State Fault Refusal :=
  vec1 etsAny false (fun et _ x => 2 ^ etWidth et - 1 - x) d a ea s

/-- VNEG (R260). -/
def execVneg (d a : Nat) (ea _eb : Bool) (s : State) : Host.Outcome State Fault Refusal :=
  vec1 etsAny true (negElem) d a ea s

/-- VABS (R260). -/
def execVabs (d a : Nat) (ea _eb : Bool) (s : State) : Host.Outcome State Fault Refusal :=
  vec1 etsAny true (absElem) d a ea s

/-- VCLZ (R260). -/
def execVclz (d a : Nat) (ea _eb : Bool) (s : State) : Host.Outcome State Fault Refusal :=
  vec1 etsAny false (fun et _ x => clzElem et x) d a ea s

/-- VPOPC (R260). -/
def execVpopc (d a : Nat) (ea _eb : Bool) (s : State) : Host.Outcome State Fault Refusal :=
  vec1 etsAny false (fun et _ x => popCount (etWidth et) x) d a ea s

/-- VBREV (R260). -/
def execVbrev (d a : Nat) (ea _eb : Bool) (s : State) : Host.Outcome State Fault Refusal :=
  vec1 etsAny false (fun et _ x => bitRev (etWidth et) x) d a ea s

/-- VLANE: the lane index converted into every element; RM is read only under the FP8 types (R260). -/
def execVlane (d : Nat) (_ea _eb : Bool) (s : State) : Host.Outcome State Fault Refusal :=
  let fp8 := s.cur.et == 9 || s.cur.et == 10
  issue 4 { vs := [d], ets := some etsAny, readsRm := fp8, srcs := s.cur.laneSrcs, dests := [.v d] }
    (doneG fun g =>
      (g.putV d g.active (overLanes g.active fun k => g.elemwise k (fun c _ _ _ => convert c 1 g.et k) 0 0 0)
        g.et).countSr fp8) s

/-- VBCAST: the 32 bits of a scalar into every lane (R260). -/
def execVbcast (d a : Nat) (ea _eb : Bool) (s : State) : Host.Outcome State Fault Refusal :=
  issue 4 { vs := [d], ets := some etsAny, srcs := s.cur.srcA ea a (s.cur.sregs a) ++ s.cur.laneSrcs, dests := [.v d] }
    (doneG fun g => g.putV d g.active (overLanes g.active fun _ => g.sval a) g.et) s

/-! ### Meanings: comparisons (R261) -/

/-- pd PD, a V, b V. -/
def prePV2 (g : Group) (ets : List Nat) (d a b : Nat) (ea eb : Bool) : Pre :=
  { preV2 g ets false false true a a b ea eb with
    vs := [a, b]
    dests := [.p d] }

/-- A mask from a test of each taking-part lane. -/
def maskOver (m : Mask) (f : Nat → Bool) : Mask :=
  BitVec.ofNat 96 ((List.range 96).foldr (fun k acc => 2 * acc + (if m.getLsbD k && f k then 1 else 0)) 0)

/-- A comparison that must hold for every element of a lane (R261). -/
def vcompare (ets : List Nat) (f : Nat → Nat → Nat → Bool) (d a b : Nat) (ea eb : Bool) (s : State) :
    Host.Outcome State Fault Refusal :=
  issue 4 (prePV2 s.cur ets d a b ea eb)
    (doneG fun g =>
      g.putP d g.active (maskOver g.active fun k =>
        (List.range (etElems g.et)).all fun j =>
          f g.et (elemOf g.et (g.lane a k) j) (elemOf g.et (g.lane b k) j))) s

/-- A floating comparison from the sign of the difference; none when a NaN takes part. -/
def fcmp (f : Option Int → Bool) (et a b : Nat) : Bool := f ((fmtOf et).compare a b)

/-- A condition that is false with a NaN. -/
def ordered (f : Int → Bool) : Option Int → Bool
  | some x => f x
  | none => false

/-- VCMP EQ (R261). -/
def execVcmpEq (d a b : Nat) (ea eb : Bool) (s : State) : Host.Outcome State Fault Refusal :=
  vcompare etsInt (fun et a b => intVal et a == intVal et b) d a b ea eb s

/-- VCMP NE (R261). -/
def execVcmpNe (d a b : Nat) (ea eb : Bool) (s : State) : Host.Outcome State Fault Refusal :=
  vcompare etsInt (fun et a b => intVal et a != intVal et b) d a b ea eb s

/-- VCMP LT (R261). -/
def execVcmpLt (d a b : Nat) (ea eb : Bool) (s : State) : Host.Outcome State Fault Refusal :=
  vcompare etsInt (fun et a b => decide (intVal et a < intVal et b)) d a b ea eb s

/-- VCMP LE (R261). -/
def execVcmpLe (d a b : Nat) (ea eb : Bool) (s : State) : Host.Outcome State Fault Refusal :=
  vcompare etsInt (fun et a b => decide (intVal et a ≤ intVal et b)) d a b ea eb s

/-- VCMP GT (R261). -/
def execVcmpGt (d a b : Nat) (ea eb : Bool) (s : State) : Host.Outcome State Fault Refusal :=
  vcompare etsInt (fun et a b => decide (intVal et b < intVal et a)) d a b ea eb s

/-- VCMP GE (R261). -/
def execVcmpGe (d a b : Nat) (ea eb : Bool) (s : State) : Host.Outcome State Fault Refusal :=
  vcompare etsInt (fun et a b => decide (intVal et b ≤ intVal et a)) d a b ea eb s

/-- VFCMP EQ (R261). -/
def execVfcmpEq (d a b : Nat) (ea eb : Bool) (s : State) : Host.Outcome State Fault Refusal :=
  vcompare etsFloat (fcmp (ordered fun x => x == 0)) d a b ea eb s

/-- VFCMP NE (R261). -/
def execVfcmpNe (d a b : Nat) (ea eb : Bool) (s : State) : Host.Outcome State Fault Refusal :=
  vcompare etsFloat (fcmp (fun r => !ordered (fun x => x == 0) r)) d a b ea eb s

/-- VFCMP LT (R261). -/
def execVfcmpLt (d a b : Nat) (ea eb : Bool) (s : State) : Host.Outcome State Fault Refusal :=
  vcompare etsFloat (fcmp (ordered fun x => decide (x < 0))) d a b ea eb s

/-- VFCMP LE (R261). -/
def execVfcmpLe (d a b : Nat) (ea eb : Bool) (s : State) : Host.Outcome State Fault Refusal :=
  vcompare etsFloat (fcmp (ordered fun x => decide (x ≤ 0))) d a b ea eb s

/-- VFCMP GT (R261). -/
def execVfcmpGt (d a b : Nat) (ea eb : Bool) (s : State) : Host.Outcome State Fault Refusal :=
  vcompare etsFloat (fcmp (ordered fun x => decide (0 < x))) d a b ea eb s

/-- VFCMP GE (R261). -/
def execVfcmpGe (d a b : Nat) (ea eb : Bool) (s : State) : Host.Outcome State Fault Refusal :=
  vcompare etsFloat (fcmp (ordered fun x => decide (0 ≤ x))) d a b ea eb s

/-- VFCMP UN (R261). -/
def execVfcmpUn (d a b : Nat) (ea eb : Bool) (s : State) : Host.Outcome State Fault Refusal :=
  vcompare etsFloat (fcmp (fun r => r.isNone)) d a b ea eb s

/-- VFCMP OR (R261). -/
def execVfcmpOr (d a b : Nat) (ea eb : Bool) (s : State) : Host.Outcome State Fault Refusal :=
  vcompare etsFloat (fcmp (fun r => r.isSome)) d a b ea eb s

/-! ### Meanings: VFLOAT (R262 to R264) -/

/-- VFADD (R262). -/
def execVfadd (d a b : Nat) (ea eb : Bool) (s : State) : Host.Outcome State Fault Refusal :=
  vec2 etsFloat true false true (fun et c a b _ => (fmtOf et).fadd c a b) d a b ea eb s

/-- VFSUB (R262). -/
def execVfsub (d a b : Nat) (ea eb : Bool) (s : State) : Host.Outcome State Fault Refusal :=
  vec2 etsFloat true false true (fun et c a b _ => (fmtOf et).fsub c a b) d a b ea eb s

/-- VFMUL (R262). -/
def execVfmul (d a b : Nat) (ea eb : Bool) (s : State) : Host.Outcome State Fault Refusal :=
  vec2 etsFloat true false true (fun et c a b _ => (fmtOf et).fmul c a b) d a b ea eb s

/-- VFMA (R262). -/
def execVfma (d a b : Nat) (ea eb : Bool) (s : State) : Host.Outcome State Fault Refusal :=
  vec2 etsFloat true true true (fun et c a b d => (fmtOf et).fma c a b d) d a b ea eb s

/-- VFMIN (R262). -/
def execVfmin (d a b : Nat) (ea eb : Bool) (s : State) : Host.Outcome State Fault Refusal :=
  vec2 etsFloat false false true (fun et _ a b _ => (fmtOf et).fmin a b) d a b ea eb s

/-- VFMAX (R262). -/
def execVfmax (d a b : Nat) (ea eb : Bool) (s : State) : Host.Outcome State Fault Refusal :=
  vec2 etsFloat false false true (fun et _ a b _ => (fmtOf et).fmax a b) d a b ea eb s

/-- VFSCALE (R263). -/
def execVfscale (d a b : Nat) (ea eb : Bool) (s : State) : Host.Outcome State Fault Refusal :=
  vec2 etsFloat true false true (fun et c a b _ => (fmtOf et).fscale c a b) d a b ea eb s

/-- The values that a dot product's NaN rule looks through: a0, b0, a1, b1, … (R264). -/
def interleave : List Nat → List Nat → List Nat
  | [], _ => []
  | _, [] => []
  | a :: as, b :: bs => a :: b :: interleave as bs

/-- The products of a dot product; none when one of them is 0 × ∞. -/
def dotTerms (f : Fmt) : List Nat → List Nat → Option (List Term)
  | a :: as, b :: bs =>
    match mulVals (f.read a) (f.read b), dotTerms f as bs with
    | some (.fin n m e), some r => some (.fin n m e :: r)
    | some (.inf n), some r => some (.inf n :: r)
    | some (.nan _ _ x), some r => some (.nan x :: r)
    | _, _ => none
  | _, _ => some []

/-- The first NaN of a list of terms as a result. -/
def nanTerm (ts : List Term) : Option Nat := firstNan ts

/-- VDOT of one lane (R264, R142). -/
def dotLane (et : Nat) (c : RCtx) (a b d : W32) : Nat :=
  let f := fmtOf et
  let as := splitLane et a
  let bs := splitLane et b
  match firstNan ((interleave as bs).map (f.term fp32 c.pc) ++ [fp32.term fp32 c.pc d.toNat]) with
  | some x => x
  | none =>
    match dotTerms f as bs with
    | none => fp32.newNan .zeroinf c.pc
    | some ts => fp32.sum c (ts ++ [fp32.term fp32 c.pc d.toNat])

/-- VDOT: d tagged FP32 or RAW32, the result tagged FP32 (R139, R264). -/
def execVdot (d a b : Nat) (ea eb : Bool) (s : State) : Host.Outcome State Fault Refusal :=
  let g := s.cur
  issue 4 { preV2 g etsDot true true true d a b ea eb with
      tags := tagTrap [(3, g.tag d, [6, 0]), (1, g.tag a, g.okTags), (2, g.tag b, g.okTags)] }
    (doneG fun g =>
      (g.putV d g.active
        (overLanes g.active fun k => w32 (dotLane g.et (g.rctx 6 0 k 0) (g.lane a k) (g.lane b k) (g.lane d k)))
        6).countSr true) s

/-! ### Meanings: VSFU (R256, R265) -/

/-- A special function: the destination is empty until VSFU_COMPLETE; the values are those of the issue
(R256, R266). -/
def vsfu (fn : SfuFn) (d a : Nat) (ea : Bool) (s : State) : Host.Outcome State Fault Refusal :=
  issue 4 (preV1 s.cur etsSfu (fn == .sqrt) true d a ea)
    (fun s =>
      let g := s.cur
      let xs := overLanes g.active fun k =>
        g.elemwise k (fun c x _ _ => fn.eval (fmtOf g.et) c x) (g.lane a k) 0 0
      .done ((s.modCur fun g => (g.awaiting [.v d]).countSr (fn == .sqrt)).send
        (.sfu g.tid [.lanes d g.active xs g.et]))) s

/-- VRCP (R265). -/
def execVrcp (d a : Nat) (ea _eb : Bool) (s : State) : Host.Outcome State Fault Refusal :=
  vsfu .rcp d a ea s

/-- VRSQ (R265). -/
def execVrsq (d a : Nat) (ea _eb : Bool) (s : State) : Host.Outcome State Fault Refusal :=
  vsfu .rsq d a ea s

/-- VSQRT (R265). -/
def execVsqrt (d a : Nat) (ea _eb : Bool) (s : State) : Host.Outcome State Fault Refusal :=
  vsfu .sqrt d a ea s

/-- VEXP2 (R265). -/
def execVexp2 (d a : Nat) (ea _eb : Bool) (s : State) : Host.Outcome State Fault Refusal :=
  vsfu .exp2 d a ea s

/-- VLOG2 (R265). -/
def execVlog2 (d a : Nat) (ea _eb : Bool) (s : State) : Host.Outcome State Fault Refusal :=
  vsfu .log2 d a ea s

/-- VSIN (R265). -/
def execVsin (d a : Nat) (ea _eb : Bool) (s : State) : Host.Outcome State Fault Refusal :=
  vsfu .sin d a ea s

/-- VCOS (R265). -/
def execVcos (d a : Nat) (ea _eb : Bool) (s : State) : Host.Outcome State Fault Refusal :=
  vsfu .cos d a ea s

/-- VTANH (R265). -/
def execVtanh (d a : Nat) (ea _eb : Bool) (s : State) : Host.Outcome State Fault Refusal :=
  vsfu .tanh d a ea s

/-! ### Meanings: conversions (R267 to R271) -/

/-- A register read by its own tag, RAW32 as ET (R10, R267). -/
def Group.stype (g : Group) (n : Nat) : Nat := srcType (g.tag n) g.et

/-- A conversion from a source type forms results by rounding (R133): into or from a floating type, not a
bit copy. A narrowing from an integer to an integer is taken for an integer operation and forms none, though R133 also
says 'by conversion to an integer' (DESIGN CHOICE, log 7). -/
def convRounds (et src : Nat) : Bool := et != 0 && et != src && (etFloat et || etFloat src)

/-- Checks of a conversion of a. -/
def preConv (g : Group) (d a : Nat) (ea : Bool) : Pre :=
  { vs := [d, a]
    ets := some etsAny
    readsRm := true
    srcs := g.srcA ea a [.v a] ++ g.laneSrcs
    dests := [.v d]
    tags := rsvdTagTrap [(1, g.tag a)] }

/-- A lane whose element j is f of the context and the selected source element; +0 beyond the list. -/
def Group.convLane (g : Group) (k : Nat) (f : RCtx → Nat → Nat → Nat) (sel : List (Nat × Nat)) : W32 :=
  let et := g.et
  joinLane et ((List.range (etElems et)).map fun j =>
    match sel[j]? with
    | some (src, x) => f (g.rctx et 0 k j) src x
    | none => 0)

/-- The elements of a register's lane with their type. -/
def Group.typedElems (g : Group) (n k : Nat) : List (Nat × Nat) :=
  (splitLane (g.stype n) (g.lane n k)).map fun x => (g.stype n, x)

/-- VCVT, VUNPKL, VUNPKH and VRND: drop is how many source elements are passed over (R268, R271). -/
def vconv1 (f : Nat → RCtx → Nat → Nat → Nat) (high : Bool) (d a : Nat) (ea : Bool) (s : State) :
    Host.Outcome State Fault Refusal :=
  issue 4 (preConv s.cur d a ea)
    (doneG fun g =>
      let drop := if high then etElems (g.stype a) / 2 else 0
      (g.putV d g.active
        (overLanes g.active fun k => g.convLane k (f g.et) ((g.typedElems a k).drop drop)) g.et).countSr
        (convRounds g.et (g.stype a))) s

/-- VCVT (R268). -/
def execVcvt (d a : Nat) (ea _eb : Bool) (s : State) : Host.Outcome State Fault Refusal :=
  vconv1 (fun et c src x => convert c src et x) false d a ea s

/-- VUNPKL (R268). -/
def execVunpkl (d a : Nat) (ea _eb : Bool) (s : State) : Host.Outcome State Fault Refusal :=
  vconv1 (fun et c src x => convert c src et x) false d a ea s

/-- VUNPKH (R268). -/
def execVunpkh (d a : Nat) (ea _eb : Bool) (s : State) : Host.Outcome State Fault Refusal :=
  vconv1 (fun et c src x => convert c src et x) true d a ea s

/-- VPACK; no element of b is formed where a has them all (R268). -/
def execVpack (d a b : Nat) (ea eb : Bool) (s : State) : Host.Outcome State Fault Refusal :=
  let g := s.cur
  issue 4 { preConv g d a ea with
      vs := [d, a, b]
      srcs := g.srcA ea a [.v a] ++ g.srcB eb b [.v b] ++ g.laneSrcs
      tags := rsvdTagTrap [(1, g.tag a), (2, g.tag b)] }
    (doneG fun g =>
      (g.putV d g.active
        (overLanes g.active fun k => g.convLane k (fun c src x => convert c src g.et x)
          (g.typedElems a k ++ g.typedElems b k)) g.et).countSr
        (convRounds g.et (g.stype a) ||
          (decide (etElems (g.stype a) < etElems g.et) && convRounds g.et (g.stype b)))) s

/-- VRND (R271). -/
def execVrnd (d a : Nat) (ea _eb : Bool) (s : State) : Host.Outcome State Fault Refusal :=
  issue 4 (preConv s.cur d a ea)
    (doneG fun g =>
      (g.putV d g.active
        (overLanes g.active fun k => g.convLane k (fun c src x => roundElem c src g.et x) (g.typedElems a k))
        g.et).countSr (g.et != 0 && (etFloat g.et || etFloat (g.stype a)))) s

/-- Registers of VQNT's source group (R269). -/
def Group.qntCount (g : Group) (a : Nat) : Nat :=
  let n := etElems g.et / etElems (g.stype a)
  if n = 0 then 1 else n

/-- VQNT (R140, R269). -/
def execVqnt (d a b : Nat) (ea eb : Bool) (s : State) : Host.Outcome State Fault Refusal :=
  let g := s.cur
  let regs := ((List.range (g.qntCount a)).map fun i => a + i).filter fun n => decide (n < g.vregs)
  issue 4 { preConv g d a ea with
      srcs := g.srcA ea a (regs.map .v) ++ g.srcB eb b (g.sregs b) ++ g.laneSrcs
      tags := rsvdTagTrap (regs.map fun n => (1, g.tag n)) }
    (fun s =>
      let g := s.cur
      if g.vregs < a + g.qntCount a then .trap s (s.illegal 15)
      else
        let es := etElems (g.stype a)
        let sel (k : Nat) : List (Nat × Nat) := (List.range (etElems g.et)).map fun j =>
          let n := a + j / es
          (g.stype n, elemOf (g.stype n) (g.lane n k) (j % es))
        .done (s.modCur fun g =>
          (g.putV d g.active
            (overLanes g.active fun k =>
              g.convLane k (fun c src x => scaled c src g.et x (g.sval b).toNat) (sel k)) g.et).countSr true)) s

/-- VDQNT: one FP32 register for each element of a (R140, R269). -/
def execVdqnt (d a b : Nat) (ea eb : Bool) (s : State) : Host.Outcome State Fault Refusal :=
  let g := s.cur
  let n := etElems (g.stype a)
  issue 4 { preConv g d a ea with
      ets := some [6]
      srcs := g.srcA ea a [.v a] ++ g.srcB eb b (g.sregs b) ++ g.laneSrcs
      dests := ((List.range n).map fun i => RegId.v (d + i)) }
    (fun s =>
      let g := s.cur
      if g.vregs < d + n then .trap s (s.illegal 15)
      else
        .done (s.modCur fun g =>
          let old := g
          ((List.range n).foldl (fun g i =>
            g.putV (d + i) old.active
              (overLanes old.active fun k =>
                w32 (scaled (old.rctx 6 0 k 0) (old.stype a) 6 (elemOf (old.stype a) (old.lane a k) i)
                  (old.sval b).toNat)) 6) g).countSr true)) s

/-- VFCLASS (R270). -/
def execVfclass (d a : Nat) (ea _eb : Bool) (s : State) : Host.Outcome State Fault Refusal :=
  vec1 etsFloat true (fun et _ x => (fmtOf et).classify x) d a ea s

/-! ### Meanings: VLANEX (R272 to R274) -/

/-- The lanes that the active lanes name. -/
def lanesNamed (active : Mask) (f : Nat → Nat) : Mask :=
  (List.range 96).foldl (fun m k => if active.getLsbD k && decide (f k < 96) then setBit m (f k) true else m) 0

/-- VSHUF: the lanes of a that it reads are those that b names (R272, R393). -/
def execVshuf (d a b : Nat) (ea eb : Bool) (s : State) : Host.Outcome State Fault Refusal :=
  let g := s.cur
  issue 4 { preV2 g etsAny false false true d a b ea eb with
      reads := [(a, (if a = b then g.active else 0) ||| lanesNamed g.active fun k => (g.lane b k).toNat)] }
    (doneG fun g =>
      g.putV d g.active (overLanes g.active fun k =>
        let i := (g.lane b k).toNat
        if i < 96 then g.lane a i else 0) g.et) s

/-- VROT (R272). -/
def execVrot (d a b : Nat) (ea eb : Bool) (s : State) : Host.Outcome State Fault Refusal :=
  let g := s.cur
  issue 4 { preV1 g etsAny false true d a ea with
      srcs := g.srcA ea a [.v a] ++ g.srcB eb b (g.sregs b) ++ g.laneSrcs
      reads := [(a, lanesNamed g.active fun k => (k + (g.sval b).toNat) % 96)] }
    (doneG fun g =>
      g.putV d g.active (overLanes g.active fun k => g.lane a ((k + (g.sval b).toNat) % 96)) g.et) s

/-- VRDL: writes its scalar whatever the mask holds (R272). It reads one lane of a. The mask and the guard are implicit
sources all the same and block while empty: R219 lists its major among those whose lanes take part, and R215 does not say
otherwise (DESIGN CHOICE, log 51). -/
def execVrdl (d a b : Nat) (ea eb : Bool) (s : State) : Host.Outcome State Fault Refusal :=
  let g := s.cur
  issue 4 { preV1 g etsAny false true a a ea with
      vs := [a]
      srcs := g.srcA ea a [.v a] ++ g.srcB eb b (g.sregs b) ++ g.laneSrcs
      dests := [.ofS g.sel d]
      reads := [(a, lanesNamed 1 fun _ => (g.sval b).toNat)] }
    (doneG fun g =>
      let i := (g.sval b).toNat
      g.setS d (if i < 96 then g.lane a i else 0)) s

/-- VWRL (R272). -/
def execVwrl (d a b : Nat) (ea eb : Bool) (s : State) : Host.Outcome State Fault Refusal :=
  let g := s.cur
  issue 4 { vs := [d], ets := some etsAny, dests := [.v d]
            srcs := g.srcA ea a (g.sregs a) ++ g.srcB eb b (g.sregs b) ++ g.laneSrcs }
    (doneG fun g =>
      let m : Mask := if (g.sval b).toNat < 96 then
        g.active &&& BitVec.ofNat 96 (2 ^ (g.sval b).toNat) else 0
      g.putV d m (overLanes m fun _ => g.sval a) g.et) s

/-- The taking-part lanes, ascending. -/
def laneList (m : Mask) : List Nat := (List.range 96).filter fun k => m.getLsbD k

/-- ROUND of an exact sum of elements over lanes (R273). -/
def Group.laneSum (g : Group) (c : RCtx) (xs : List Nat) : Nat :=
  if etFloat g.et then (fmtOf g.et).sum c (xs.map ((fmtOf g.et).term (fmtOf g.et) c.pc))
  else intResult g.et g.sat ((xs.map (intVal g.et)).foldr (fun x y => x + y) 0)

/-- The sum over lanes, element by element, drawing SR bits for lane k. -/
def Group.sumLanes (g : Group) (a k : Nat) (ls : List Nat) : W32 :=
  joinLane g.et ((List.range (etElems g.et)).map fun j =>
    g.laneSum (g.rctx g.et 0 k j) (ls.map fun l => elemOf g.et (g.lane a l) j))

/-- VRED (R273). -/
def execVred (d a : Nat) (ea _eb : Bool) (s : State) : Host.Outcome State Fault Refusal :=
  let g := s.cur
  issue 4 { preV1 g etsAny true true a a ea with vs := [a], dests := [.ofS g.sel d] }
    (doneG fun g => (g.setS d (g.sumLanes a 0 (laneList g.active))).countSr (etFloat g.et)) s

/-- VSCAN (R273). -/
def execVscan (d a : Nat) (ea _eb : Bool) (s : State) : Host.Outcome State Fault Refusal :=
  issue 4 (preV1 s.cur etsAny true true d a ea)
    (doneG fun g =>
      (g.putV d g.active
        (overLanes g.active fun k => g.sumLanes a k ((laneList g.active).filter fun l => decide (l ≤ k)))
        g.et).countSr (etFloat g.et)) s

/-- VBALLOT (R274). -/
def execVballot (d a : Nat) (ea _eb : Bool) (s : State) : Host.Outcome State Fault Refusal :=
  let g := s.cur
  issue 4 { preV1 g etsAny false true a a ea with vs := [a], dests := [.p d] }
    (doneG fun g => g.putP d g.active (maskOver g.active fun k => g.lane a k != 0)) s

/-- The list's element for lane k, when k is the i-th of the lanes and the list has an i-th. -/
def placed (ks : List Nat) (xs : List W32) (k : Nat) : Option W32 :=
  match ks, xs with
  | k' :: ks, x :: xs => if k' = k then some x else placed ks xs k
  | _, _ => none

/-- VCOMPACT (R274). -/
def execVcompact (d a b : Nat) (ea eb : Bool) (s : State) : Host.Outcome State Fault Refusal :=
  let g := s.cur
  issue 4 { preV1 g etsAny false true d a ea with
      srcs := g.srcA ea a [.v a] ++ g.srcB eb b [.p b] ++ g.laneSrcs }
    (doneG fun g =>
      let xs := (laneList (g.active &&& g.pred b)).map fun l => g.lane a l
      g.putV d g.active
        (overLanes g.active fun k => (placed (laneList g.active) xs k).getD (g.lane d k)) g.et) s

/-! ### Meanings: PRED (R275) -/

/-- pd ← f pa pb on the taking-part lanes. -/
def pred2 (f : Mask → Mask → Mask) (d a b : Nat) (ea eb : Bool) (s : State) :
    Host.Outcome State Fault Refusal :=
  let g := s.cur
  issue 4 { srcs := g.srcA ea a [.p a] ++ g.srcB eb b [.p b] ++ g.laneSrcs, dests := [.p d] }
    (doneG fun g => g.putP d g.active (f (g.pred a) (g.pred b))) s

/-- pd ← f pa. -/
def pred1 (f : Mask → Mask) (d a : Nat) (ea : Bool) (s : State) : Host.Outcome State Fault Refusal :=
  let g := s.cur
  issue 4 { srcs := g.srcA ea a [.p a] ++ g.laneSrcs, dests := [.p d] }
    (doneG fun g => g.putP d g.active (f (g.pred a))) s

/-- PAND (R275). -/
def execPand (d a b : Nat) (ea eb : Bool) (s : State) : Host.Outcome State Fault Refusal :=
  pred2 (fun a b => a &&& b) d a b ea eb s

/-- POR (R275). -/
def execPor (d a b : Nat) (ea eb : Bool) (s : State) : Host.Outcome State Fault Refusal :=
  pred2 (fun a b => a ||| b) d a b ea eb s

/-- PXOR (R275). -/
def execPxor (d a b : Nat) (ea eb : Bool) (s : State) : Host.Outcome State Fault Refusal :=
  pred2 (fun a b => a ^^^ b) d a b ea eb s

/-- PANDN (R275). -/
def execPandn (d a b : Nat) (ea eb : Bool) (s : State) : Host.Outcome State Fault Refusal :=
  pred2 (fun a b => a &&& ~~~b) d a b ea eb s

/-- PNOT (R275). -/
def execPnot (d a : Nat) (ea _eb : Bool) (s : State) : Host.Outcome State Fault Refusal :=
  pred1 (fun a => ~~~a) d a ea s

/-- PMOV (R275). -/
def execPmov (d a : Nat) (ea _eb : Bool) (s : State) : Host.Outcome State Fault Refusal :=
  pred1 id d a ea s

/-- PFROMS: bits of s(a) to s(a + 2) (R275). -/
def execPfroms (d a : Nat) (ea _eb : Bool) (s : State) : Host.Outcome State Fault Refusal :=
  let g := s.cur
  issue 4 { srcs := g.srcA ea a (g.sblock a 3) ++ g.laneSrcs, dests := [.p d] }
    (doneG fun g => g.putP d g.active ((g.sval (a + 2)) ++ (g.sval (a + 1)) ++ (g.sval a))) s

/-- PTOS: s(d) to s(d + 2), zero where a lane does not take part (R275). -/
def execPtos (d a : Nat) (ea _eb : Bool) (s : State) : Host.Outcome State Fault Refusal :=
  let g := s.cur
  issue 4 { srcs := g.srcA ea a [.p a] ++ g.laneSrcs, dests := g.sblock d 3 }
    (doneG fun g =>
      let x := g.pred a &&& g.active
      ((g.setS d (x.setWidth 32)).setS (d + 1) ((x >>> (32 : Nat)).setWidth 32)).setS (d + 2)
        ((x >>> (64 : Nat)).setWidth 32)) s

/-! ### Meanings: EXPR (R211, R212, R276, R277) -/

/-- The tokens in order. -/
def exprToks (n tokens : Nat) : List Nat := (List.range n).map fun j => tokens / 16 ^ j % 16

/-- Operators that round into a floating type. -/
def exprRounds (ts : List Nat) : Bool := ts.any fun t => t == 4 || t == 5 || t == 6 || t == 14

/-- A stack element is not zero (R276). -/
def elemNonzero (et x : Nat) : Bool :=
  if etFloat et then x % 2 ^ (etWidth et - 1) != 0 else x != 0

/-- relu (R276). -/
def reluElem (et x : Nat) : Nat :=
  if etFloat et then
    match (fmtOf et).read x with
    | .nan _ _ _ => x
    | .inf neg => if neg then 0 else x
    | .fin neg m _ => if neg || m == 0 then 0 else x
  else if 0 < intVal et x then x else 0

/-- A binary operator: f for floating types, i for integers. -/
def exprBin (et : Nat) (c : RCtx) (f : Fmt → RCtx → Nat → Nat → Nat) (i : Int → Int → Int) (x y : Nat) :
    Nat :=
  if etFloat et then f (fmtOf et) c x y else intResult et c.sat (i (intVal et x) (intVal et y))

/-- One token on a stack, its top first. -/
def exprStep (et : Nat) (c : RCtx) (ins : List Nat) (t : Nat) (st : List Nat) : List Nat :=
  match t, st with
  | 4, y :: x :: r => exprBin et c Fmt.fadd (fun x y => x + y) x y :: r
  | 5, y :: x :: r => exprBin et c Fmt.fsub (fun x y => x - y) x y :: r
  | 6, y :: x :: r => exprBin et c Fmt.fmul (fun x y => x * y) x y :: r
  | 7, y :: x :: r => exprBin et c (fun f _ => f.fmin) (fun x y => if y < x then y else x) x y :: r
  | 8, y :: x :: r => exprBin et c (fun f _ => f.fmax) (fun x y => if x < y then y else x) x y :: r
  | 9, x :: r => negElem et c.sat x :: r
  | 10, x :: r => absElem et c.sat x :: r
  | 11, x :: r => reluElem et x :: r
  | 12, x :: r => (fmtOf et).rcp c x :: r
  | 13, x :: r => (fmtOf et).exp2 c x :: r
  | 14, z :: y :: x :: r =>
    (if etFloat et then (fmtOf et).fma c x y z
     else intResult et c.sat (intVal et x * intVal et y + intVal et z)) :: r
  | 15, z :: y :: x :: r => (if elemNonzero et x then y else z) :: r
  | _, _ => if t < 4 then ins.getD t 0 :: st else st

/-- The tokens from number t on (R276, R277): ctx gives the rounding context of a token. -/
def exprRun (et : Nat) (ctx : Nat → RCtx) (ins : List Nat) : List Nat → Nat → List Nat → List Nat
  | [], _, st => st
  | tok :: r, t, st => exprRun et ctx ins r (t + 1) (exprStep et (ctx t) ins tok st)

/-- EXPR (R276, R277). Token 2 with v(b + 1) at or above VREGS and b at most 126 takes ILLEGAL FIELD, as an operand field
does: R212 and R213 give no outcome of their own (DESIGN CHOICE, log 51). -/
def execExpr (d a b n : Nat) (ea eb : Bool) (tokens : Nat) (s : State) :
    Host.Outcome State Fault Refusal :=
  let g := s.cur
  let ts := exprToks n tokens
  let sfu := ts.contains 12 || ts.contains 13
  let rounds := exprRounds ts
  issue 8 {
      vs := [d, a, b] ++ (if ts.contains 2 then [b + 1] else [])
      ets := some etsAny
      readsRm := rounds
      mode := if sfu && !etsSfu.contains g.et then some (formatTrap 8 g.et 0) else none
      srcs := (if ts.contains 3 then blocking [.v d] else [])
        ++ (if ts.contains 0 then g.srcA ea a [.v a] else [])
        ++ (if ts.contains 1 then g.srcB eb b [.v b] else [])
        ++ (if ts.contains 2 then blocking [.v (b + 1)] else []) ++ g.laneSrcs
      dests := [.v d]
      tags := tagTrap ((if ts.contains 3 then [(3, g.tag d, g.okTags)] else [])
        ++ (if ts.contains 0 then [(1, g.tag a, g.okTags)] else [])
        ++ (if ts.contains 1 then [(2, g.tag b, g.okTags)] else [])
        ++ (if ts.contains 2 then [(4, g.tag (b + 1), g.okTags)] else [])) }
    (doneG fun g =>
      let et := g.et
      (g.putV d g.active
        (overLanes g.active fun k =>
          joinLane et ((List.range (etElems et)).map fun j =>
            (exprRun et (fun t => g.rctx et t k j)
              ([a, b, b + 1, d].map fun r => elemOf et (g.lane r k) j) ts 0 []).headD 0)) et).countSr
        (rounds && etFloat et)) s

end Sys2Proof.Machine
end

