-- ==== Sys2Proof/Machine/Handles.lean ====
section
/-!
DEFINITION. Handles, skein records and tensors: the fields of a handle (R167), the record it names (R168),
the object reached through indirections (R173), tensor descriptors and element addresses (R180, R181).
-/

namespace Sys2Proof.Machine

/-! ### Handles (R167) -/

/-- E. -/
def hE (h : Nat) : Nat := bitsOf h 63 58
/-- IND. -/
def hInd (h : Nat) : Bool := bitAt h 57
/-- KIND. -/
def hKind (h : Nat) : Nat := bitsOf h 56 55
/-- GEN. -/
def hGen (h : Nat) : Nat := bitsOf h 54 40
/-- OID. -/
def hOid (h : Nat) : Nat := bitsOf h 39 0
/-- The null handle. -/
def hNull (h : Nat) : Bool := hE h == 63

/-- A handle from its fields. -/
def handleOf (e : Nat) (ind : Bool) (kind gen oid : Nat) : Nat :=
  fieldAt e 6 58 + (if ind then 2 ^ 57 else 0) + fieldAt kind 2 55 + fieldAt gen 15 40 + oid % 2 ^ 40

/-- A null handle as the device writes it: E 63 and every other bit zero (log 22). -/
def nullHandle : Nat := 63 * 2 ^ 58

/-- The same handle with another E. -/
def withE (h e : Nat) : Nat := h % 2 ^ 58 + fieldAt e 6 58

/-! ### Objects (R171, R173) -/

/-- The record is LIVE with the handle's GEN and not damaged (R171, R404). -/
def State.current (s : State) (h : Nat) : Bool :=
  let r := s.skein (hOid h)
  decide (hOid h < s.bases.skeinCount) && r.live && r.gen == hGen h && !r.damaged

/-- Where a handle leads (R173). -/
inductive Reached where
  | at (h : Nat)
  | stale (h : Nat)
  | chain
  deriving DecidableEq, Repr

/-- Following HELD through at most 64 records (R173). -/
def State.reachFuel (s : State) : Nat → Nat → Reached
  | 0, h => if hInd h then .chain else .at h
  | k + 1, h =>
    if !hInd h then .at h
    else if !s.current h then .stale h
    else s.reachFuel k (s.skein (hOid h)).held.toNat

/-- The object reached by a handle; the handle that names it directly (R173). -/
def State.reached (s : State) (h : Nat) : Reached := s.reachFuel 64 h

/-! ### Tensors (R180, R181) -/

/-- The element size of a type code (R181). -/
def elemSize (et : Nat) : Nat :=
  match et with
  | 3 | 7 | 8 => 2
  | 4 | 5 | 9 | 10 => 1
  | 11 => 8
  | _ => 4

/-- How a resolution of a handle to a tensor ends: its record's descriptor, the HANDLE sub-cause (R400), an
uncorrectable error in what it reads (MCHECK DETAIL and address, R392), or a gated memory die that holds it
(R206). -/
inductive TensorOf where
  | tensor (d : TensorDesc)
  | bad (detail : Nat)
  | error (detail addr : Nat)
  | gated (die : Nat)
  deriving DecidableEq, Repr

/-- The physical place of a global address through a root, readable; none when the walk does not find it
so. -/
def State.readable (s : State) (troot va : Nat) : Option Place :=
  if va / 2 ^ 57 ≠ 0 then none
  else
    match s.walk troot va with
    | .leaf pte _ psize =>
      if (s.denied troot pte .load).isSome then none else some (leafPlace pte psize va)
    | _ => none

/-- The physical place of 64 bytes of a descriptor at a global address through a root; a page that the walk
does not find readable breaks R180. -/
def State.descPlace (s : State) (troot va : Nat) : Except TensorOf Place :=
  if va / 2 ^ 57 ≠ 0 then .error (.bad 5)
  else
    match (s.walkReads troot va).findSome? s.gatedAt with
    | some d => .error (.gated d)
    | none =>
      match s.walk troot va with
      | .damaged => .error (.error 5 va)
      | .leaf pte _ psize =>
        if (s.denied troot pte .load).isSome then .error (.bad 5)
        else
          let p := leafPlace pte psize va
          match s.gated p, s.readErr p with
          | some d, _ => .error (.gated d)
          | none, some x => .error (.error x va)
          | none, none => .ok p
      | _ => .error (.bad 5)

/-- The fields of a descriptor whose first 64 bytes lie at p and last 64 at q. -/
def State.descAt (s : State) (p q : Place) : TensorDesc where
  et := s.loadAt p 1
  rank := s.loadAt (p.plus 1) 1
  shdim := s.loadAt (p.plus 2) 1
  nsh := s.loadAt (p.plus 3) 1
  shlen := s.loadAt (p.plus 4) 4
  dims := (List.range 4).map fun i => s.loadAt (p.plus (8 + 4 * i)) 4
  bases := (List.range 6).map fun i => if i < 4 then s.loadAt (p.plus (0x20 + 8 * i)) 8 else s.loadAt (q.plus (8 * (i - 4))) 8

/-- DIM i. -/
def TensorDesc.dim (d : TensorDesc) (i : Nat) : Nat := d.dims.getD i 1

/-- The descriptor satisfies R180; its reserved bytes are ignored (R5). -/
def TensorDesc.ok (d : TensorDesc) : Bool :=
  decide (1 ≤ d.et) && decide (d.et ≤ 11) && decide (1 ≤ d.rank) && decide (d.rank ≤ 4)
    && decide (d.shdim < d.rank) && decide (1 ≤ d.nsh) && decide (d.nsh ≤ 6) && decide (1 ≤ d.shlen)
    && (List.range 4).all (fun i => decide (i < d.rank) || d.dim i == 1)
    && decide ((d.nsh - 1) * d.shlen < d.dim d.shdim) && decide (d.dim d.shdim ≤ d.nsh * d.shlen)
    && (d.bases.take d.nsh).all (fun b => b / 2 ^ 57 == 0 && b % elemSize d.et == 0)

/-- The descriptor of a tensor's record (R180). -/
def State.tensor (s : State) (r : Skein) : TensorOf :=
  let a := r.desc.toNat
  if a % 64 ≠ 0 then .bad 5
  else
    let root := s.eff r.region .troot
    match s.descPlace root a, s.descPlace root (a + 64) with
    | .ok p, .ok q => if (s.descAt p q).ok then .tensor (s.descAt p q) else .bad 5
    | .error e, _ => e
    | _, .error e => e

/-- Every coordinate lies below its extent. -/
def TensorDesc.inside (d : TensorDesc) (c : List Nat) : Bool :=
  (List.range 4).all fun i => decide (c.getD i 0 < d.dim i)

/-- The address of an element (R181). -/
def TensorDesc.address (d : TensorDesc) (c : List Nat) : Nat :=
  let x := c.getD d.shdim 0
  let c' := c.set d.shdim (x % d.shlen)
  let ds := d.dims.set d.shdim d.shlen
  let at_ (l : List Nat) (i : Nat) : Nat := l.getD i 0
  (d.bases.getD (x / d.shlen) 0
    + elemSize d.et * (at_ c' 0 + at_ ds 0 * (at_ c' 1 + at_ ds 1 * (at_ c' 2 + at_ ds 2 * at_ c' 3))))
    % 2 ^ 64

/-- The tensor that a handle reaches (R173, R180, R181, R400). -/
def State.tensorOf (s : State) (h : Nat) : TensorOf :=
  if hNull h then .bad 1
  else if hKind h = 3 then .bad 2
  else
    match s.reached h with
    | .chain => .bad 4
    | .stale _ => .bad 3
    | .at o =>
      if !s.current o then .bad 3
      else if (s.skein (hOid o)).kind ≠ 0 then .bad 2
      else s.tensor (s.skein (hOid o))

end Sys2Proof.Machine
end

