-- ==== Sys2Proof/Machine/Walks.lean ====
section
/-!
DEFINITION. What the walks and the matrix operations of a cluster read: the addresses of a walk's tiles, their places and
lines, the scales of a pass, and what is read early because a later access would change it (R69, R100, R156, R160, R306
to R308, R314).
-/

namespace Sys2Proof.Machine

/-- The 64-byte line of a place, as the place of its first byte. -/
def Place.line : Place → Place
  | .dev pa => .dev (pa / 64 * 64)
  | .host p pa => .host p (pa / 64 * 64)
  | .peer p pa => .peer p (pa / 64 * 64)
  | .weight d o => .weight d (o / 64 * 64)
  | .spad t o => .spad t (o / 64 * 64)
  | .removed p pa => .removed p (pa / 64 * 64)

/-- Elements of one fetch unit of a walk along K. -/
def Walk.tiles (w : Walk) : Nat := if w.nsp = 0 then w.klen / 32 else w.klen * w.nsp / 768

/-- Columns that a walk reads: those of one block, or of six under CLUST (R314). -/
def Walk.outer (w : Walk) (bound : Bool) : Nat :=
  if w.roleB then (if bound then 768 else 128) else if bound then 512 else 128

/-- A row or column that holds elements; the rest is padded (R160). -/
def Walk.present (w : Walk) (o : Nat) : Bool :=
  if w.roleB then decide (o % 128 < w.mn) else decide (o < w.mn)

/-- The address of the element of a row or column o at K-step k; none where it is padded (R306, R314). -/
def Walk.address (w : Walk) (o k : Nat) : Option Nat :=
  let j := o / 128
  let n := o % 128
  if !w.present o then none
  else
    match w.tensor with
    | some d =>
      let at_ (i : Nat) : Nat := w.coords.getD i 0
      let q (x : Nat) : Nat := if w.ty = 0 then x / 32 else x
      let c := if w.roleB then [at_ 0 + 128 * j + q n, at_ 1 + k, at_ 2, at_ 3]
        else [at_ 0 + q k, at_ 1 + o, at_ 2, at_ 3]
      if d.inside c then some (d.address c) else none
    | none =>
      if w.hnd then none
      else
        let z := elemSize w.ty
        let q (x : Nat) : Nat := if w.ty = 0 then x / 32 * 4 else x * z
        some ((w.src.toNat
          + (if w.roleB then j * w.blkstep + k * w.ldim + q n else o * w.ldim + q k)) % 2 ^ 64)

/-- Address of a metadata word: K-group g of column o (R306); columns of block j under CLUST follow those
of the block before (log 23). -/
def Walk.metaAt (w : Walk) (g o : Nat) : Nat :=
  (w.metaBase + (o / 128) * (w.klen / 24 * 1024) + (g * 128 + o % 128) * 8) % 2 ^ 64

/-- An address that a walk reads: the requester's scratchpad window, or as a load of the sequencer
(R154, R284, R306); nothing is accessed there yet. -/
def State.walkReach (s : State) (a size : Nat) : Reach :=
  if 0xFF00000000000000 ≤ a then
    match s.cur.seq with
    | some cl =>
      match s.thread (s.cluster cl).req.who.tid with
      | some g => s.aperture g .load 0 a size
      | none => .fail .aperture 2
    | none => .fail .aperture 2
  else s.resolve .load true 1 0 (w64 a) size

/-- The clusters that the sequencer of a cluster drives (R314). -/
def Cluster.targets (c : Cluster) (cl : Nat) : List Nat := if c.clustUsed then c.bound else [cl]

/-- The tiles that an MMA-family operation into td writes in one cluster (R314). -/
def Cluster.mmaTiles (c : Cluster) (td : Nat) : List Nat :=
  if c.clustUsed then [td, td + 1, td + 2, td + 3] else [td]

/-- The walk in a slot. -/
def Cluster.walk (c : Cluster) (n : Nat) : Option Walk := c.walks.getD n none

/-- An operation of the MMA family. -/
def EngOp.isMma : EngOp → Bool
  | .mma .. => true
  | _ => false

/-- Place of an address that TWALK resolved. -/
def Walk.placeOf (w : Walk) (a : Nat) : Option Place :=
  (w.places.find? fun x => x.1 == a).map (·.2.2)

/-- A place's address or offset. -/
def Place.offset : Place → Nat
  | .dev a | .host _ a | .peer _ a | .weight _ a | .spad _ a | .removed _ a => a

/-- The groups of 24 K-steps that a tile of a sparse walk meets. -/
def Walk.groups (w : Walk) (t : Nat) : List Nat :=
  if w.nsp = 0 then []
  else
    let lo := 32 * t / w.nsp
    (List.range ((32 * t + 31) / w.nsp + 1 - lo)).map (lo + ·)

/-- The addresses that a walk tile covers. -/
def Walk.tileAddrs (w : Walk) (bound : Bool) (t : Nat) : List Nat :=
  let os := (List.range (w.outer bound)).filter w.present
  (os.flatMap fun o => (List.range 32).filterMap fun k => w.address o (32 * t + k))
    ++ os.flatMap fun o => (w.groups t).map fun g => w.metaAt g o

/-- A line as it stands; of one in error the bytes are free (R156, R392). -/
def State.readLine (s : State) (p : Place) : List Byte :=
  if (s.readErr p).isSome then (List.range 64).map fun i => Config.damagedByte (s.fresh + i)
  else leBytes 64 (s.loadAt p 64)

/-- The operation uses the walk in a slot. -/
def EngOp.uses (op : EngOp) (n : Nat) : Bool :=
  match op with
  | .mma _ na nb _ _ _ => na == n || nb == n
  | _ => false

/-- The lines that tiles from one on need (R156). -/
def Walk.neededFrom (w : Walk) (bound : Bool) (t : Nat) : List Place :=
  (List.range (w.tiles - t)).flatMap fun i =>
    (w.tileAddrs bound (t + i)).filterMap fun a => (w.placeOf a).map Place.line

/-- K-steps whose elements p tiles of walk B hold in full. -/
def Walk.covered (w : Walk) (p : Nat) : Nat := if w.nsp = 0 then 32 * p else 24 * (32 * p / w.nsp)

/-- K-steps summed at once: a slice of 32, a block of 128 for FP8, a pass for I8 (R141, R161, R162). -/
def Walk.unit (w : Walk) : Nat :=
  if w.ty = 9 ∨ w.ty = 10 then 128
  else if w.ty = 4 ∧ w.nsp ≠ 0 then 768 / w.nsp
  else 32

/-- The units that a pass completes, from the first on. -/
def unitsBetween (u lo hi : Nat) : List Nat := (List.range (hi / u - lo / u)).map fun i => (lo / u + i) * u

/-- The units of an operation that its next pass completes (R309). -/
def Walk.passUnits (wb : Walk) (p : Nat) : List Nat := unitsBetween wb.unit (wb.covered p) (wb.covered (p + 1))

/-- A walk of FP8 elements. -/
def Walk.fp8 (w : Walk) : Bool := w.ty == 9 || w.ty == 10

/-- The addresses of the row scales of block β in row block i (R308). -/
def EngSlot.rowScaleAt (e : EngSlot) (β i : Nat) : List Nat :=
  (List.range e.vr).map fun r => e.scaleA.toNat + (β * 512 + i * 128 + r) * 4

/-- The address of the tile scale of block β in column block j (R308). -/
def EngSlot.tileScaleAt (e : EngSlot) (β j : Nat) : Nat := e.scaleB.toNat + (β * 8 + j) * 4

/-- A change of the focus to the sequencer of a cluster. -/
def State.asSeq (s : State) (cl : Nat) : State := s.focus (seqTid cl) false

/-- Where a scale word lies, read as walk data (R308). -/
def State.scaleReach (s : State) (cl a : Nat) : Reach := (s.asSeq cl).walkReach (a % 2 ^ 64) 4

/-- The place of a scale word, where its address leads to one. -/
def State.scalePlace (s : State) (cl a : Nat) : Option Place :=
  match s.scaleReach cl a with
  | .hit p _ _ => some p
  | _ => none

/-- The addresses of the scales that an operation reads in a pass (R308). -/
def State.passScaleAddrs (s : State) (cl : Nat) (e : EngSlot) (td : Nat) (useScales : Bool) (wb : Walk) (p : Nat) :
    List Nat :=
  let c := s.cluster cl
  if !(useScales && wb.fp8) then []
  else (wb.passUnits p).flatMap fun k0 =>
    ((List.range (c.mmaTiles td).length).flatMap (e.rowScaleAt (k0 / 128))) ++
      (List.range (c.targets cl).length).map (e.tileScaleAt (k0 / 128))

/-- The addresses of the scales that an operation has still to read. -/
def State.scaleAddrsLeft (s : State) (cl : Nat) (e : EngSlot) : List Nat :=
  match e.op with
  | .mma td _ nb _ _ useScales =>
    match (s.cluster cl).walk nb with
    | some wb => (List.range (wb.tiles - e.step)).flatMap fun i =>
        s.passScaleAddrs cl e td useScales wb (e.step + i)
    | none => []
  | _ => []

/-- A scale word of SCALEB at an address: as it was kept, else as it stands; one that cannot be read has a free value
(R308, R392, log 21). -/
def State.scaleWord (s : State) (cl : Nat) (kept : List (Nat × W32)) (a : Nat) : W32 :=
  match kept.find? fun x => x.1 == a with
  | some x => x.2
  | none =>
    match s.scalePlace cl a with
    | some p => if (s.readErr p).isSome || s.spadBad p then Config.freeWord a else w32 (s.loadAt p 4)
    | none => Config.freeWord a

/-! ### What is read early (R69, R100) -/

/-- The lines of a walk at places that satisfy a test, and that a tile not fetched yet needs, are fetched now. -/
def State.fetchEarly (s : State) (bound : Bool) (q : Place → Bool) (w : Walk) : Walk :=
  if !(w.places.any fun x => q x.2.2.line) then w
  else
    let new := ((w.neededFrom bound w.data.length).filter fun p => q p && !w.lines.any fun x => x.1 == p).eraseDups
    { w with lines := w.lines ++ new.map fun p => (p, s.readLine p) }

/-- The scale words at places that satisfy a test, and that an operation has still to read, are read now. -/
def State.keepScales (s : State) (cl : Nat) (q : Place → Bool) (e : EngSlot) : EngSlot :=
  let new := (s.scaleAddrsLeft cl e).filter fun a =>
    !(e.kept.any fun x => x.1 == a) && ((s.scalePlace cl a).map fun p => q p.line).getD false
  { e with kept := e.kept ++ new.map fun a => (a, s.scaleWord cl e.kept a) }

/-- What a cluster's engine has still to read at places that satisfy a test is read now: for the operations that have
issued, or with all for every walk (R69, R100). -/
def State.readEarly (s : State) (cl : Nat) (all : Bool) (q : Place → Bool) : State :=
  s.modCluster cl fun c =>
    { c with
      walks := c.walks.map fun w => w.map fun w =>
        if all || w.committed then s.fetchEarly c.clustUsed q w else w
      engine := c.engine.map (s.keepScales cl q) }

/-- An operation of the arm that has the turn is to store at the hits: a sequencer's engine reads what its earlier
operations have still to read there first (R100). -/
def State.readBefore (s : State) (hs : List Hit) : State :=
  match s.cur.seq with
  | none => s
  | some cl =>
    if (s.cluster cl).engine.any fun e => e.op.isMma then
      s.readEarly cl false fun p => hs.any fun h => h.lo.line == p || h.hi.line == p
    else s

end Sys2Proof.Machine
end

