-- ==== Sys2Proof/Machine/Memory.lean ====
section
/-!
DEFINITION. Memory, atomic, reduction, cache-maintenance, fence, barrier, copy and tag instructions:
majors 0x20 to 0x30 (R93 to R101, R278 to R300).
-/

namespace Sys2Proof.Machine

/-! ### Addresses and lanes -/

/-- The lanes of this issue: those parked when it is replayed (R80, R219). -/
def Group.takeLanes (g : Group) : Mask := if g.me.replay then g.me.park else g.active

/-- The pair of v registers in a lane. -/
def Group.lane64 (g : Group) (n k : Nat) : W64 := pairOf (g.lane n k) (g.lane (n + 1) k)

/-- Vector addresses: va:va + 1 of each lane plus an offset (R278, R282). -/
def Group.vecAddrs (g : Group) (a : Nat) (off : W64) : List (Nat × W64) :=
  (laneList g.takeLanes).map fun k => (k, g.lane64 a k + off)

/-- Block addresses: lane k at base + (off + k) × 2^sz (R282). -/
def Group.blockAddrs (g : Group) (a : Nat) (off : W64) (sz : Nat) : List (Nat × W64) :=
  (laneList g.takeLanes).map fun k => (k, g.spval a + (off + w64 k) * w64 (2 ^ sz))

/-- The one address of a scalar instruction. -/
def Group.scalarAddr (g : Group) (a : Nat) (off : W64) : List (Nat × W64) := [(0, g.spval a + off)]

/-- SEXT(off) × 2^sz (R220). -/
def scaledOff (bits off sz : Nat) : W64 := sext64 bits off * w64 (2 ^ sz)

/-- Data registers of an access size: one, or a pair for .d. -/
def dataRegs (d sz : Nat) : List Nat := if sz = 3 then [d, d + 1] else [d]

/-- The value of a lane, zero for lanes not in the list. -/
def valOf (vals : List (Nat × Nat)) (k : Nat) : Nat :=
  match vals.find? (fun x => x.1 == k) with
  | some x => x.2
  | none => 0

/-- The mask of the lanes in a list. -/
def maskOf (ks : List Nat) : Mask := ks.foldl (fun m k => setBit m k true) 0

/-- Fills of v registers from values: register i takes word i of each lane (R214, R280). -/
def vecFills (et : Nat) (vals : List (Nat × Nat)) : Nat → List Nat → List Fill
  | _, [] => []
  | i, n :: ns =>
    .lanes n (maskOf (vals.map (·.1)))
      ((List.range 96).map fun k => w32 (valOf vals k / 2 ^ (32 * i))) et
      :: vecFills et vals (i + 1) ns

/-- Fills of s registers from the one value. -/
def scalarFills (armB : Bool) (x : Nat) : Nat → List Nat → List Fill
  | _, [] => []
  | i, n :: ns => .word (.ofS armB n) (w32 (x / 2 ^ (32 * i))) :: scalarFills armB x (i + 1) ns

/-- Lanes that completed before the rest of the instruction parked: their values stand in the
destination, which stays empty (R79). -/
def Group.partFill (g : Group) : Fill → Group
  | .word _ _ => g
  | .lanes n m xs tag | .part n m xs tag => (g.putV n m xs tag).setFull (.v n) false

/-- The end of a load or an atomic with return: the destinations wait for its values, or the lanes set
aside park (R79, R217, R280). -/
def State.deliver (s : State) (acc : Access) (fills : List Fill) (dests : List RegId)
    (err : Option MCheck) (far : List Far) (absent : List (Nat × W64 × Nat)) : Eff :=
  let who := s.cur.who
  if absent.isEmpty then
    .done ((s.modCur fun g => g.awaiting dests).send
      (if acc = .load then .load who fills err far else .atomic who fills err far))
  else
    .park (((s.modCur fun g => fills.foldl Group.partFill g).pendMcheck who.tid err).park acc false absent)

/-! ### Loads (R280, R282, R283) -/

/-- A byte or half extended into a register (R280). -/
def extended (signed : Bool) (sz x : Nat) : Nat :=
  if signed && decide (sz < 2) then (sext64 (8 * 2 ^ sz) x).toNat % 2 ^ 32 else x

/-- The effect of a vector load. -/
def loadV (regs : List Nat) (sz : Nat) (addrs : List (Nat × W64)) (s : State) : Eff :=
  match s.checkLanes ⟨.load, true, 2 ^ sz, 2 ^ sz⟩ addrs with
  | .trap t => .trap s t
  | .frozen d => .stay (s.waitHome d)
  | .ok hits absent =>
    let s1 := s.touchAll false hits
    let vals := hits.map fun h => (h.lane, extended (s.cur.et == 1) sz (s1.laneVal h (2 ^ sz)))
    (s1.forget hits).deliver .load (vecFills s.cur.et vals 0 regs) (regs.map .v) (s1.laneErr (2 ^ sz) hits)
      (s1.farOf (2 ^ sz) hits) absent

/-- The effect of a scalar load. -/
def loadS (regs : List Nat) (sz : Nat) (addrs : List (Nat × W64)) (s : State) : Eff :=
  match s.checkLanes ⟨.load, true, 2 ^ sz, 2 ^ sz⟩ addrs with
  | .trap t => .trap s t
  | .frozen d => .stay (s.waitHome d)
  | .ok hits absent =>
    let s1 := s.touchAll false hits
    let x := match hits with
      | h :: _ => s1.laneVal h (2 ^ sz)
      | [] => 0
    (s1.forget hits).deliver .load (scalarFills s.cur.sel x 0 regs) (regs.map (.ofS s.cur.sel))
      (s1.laneErr (2 ^ sz) hits)
      (s1.farOf (2 ^ sz) hits) absent

/-- Checks of a vector load. -/
def preLoadV (g : Group) (d : Nat) (addr : List Nat) (addrSrcs : List RegId) (pol sz : Nat) : Pre :=
  { vs := dataRegs d sz ++ addr
    ets := some etsAny
    srcs := blocking addrSrcs ++ Group.polSrc pol ++ g.laneSrcs
    dests := (dataRegs d sz).map .v }

/-- Checks of a scalar load. -/
def preLoadS (g : Group) (d a pol sz : Nat) : Pre :=
  { seqOk := true
    srcs := blocking (g.spregs a) ++ Group.polSrc pol
    dests := (dataRegs d sz).map (.ofS g.sel) }

/-- LD (R282). -/
def execLd (d a pol sz off : Nat) (s : State) : Host.Outcome State Fault Refusal :=
  issue 4 (preLoadV s.cur d [a, a + 1] [.v a, .v (a + 1)] pol sz)
    (fun s => loadV (dataRegs d sz) sz (s.cur.vecAddrs a (scaledOff 7 off sz)) s) s

/-- LDS (R282). -/
def execLds (d a pol sz off : Nat) (s : State) : Host.Outcome State Fault Refusal :=
  issue 4 (preLoadS s.cur d a pol sz)
    (fun s => loadS (dataRegs d sz) sz (s.cur.scalarAddr a (scaledOff 7 off sz)) s) s

/-- LDB (R282). -/
def execLdb (d a pol sz off : Nat) (s : State) : Host.Outcome State Fault Refusal :=
  issue 4 (preLoadV s.cur d [] (s.cur.spregs a) pol sz)
    (fun s => loadV (dataRegs d sz) sz (s.cur.blockAddrs a (sext64 7 off) sz) s) s

/-- LDAQ, scalar form: performed at issue, before every later operation (R95, R283). -/
def execLdaqScalar (d a pol sz off : Nat) (s : State) : Host.Outcome State Fault Refusal :=
  issue 4 (preLoadS s.cur d a pol sz)
    (fun s => loadS (dataRegs d sz) sz (s.cur.scalarAddr a (scaledOff 6 off sz)) s) s

/-- LDAQ, vector form (R95, R283). -/
def execLdaqVector (d a pol sz off : Nat) (s : State) : Host.Outcome State Fault Refusal :=
  issue 4 (preLoadV s.cur d [a, a + 1] [.v a, .v (a + 1)] pol sz)
    (fun s => loadV (dataRegs d sz) sz (s.cur.vecAddrs a (scaledOff 6 off sz)) s) s

/-! ### Stores (R281 to R283) -/

/-- The place is homed on a fenced memory die (R422). -/
def State.fencedAt (s : State) (p : Place) : Bool :=
  match p with
  | .dev pa => (s.mdie (sectorOf pa)).fenced
  | _ => false

/-- DETAIL of a write that a peer, host or memory die that is gone does not take (R390, R415, R422). -/
def State.sinkErr (s : State) (h : Hit) : Option Nat :=
  if h.lo.away || s.fencedAt h.lo then s.hitErr h 4 else none

/-- The error of the lowest lane that is not written. -/
def State.storeErr (s : State) : List Hit → Option MCheck
  | [] => none
  | h :: rest =>
    match s.sinkErr h with
    | some d => some ⟨s.cur.sel, h.addr, h.lane, d, s.clock⟩
    | none => s.storeErr rest

/-- The lanes stored in ascending order (R86); one whose peer is gone stores nothing (R390). -/
def State.storeLanes (s : State) (size : Nat) (data : Nat → Nat) (hits : List Hit) : State :=
  hits.foldl (fun s h => if s.removedHit h then s else s.storeHit h size (data h.lane)) s

/-- Contributions of the group are on their way from a buffer that has drained or that a flush point drains: its later
stores wait for them (R98). -/
def State.redsDraining (s : State) (tid : Nat) : Bool :=
  s.flight.contains (.drain tid) || s.flight.any fun f => match f with
    | .redApply c => c.who.tid == tid
    | _ => false

/-- The effect of a store: data gives each lane's value. -/
def storeBody (sz : Nat) (addrs : List (Nat × W64)) (data : Nat → Nat) (s : State) : Eff :=
  match s.checkLanes ⟨.store, true, 2 ^ sz, 2 ^ sz⟩ addrs with
  | .trap t => .trap s t
  | .frozen d => .stay (s.waitHome d)
  | .ok hits absent =>
    if s.redsDraining s.cur.tid then .stay s.stall
    else
      let s1 := (((s.touchAll true hits).readBefore hits).storeLanes (2 ^ sz) data hits).clearCovered (2 ^ sz) hits
      let s2 := ((s1.forget hits).pendMcheck s.cur.tid (s.storeErr hits)).send
        (.store s.cur.who (s.farOf (2 ^ sz) hits))
      if absent.isEmpty then .done s2 else .park (s2.park .store false absent)

/-- A lane of the data registers. -/
def Group.dataLane (g : Group) (d sz k : Nat) : Nat :=
  if sz = 3 then (g.lane64 d k).toNat else (g.lane d k).toNat

/-- The scalar data operand. -/
def Group.dataScalar (g : Group) (d sz : Nat) : Nat :=
  if sz = 3 then (g.spval d).toNat else (g.sval d).toNat

/-- Checks of a vector store. -/
def preStoreV (g : Group) (d : Nat) (addr : List Nat) (addrSrcs : List RegId) (pol sz : Nat) : Pre :=
  { vs := dataRegs d sz ++ addr
    srcs := blocking ((dataRegs d sz).map .v ++ addrSrcs) ++ Group.polSrc pol ++ g.laneSrcs }

/-- Checks of a scalar store. -/
def preStoreS (g : Group) (d a pol sz : Nat) : Pre :=
  { seqOk := true
    srcs := blocking ((if sz = 3 then g.spregs d else g.sregs d) ++ g.spregs a) ++ Group.polSrc pol }

/-- ST (R282). -/
def execSt (d a pol sz off : Nat) (s : State) : Host.Outcome State Fault Refusal :=
  issue 4 (preStoreV s.cur d [a, a + 1] [.v a, .v (a + 1)] pol sz)
    (fun s => storeBody sz (s.cur.vecAddrs a (scaledOff 7 off sz)) (s.cur.dataLane d sz) s) s

/-- STS (R282). -/
def execSts (d a pol sz off : Nat) (s : State) : Host.Outcome State Fault Refusal :=
  issue 4 (preStoreS s.cur d a pol sz)
    (fun s => storeBody sz (s.cur.scalarAddr a (scaledOff 7 off sz)) (fun _ => s.cur.dataScalar d sz) s) s

/-- STB (R282). -/
def execStb (d a pol sz off : Nat) (s : State) : Host.Outcome State Fault Refusal :=
  issue 4 (preStoreV s.cur d [] (s.cur.spregs a) pol sz)
    (fun s => storeBody sz (s.cur.blockAddrs a (sext64 7 off) sz) (s.cur.dataLane d sz) s) s

/-! ### Completion of earlier operations (R93, R95) -/

/-- A contribution of the thread has not been applied or accepted. -/
def State.redPending (s : State) (tid : Nat) : Bool :=
  (s.abuf ++ s.redq).any (fun c => c.who.tid == tid) || s.redsDraining tid

/-- FENCE: waits until every earlier operation of a class in pred is complete; with an empty set and
no E it is NOP (R93, R94). With PW set it is a flush point (R98). -/
def execFence (eng _cum : Bool) (_scope pred succ : Nat) (s : State) :
    Host.Outcome State Fault Refusal :=
  issue 4 { seqOk := true }
    (fun s =>
      if !eng && (pred == 0 || succ == 0) then .done s
      else
        let s1 := if bitAt pred 0 then s.flush s.cur.tid else s
        if s1.outstanding s.cur.tid s.cur.sel pred eng then .stay s1.stall else .done s1) s

/-- The effect of STRL: its checks, which may trap with no effect (R428); a flush point; then performed when every
earlier memory operation of the arm is complete (R95, R98). -/
def releaseBody (body : State → Eff) (s : State) : Eff :=
  match body s with
  | .trap s t => .trap s t
  | _ =>
    let s1 := s.flush s.cur.tid
    if s1.outstanding s.cur.tid s.cur.sel 3 false then .stay s1.stall else body s1

/-- STRL, scalar form (R95, R283); its data register is no literal. -/
def execStrlScalar (d a pol sz off : Nat) (s : State) : Host.Outcome State Fault Refusal :=
  issue 4 (preStoreS s.cur d a pol sz)
    (releaseBody fun s =>
      storeBody sz (s.cur.scalarAddr a (scaledOff 6 off sz)) (fun _ => s.cur.dataScalar d sz) s) s

/-- STRL, vector form (R95, R283). -/
def execStrlVector (d a pol sz off : Nat) (s : State) : Host.Outcome State Fault Refusal :=
  issue 4 (preStoreV s.cur d [a, a + 1] [.v a, .v (a + 1)] pol sz)
    (releaseBody fun s =>
      storeBody sz (s.cur.vecAddrs a (scaledOff 6 off sz)) (s.cur.dataLane d sz) s) s

/-! ### Atomics (R285 to R289, R143) -/

/-- The operations of ATOM, ATOMS and RED. -/
inductive AtomOp where
  | add | and | or | xor | min | max | xchg | fadd
  deriving DecidableEq, Repr

/-- Signed value of the low bits of a number. -/
def signedOf (bits x : Nat) : Int :=
  if x % 2 ^ bits < 2 ^ (bits - 1) then (x % 2 ^ bits : Nat) else ((x % 2 ^ bits : Nat) : Int) - 2 ^ bits

/-- The lesser or the greater of two words, signed, unsigned under N32, as VFMIN and VFMAX under FP32
(R285). -/
def minMax (greater : Bool) (et bits old b : Nat) : Nat :=
  if et = 6 then (if greater then fp32.fmax old b else fp32.fmin old b)
  else if et = 2 then
    (if greater then (if old < b then b else old) else (if b < old then b else old))
  else
    (if greater then (if signedOf bits old < signedOf bits b then b else old)
     else (if signedOf bits b < signedOf bits old then b else old))

/-- OP(old, b) on words of a width (R285). -/
def AtomOp.apply (op : AtomOp) (et bits : Nat) (sat : Bool) (pc old b : Nat) : Nat :=
  match op with
  | .add => (old + b) % 2 ^ bits
  | .and => old &&& b
  | .or => old ||| b
  | .xor => old ^^^ b
  | .min => minMax false et bits old b
  | .max => minMax true et bits old b
  | .xchg => b
  | .fadd => fp32.fadd ⟨0, sat, pc, 0⟩ old b

/-- The operation is defined for the element type (R285, R290). -/
def AtomOp.okEt (op : AtomOp) (et : Nat) : Bool :=
  match op with
  | .add => et == 0 || et == 1 || et == 2 || et == 11
  | .fadd => et == 6
  | _ => et == 0 || et == 1 || et == 2 || et == 6 || et == 11

/-- ACAS is defined for the element type (R285). -/
def casEts : List Nat := [0, 1, 2, 6, 11]

/-- The host executes the operation (R289). -/
def AtomOp.hostOk (op : AtomOp) (et : Nat) : Bool :=
  match op with
  | .fadd => false
  | .min | .max => et != 6
  | _ => true

/-- The operation checks the tag of b (R285). -/
def AtomOp.tagged (op : AtomOp) : Bool :=
  match op with
  | .and | .or | .xor | .xchg => false
  | _ => true

/-- FORMAT ATOMOP at step 5 (R285, R429). -/
def atomMode (ok : Bool) (et : Nat) : Option Trap := if ok then none else some (formatTrap 4 et 0)

/-- The lanes of one location in turn: what each returns, and the value left (R286). -/
def runLanes (f : Nat → Nat → Nat) : Nat → List Hit → List (Nat × Nat) × Nat
  | old, [] => ([], old)
  | old, h :: hs =>
    let r := runLanes f (f h.lane old) hs
    ((h.lane, old) :: r.1, r.2)

/-- The locations in turn, each with its lanes in ascending order; f gives the new value for a lane
and an old value. A lane whose data shows an error is not performed and returns zero (R391). -/
def State.atomicFuel (s : State) (size : Nat) (f : Nat → Nat → Nat) :
    Nat → List Hit → State × List (Nat × Nat)
  | 0, _ => (s, [])
  | _ + 1, [] => (s, [])
  | n + 1, h :: hs =>
    match s.hitErr h size with
    | some _ =>
      let r := s.atomicFuel size f n hs
      (r.1, (h.lane, 0) :: r.2)
    | none =>
      let here := h :: hs.filter fun x => x.lo == h.lo
      let done := runLanes f (s.loadHit h size) here
      let r := (s.storeHit h size done.2).atomicFuel size f n (hs.filter fun x => x.lo != h.lo)
      (r.1, done.1 ++ r.2)

/-- All lanes of an atomic (R286). -/
def State.atomic (s : State) (size : Nat) (f : Nat → Nat → Nat) (hits : List Hit) :
    State × List (Nat × Nat) := s.atomicFuel size f hits.length hits

/-- The effect of a vector atomic: f is the new value for a lane and an old value. The lanes of ATOM at a host location
share one request (R439). -/
def atomBodyV (hostOk : Bool) (f : Group → Nat → Nat → Nat) (d a : Nat) (s : State) : Eff :=
  match s.checkLanes ⟨.atomic, hostOk, 4, 4⟩ (s.cur.vecAddrs a 0) with
  | .trap t => .trap s t
  | .frozen d => .stay (s.waitHome d)
  | .ok hits absent =>
    if s.redsDraining s.cur.tid then .stay s.stall
    else
    let s1 := s.touchAll true hits
    let r := s1.atomic 4 (f s.cur) hits
    (r.1.forget hits).deliver .atomic (vecFills s.cur.et r.2 0 [d]) [.v d] (s1.laneErr 4 hits)
      ((s1.farOf 4 hits).foldl joinRequest []) absent

/-- The place is host memory. -/
def Place.isHost : Place → Bool
  | .host _ _ => true
  | _ => false

/-- The lanes whose request goes out now, and those that wait for a response: at a host location one lane after the
other, in ascending order (R439). -/
def sendNow : List Hit → List Hit × List Hit
  | [] => ([], [])
  | h :: hs =>
    let same (x : Hit) : Bool := h.lo.isHost && x.lo == h.lo
    let r := sendNow hs
    (h :: r.1.filter fun x => !same x, r.1.filter same ++ r.2)

/-- A request of the arm's ACAS has not been answered while lanes of it are still to be sent (R439). -/
def State.partOut (s : State) (d : Nat) : Bool :=
  s.flight.any fun f => match f with
    | .atomic w fs _ _ => w == s.cur.who && fs.any fun x => match x with
      | .part n _ _ _ => n == d
      | _ => false
    | _ => false

/-- The effect of the vector form of ACAS: the lanes at one host location go out one after the other, each once the
request before it has been answered; the arm stays at the instruction until the last has gone out (R287, R439). -/
def casBodyV (f : Group → Nat → Nat → Nat) (d a : Nat) (s : State) : Eff :=
  if s.cur.me.replay && s.partOut d then .stay s.stall
  else
  match s.checkLanes ⟨.atomic, true, 4, 4⟩ (s.cur.vecAddrs a 0) with
  | .trap t => .trap s t
  | .frozen d => .stay (s.waitHome d)
  | .ok hits absent =>
    if s.redsDraining s.cur.tid then .stay s.stall
    else
    let now := (sendNow hits).1
    let rest := (sendNow hits).2
    let s1 := s.touchAll true hits
    let r := s1.atomic 4 (f s.cur) now
    if rest.isEmpty then
      (r.1.forget hits).deliver .atomic (vecFills s.cur.et r.2 0 [d]) [.v d] (s1.laneErr 4 now) (s1.farOf 4 now) absent
    else
      let left : Mask := maskOf (rest.map (·.lane)) ||| parkedMask absent
      let fill : Fill := .part d (maskOf (r.2.map (·.1))) ((List.range 96).map fun k => w32 (valOf r.2 k)) s.cur.et
      .park ((r.1.modCur fun g => g.mapMe fun a => { a with ws := .ready, replay := true, park := left }).send
        (.atomic s.cur.who [fill] (s1.laneErr 4 now) (s1.farOf 4 now)))

/-- The effect of a scalar atomic. -/
def atomBodyS (hostOk : Bool) (f : Group → Nat → Nat → Nat) (d a : Nat) (s : State) : Eff :=
  let size := if s.cur.et = 11 then 8 else 4
  let regs := if s.cur.et = 11 then [d, d + 1] else [d]
  match s.checkLanes ⟨.atomic, hostOk, size, size⟩ (s.cur.scalarAddr a 0) with
  | .trap t => .trap s t
  | .frozen d => .stay (s.waitHome d)
  | .ok hits absent =>
    if s.redsDraining s.cur.tid then .stay s.stall
    else
    let s1 := (s.touchAll true hits).readBefore hits
    let r := s1.atomic size (f s.cur) hits
    (r.1.forget hits).deliver .atomic (scalarFills s.cur.sel (valOf r.2 0) 0 regs) (regs.map (.ofS s.cur.sel))
      (s1.laneErr size hits) (s1.farOf size hits) absent

/-- A scalar operand at the width of ET: a pair under I64 (R285). -/
def Group.wideVal (g : Group) (n : Nat) : Nat :=
  if g.et = 11 then (g.spval n).toNat else (g.sval n).toNat

/-- The registers of a scalar operand at the width of ET. -/
def Group.wideRegs (g : Group) (n : Nat) : List RegId := if g.et = 11 then g.spregs n else g.sregs n

/-- The kinds of ATOMS and scalar ACAS that depend on ET (R224). -/
def Group.wideEven (g : Group) (d b : Nat) : Bool :=
  g.et != 11 || (d % 2 == 0 && (decide (64 ≤ b) || b % 2 == 0))

/-- The new value of ATOM at a lane. -/
def atomV (op : AtomOp) (b : Nat) (g : Group) (k old : Nat) : Nat :=
  op.apply g.et 32 g.sat g.me.pc.toNat old (g.lane b k).toNat

/-- The new value of ATOMS. -/
def atomS (op : AtomOp) (b : Nat) (g : Group) (_k old : Nat) : Nat :=
  op.apply g.et (if g.et = 11 then 64 else 32) g.sat g.me.pc.toNat old (g.wideVal b)

/-- ATOM (R285, R286). -/
def atomVector (op : AtomOp) (d a b : Nat) (ea eb : Bool) (s : State) :
    Host.Outcome State Fault Refusal :=
  let g := s.cur
  issue 4
    { vs := [d, a, a + 1, b]
      ets := some etsAny
      mode := atomMode (op.okEt g.et && g.et != 11) g.et
      srcs := g.srcA ea a [.v a, .v (a + 1)] ++ g.srcB eb b [.v b] ++ Group.polSrc 0 ++ g.laneSrcs
      dests := [.v d]
      tags := if op.tagged then tagTrap [(2, g.tag b, g.okTags)] else none }
    (atomBodyV (op.hostOk g.et) (atomV op b) d a) s

/-- ATOMS (R285, R286); under I64 both words of d block while either is empty (R224). -/
def atomScalar (op : AtomOp) (d a b : Nat) (ea eb : Bool) (s : State) :
    Host.Outcome State Fault Refusal :=
  let g := s.cur
  issue 4
    { seqOk := true
      even := g.wideEven d b
      mode := atomMode (op.okEt g.et) g.et
      srcs := g.srcA ea a (g.spregs a) ++ g.srcB eb b (g.wideRegs b) ++ Group.polSrc 0
        ++ (if g.et = 11 then blocking (g.spregs d) else [])
      dests := g.wideRegs d }
    (atomBodyS (op.hostOk g.et) (atomS op b) d a) s

/-- ATOM.add (R285). -/
def execAtomAdd (d a b : Nat) (ea eb : Bool) (s : State) : Host.Outcome State Fault Refusal :=
  atomVector .add d a b ea eb s

/-- ATOM.and (R285). -/
def execAtomAnd (d a b : Nat) (ea eb : Bool) (s : State) : Host.Outcome State Fault Refusal :=
  atomVector .and d a b ea eb s

/-- ATOM.or (R285). -/
def execAtomOr (d a b : Nat) (ea eb : Bool) (s : State) : Host.Outcome State Fault Refusal :=
  atomVector .or d a b ea eb s

/-- ATOM.xor (R285). -/
def execAtomXor (d a b : Nat) (ea eb : Bool) (s : State) : Host.Outcome State Fault Refusal :=
  atomVector .xor d a b ea eb s

/-- ATOM.min (R285). -/
def execAtomMin (d a b : Nat) (ea eb : Bool) (s : State) : Host.Outcome State Fault Refusal :=
  atomVector .min d a b ea eb s

/-- ATOM.max (R285). -/
def execAtomMax (d a b : Nat) (ea eb : Bool) (s : State) : Host.Outcome State Fault Refusal :=
  atomVector .max d a b ea eb s

/-- ATOM.xchg (R285). -/
def execAtomXchg (d a b : Nat) (ea eb : Bool) (s : State) : Host.Outcome State Fault Refusal :=
  atomVector .xchg d a b ea eb s

/-- ATOM.fadd (R285). -/
def execAtomFadd (d a b : Nat) (ea eb : Bool) (s : State) : Host.Outcome State Fault Refusal :=
  atomVector .fadd d a b ea eb s

/-- ATOMS.add (R285). -/
def execAtomsAdd (d a b : Nat) (ea eb : Bool) (s : State) : Host.Outcome State Fault Refusal :=
  atomScalar .add d a b ea eb s

/-- ATOMS.and (R285). -/
def execAtomsAnd (d a b : Nat) (ea eb : Bool) (s : State) : Host.Outcome State Fault Refusal :=
  atomScalar .and d a b ea eb s

/-- ATOMS.or (R285). -/
def execAtomsOr (d a b : Nat) (ea eb : Bool) (s : State) : Host.Outcome State Fault Refusal :=
  atomScalar .or d a b ea eb s

/-- ATOMS.xor (R285). -/
def execAtomsXor (d a b : Nat) (ea eb : Bool) (s : State) : Host.Outcome State Fault Refusal :=
  atomScalar .xor d a b ea eb s

/-- ATOMS.min (R285). -/
def execAtomsMin (d a b : Nat) (ea eb : Bool) (s : State) : Host.Outcome State Fault Refusal :=
  atomScalar .min d a b ea eb s

/-- ATOMS.max (R285). -/
def execAtomsMax (d a b : Nat) (ea eb : Bool) (s : State) : Host.Outcome State Fault Refusal :=
  atomScalar .max d a b ea eb s

/-- ATOMS.xchg (R285). -/
def execAtomsXchg (d a b : Nat) (ea eb : Bool) (s : State) : Host.Outcome State Fault Refusal :=
  atomScalar .xchg d a b ea eb s

/-- ATOMS.fadd (R285). -/
def execAtomsFadd (d a b : Nat) (ea eb : Bool) (s : State) : Host.Outcome State Fault Refusal :=
  atomScalar .fadd d a b ea eb s

/-- ACAS: b stored where the old value equals c (R287). -/
def casVal (c b old : Nat) : Nat := if old = c then b else old

/-- ACAS, vector form: d is the compare value and takes the old one (R287). -/
def execAcasVector (d a b : Nat) (ea eb : Bool) (s : State) : Host.Outcome State Fault Refusal :=
  let g := s.cur
  issue 4
    { vs := [d, a, a + 1, b]
      ets := some etsAny
      mode := atomMode (casEts.contains g.et && g.et != 11) g.et
      srcs := blocking [.v d] ++ g.srcA ea a [.v a, .v (a + 1)] ++ g.srcB eb b [.v b]
        ++ Group.polSrc 0 ++ g.laneSrcs
      dests := [.v d] }
    (casBodyV (fun g k old => casVal (g.lane d k).toNat (g.lane b k).toNat old) d a) s

/-- ACAS, scalar form (R287). -/
def execAcasScalar (d a b : Nat) (ea eb : Bool) (s : State) : Host.Outcome State Fault Refusal :=
  let g := s.cur
  issue 4
    { even := g.wideEven d b
      mode := atomMode (casEts.contains g.et) g.et
      srcs := blocking (g.wideRegs d) ++ g.srcA ea a (g.spregs a) ++ g.srcB eb b (g.wideRegs b)
        ++ Group.polSrc 0
      dests := g.wideRegs d }
    (atomBodyS true (fun g _ old => casVal (g.wideVal d) (g.wideVal b) old) d a) s

/-! ### Reductions (R98, R290, R291) -/

/-- Code of an operation in a contribution. -/
def AtomOp.code : AtomOp → Nat
  | .add => 0 | .and => 1 | .or => 2 | .xor => 3 | .min => 4 | .max => 5 | .xchg => 6 | .fadd => 7

/-- The operation of a code. -/
def AtomOp.ofCode (n : Nat) : AtomOp :=
  [AtomOp.add, .and, .or, .xor, .min, .max, .xchg, .fadd].getD n .add

/-- The contribution stands in a scheduler's buffer. -/
def Contrib.at (c : Contrib) (core sched : Nat) : Bool := c.core == core && c.sched == sched

/-- The entry that holds a contribution: one for each RED and line (R290). -/
def Contrib.entryOf (c : Contrib) : Nat × Place := (c.entry, c.place.line)

/-- The contribution that an operation in flight applies. -/
def Flight.red : Flight → Option Contrib
  | .redApply c => some c
  | _ => none

/-- Entries of a scheduler's atomic buffer, those that drain with them (R290). -/
def State.bufEntries (s : State) (core sched : Nat) : List (Nat × Place) :=
  (((s.abuf ++ s.flight.filterMap Flight.red).filter fun c => c.at core sched).map Contrib.entryOf).eraseDups

/-- A contribution inserted by ascending lane, behind those of its lane. -/
def insertLane (c : Contrib) : List Contrib → List Contrib
  | [] => [c]
  | x :: r => if c.lane < x.lane then c :: x :: r else x :: insertLane c r

/-- Contributions leave the buffer in ascending lane order: each is on its way to its place (R98, R144). -/
def State.drainIf (s : State) (p : Contrib → Bool) : State :=
  { s with
    abuf := s.abuf.filter fun c => !p c
    flight := s.flight ++ (((s.abuf.filter p).foldl (fun l c => insertLane c l) []).map .redApply) }

/-- The group's contributions drain as they enter: it exits, is swapped, stops, or waits for its drain (R98, R104,
R249, R291, R341). -/
def Group.drainsReds (g : Group) : Bool :=
  g.exiting.isSome || g.migrating || g.halted || (g.armA.occ && g.armA.ws == .rflush) || (g.armB.occ && g.armB.ws == .rflush)

/-- The buffer drains where the group's contributions do not stay in it. -/
def State.flushEntered (s : State) (tid : Nat) : State :=
  match s.thread tid with
  | some g => if g.drainsReds || s.preempting g.region then s.flush tid else s
  | none => s

/-- A contribution enters the buffer, or waits behind the drain of a full one (R290). -/
def State.enter (s : State) (c : Contrib) : State :=
  if s.redq.any fun x => x.at c.core c.sched then { s with redq := s.redq ++ [c] }
  else if s.abuf.any (fun x => x.at c.core c.sched && x.entryOf == c.entryOf)
      || decide ((s.bufEntries c.core c.sched).length < 64) then
    { s with abuf := s.abuf ++ [c] }.flushEntered c.who.tid
  else
    let s1 := s.drainIf fun x => x.at c.core c.sched
    { s1 with redq := s1.redq ++ [c] }

/-- The waiting lanes enter as far as there is room (R290). -/
def State.enterReds (s : State) : State := s.redq.foldl State.enter { s with redq := [] }

/-- A lane of a RED of the arm has not entered yet (R47, R290). -/
def State.redEntering (s : State) (tid : Nat) (armB : Bool) : Bool := s.redq.any fun c => c.who.of tid armB

/-- The contribution of a lane. The page of a place in the stack backing, which no PTE maps, is the 64 KiB that hold it
(DESIGN CHOICE, log 53). -/
def State.contrib (s : State) (op : AtomOp) (b : Nat) (h : Hit) : Contrib where
  who := s.cur.who
  region := s.cur.region
  entry := s.fresh
  base := match h.entry, h.lo with
    | some e, _ => (match leafPlace e.pte e.psize e.base with
      | .dev pa => pa
      | _ => 0)
    | none, .dev pa => pa / 0x10000 * 0x10000
    | none, _ => 0
  bytes := match h.entry with
    | some e => pageBytes e.psize
    | none => 0x10000
  core := s.cur.loc.core
  sched := s.cur.loc.sched
  launch := s.cur.launchId.toNat
  det := s.cur.eff.det
  rank := s.cur.rank.toNat
  epoch := s.cur.repoch
  lane := h.lane
  addr := h.addr
  issued := s.clock
  op := op.code
  et := s.cur.et
  sat := s.cur.sat
  pc := s.cur.me.pc.toNat
  place := h.lo
  value := s.cur.lane b h.lane

/-- The effect of RED: its lanes enter the buffer in ascending order, and the arm goes on once the last has
entered; a lane whose peer, host or die is gone enters nothing (R290, R390, R415, R422). -/
def redBody (op : AtomOp) (a b : Nat) (s : State) : Eff :=
  if s.cur.me.replay && s.cur.me.park == 0 then .done s
  else
    match s.checkLanes ⟨.atomic, op.hostOk s.cur.et, 4, 4⟩ (s.cur.vecAddrs a 0) with
    | .trap t => .trap s t
    | .frozen d => .stay (s.waitHome d)
    | .ok hits absent =>
      let s1 := s.touchAll true hits
      let s2 := ((((hits.filter fun h => (s.sinkErr h).isNone).map (s1.contrib op b)).foldl State.enter s1).tick.forget
        hits).pendMcheck s.cur.tid (s.storeErr hits)
      if !absent.isEmpty then .park (s2.park .atomic false absent)
      else if s2.redEntering s.cur.tid s.cur.sel then
        .stay ((s2.modCur fun g => g.mapMe fun a => { a with park := 0 }).waitAs .arriving 0 0)
      else .done s2

/-- RED (R290). -/
def reduce (op : AtomOp) (a b : Nat) (ea eb : Bool) (s : State) : Host.Outcome State Fault Refusal :=
  let g := s.cur
  issue 4
    { vs := [a, a + 1, b]
      ets := some etsAny
      mode := atomMode (op.okEt g.et && g.et != 11) g.et
      srcs := g.srcA ea a [.v a, .v (a + 1)] ++ g.srcB eb b [.v b] ++ Group.polSrc 0 ++ g.laneSrcs
      tags := if op.tagged then tagTrap [(2, g.tag b, g.okTags)] else none }
    (redBody op a b) s

/-- RED.add (R290). -/
def execRedAdd (a b : Nat) (ea eb : Bool) (s : State) : Host.Outcome State Fault Refusal :=
  reduce .add a b ea eb s

/-- RED.fadd (R290). -/
def execRedFadd (a b : Nat) (ea eb : Bool) (s : State) : Host.Outcome State Fault Refusal :=
  reduce .fadd a b ea eb s

/-- RED.min (R290). -/
def execRedMin (a b : Nat) (ea eb : Bool) (s : State) : Host.Outcome State Fault Refusal :=
  reduce .min a b ea eb s

/-- RED.max (R290). -/
def execRedMax (a b : Nat) (ea eb : Bool) (s : State) : Host.Outcome State Fault Refusal :=
  reduce .max a b ea eb s

/-- RED.and (R290). -/
def execRedAnd (a b : Nat) (ea eb : Bool) (s : State) : Host.Outcome State Fault Refusal :=
  reduce .and a b ea eb s

/-- RED.or (R290). -/
def execRedOr (a b : Nat) (ea eb : Bool) (s : State) : Host.Outcome State Fault Refusal :=
  reduce .or a b ea eb s

/-- RED.xor (R290). -/
def execRedXor (a b : Nat) (ea eb : Bool) (s : State) : Host.Outcome State Fault Refusal :=
  reduce .xor a b ea eb s

/-- A reduction set of the group's launch and of an epoch is not applied yet (R291). -/
def State.setOpen (s : State) (launch epoch : Nat) : Bool :=
  s.rsets.any fun c => c.launch == launch && c.epoch == epoch

/-- Every group of the launch has exited or closed the epoch (R291); groups not yet placed have not. -/
def State.epochClosed (s : State) (launch epoch : Nat) : Bool :=
  !(s.started.any fun x => x.launch.id == launch && decide (x.next < x.launch.groups)) &&
  (s.threads.all fun g => g.seq.isSome || g.launchId.toNat != launch || decide (epoch < g.repoch)) &&
  !((s.abuf ++ s.redq ++ s.flight.filterMap Flight.red).any fun c => c.launch == launch && c.epoch == epoch)

/-- The launch's sets of an epoch have been applied (R291). -/
def State.epochOver (s : State) (launch epoch : Nat) : Bool :=
  s.epochClosed launch epoch && !s.setOpen launch epoch

/-- Epochs of a launch that have closed and hold sets, lowest first, and are not in the list yet (R144). -/
def State.newlyClosed (s : State) (launch : Nat) : List (Nat × Nat) :=
  ((List.range ((s.rsets.map (·.epoch)).foldl max 0 + 1)).filter fun e =>
    s.setOpen launch e && s.epochClosed launch e && !s.closed.contains (launch, e)).map fun e => (launch, e)

/-- The wait of an arm in RFLUSH is over: WAUX 0 while contributions drain, the epoch + 1 once the group has
closed it (R291). -/
def State.flushOver (s : State) (g : Group) (a : Arm) : Bool :=
  if a.waux = 0 then !s.redPending g.tid else s.epochOver g.launchId.toNat (a.waux.toNat - 1)

/-- The arms of a thread in RFLUSH whose wait is over are resumed. -/
def State.wakeFlush (s : State) (g : Group) : Group :=
  let f (a : Arm) : Arm := if a.occ && a.ws == .rflush && s.flushOver g a then a.resume else a
  { g with armA := f g.armA, armB := f g.armB }

/-- The launches that the closing order and the waiting RFLUSHes follow: sets that a close, an exit or a
drain of the launch has completed are noted, and the waits that it ends end (R144, R291). -/
def State.settleSets (s : State) (launch : Nat) : State :=
  let s1 := { s with closed := s.closed ++ s.newlyClosed launch }
  { s1 with cur := s1.wakeFlush s1.cur, others := s1.others.map s1.wakeFlush }

/-- The effect of RFLUSH (R291). -/
def flushBody (b : Nat) (s : State) : Eff :=
  let g := s.cur
  let launch := g.launchId.toNat
  if g.me.replay && g.me.waux != 0 then
    if s.epochOver launch (g.me.waux.toNat - 1) then .done s else .stay (s.waitAs .rflush 0 g.me.waux)
  else
    let s1 := s.flush g.tid
    if s1.redPending g.tid then .stay (s1.waitAs .rflush 0 0)
    else if bitAt (g.sval b).toNat 0 && g.eff.det then
      let s2 := (s1.modCur fun g => { g with repoch := g.repoch + 1 }).settleSets launch
      if s2.epochOver launch g.repoch then .done s2 else .stay (s2.waitAs .rflush 0 (w32 (g.repoch + 1)))
    else .done s1

/-- RFLUSH (R291). -/
def execRflush (b : Nat) (_ea eb : Bool) (s : State) : Host.Outcome State Fault Refusal :=
  issue 4 { srcs := s.cur.srcB eb b (s.cur.sregs b) ++ Group.polSrc 0 } (flushBody b) s

/-- Arms of a thread that wait in a state are resumed. -/
def Group.resumeWs (g : Group) (ws : WState) : Group :=
  let f (a : Arm) : Arm := if a.occ && a.ws == ws then a.resume else a
  { g with armA := f g.armA, armB := f g.armB }

/-- Arms that wait in a state are resumed, in every thread. -/
def State.resumeAll (s : State) (ws : WState) : State :=
  { s with cur := s.cur.resumeWs ws, others := s.others.map fun g => g.resumeWs ws }

/-! ### Cache maintenance (R292, R293, R101) -/

/-- Parts of a range, each within one 64 KiB-aligned piece. -/
def pieces : Nat → Nat → Nat → List (Nat × Nat)
  | 0, _, _ => []
  | k + 1, a, n =>
    if n = 0 then []
    else
      let room := 0x10000 - a % 0x10000
      if n ≤ room then [(a, n)] else (a, room) :: pieces k (a + room) (n - room)

/-- The covered range: whole lines that meet it, or that lie inside it (R292). -/
def coverMeet (a n : Nat) : Nat × Nat := (a / 64 * 64, (a + n + 63) / 64 * 64 - a / 64 * 64)
/-- The lines wholly inside the range. -/
def coverInside (a n : Nat) : Nat × Nat := ((a + 63) / 64 * 64, (a + n) / 64 * 64 - (a + 63) / 64 * 64)

/-- The pieces of a covered range. -/
def coverPieces (c : Nat × Nat) : List (Nat × Nat) := pieces 260 c.1 c.2

/-- A range that lies in global space. -/
def inGlobal (a : Nat) : Bool := decide (a % 2 ^ 64 / 2 ^ 57 = 0)

/-- What an access to a piece waits for: the publish step of its page (R82), a gated memory die (R206), and
with own an engine's write of its lines (R99). -/
def State.pieceGate (s : State) (own : Bool) (p : Nat × Nat) : Option (Option Nat) :=
  if !inGlobal p.1 then none
  else
    match s.walkGate (s.cur.view .load) s.cur.eff.troot p.1 with
    | some d => some (some d)
    | none =>
      match s.translate (s.cur.view .load) s.cur.eff.troot p.1 with
      | .leaf pte _ psize =>
        let q := leafPlace pte psize p.1
        if pteCoh pte = 3 || (own && s.engineOwns q p.2) || s.frozenAt q then some none else (s.gated q).map some
      | _ => none

/-- The arm waits when a piece does. -/
def State.pieceWait (s : State) (own : Bool) (ps : List (Nat × Nat)) (k : Eff) : Eff :=
  match ps.findSome? (s.pieceGate own) with
  | some d => .stay (s.waitHome d)
  | none => k

/-- The translation of a page that a piece uses (R78). -/
def State.pieceEntry (s : State) (pte pteAt psize a : Nat) : TlbEntry :=
  ⟨s.cur.die, s.cur.eff.troot, a / pageBytes psize * pageBytes psize, psize, pte, pteAt,
    s.incarnOf (leafPlace pte psize a), (s.cur.view .load).core⟩

/-- The pages of the covered pieces are used, but for those whose translation was removed with its peer (R77, R78,
R390). -/
def State.pieceTouch (s : State) (acc : Access) (ps : List (Nat × Nat)) : State :=
  ps.foldl (fun s p =>
    if inGlobal p.1 && (s.wasRemoved (s.cur.view .load) s.cur.eff.troot p.1).isNone then
      match s.translate (s.cur.view .load) s.cur.eff.troot p.1 with
      | .leaf pte pteAt psize =>
        if (s.denied s.cur.eff.troot pte acc).isSome then s
        else s.touch (s.pieceEntry pte pteAt psize p.1) false
      | _ => s
    else s) s

/-- Device addresses of a covered piece that is present. -/
def State.piecePa (s : State) (p : Nat × Nat) : Option Nat :=
  if inGlobal p.1 then
    match s.translate (s.cur.view .load) s.cur.eff.troot p.1 with
    | .leaf pte _ psize => (match leafPlace pte psize p.1 with
      | .dev pa => some pa
      | _ => none)
    | _ => none
  else none

/-- A line's newest value is in LPDDR (R293 WBK under SYSTEM). -/
def State.cleanLines (s : State) (pa n : Nat) : State :=
  { s with dirty := s.dirty.filter fun e => !(decide (pa ≤ e.1) && decide (e.1 < pa + n)) }

/-- A dirty line dropped without write-back: it holds what LPDDR holds; a watched line keeps its value
(R101, R293, R185). -/
def State.discardLines (s : State) (pa n : Nat) : State :=
  (s.dirty.filter fun e => decide (pa ≤ e.1) && decide (e.1 < pa + n) &&
      !(List.range 16).any fun i => s.watched (e.1 + 4 * i)).foldl
    (fun s e => { s with mem := s.mem.putBytes e.1 e.2, dirty := s.dirty.filter fun x => x.1 != e.1 }) s

/-- Checks of PREF, DISC, WBK and INV. -/
def preMemc (g : Group) (a b : Nat) (ea eb : Bool) : Pre :=
  { srcs := g.srcA ea a (g.spregs a) ++ g.srcB eb b (g.sregs b) ++ Group.polSrc 0 }

/-- ILLEGAL SIZE (R292). -/
def State.memcSize (s : State) (n : Nat) (k : Eff) : Eff :=
  if 0x1000000 < n then .trap s (s.illegal 15) else k

/-- PREF: fills change no value; translations are cached (R293). -/
def execPref (a b : Nat) (ea eb : Bool) (s : State) : Host.Outcome State Fault Refusal :=
  issue 4 (preMemc s.cur a b ea eb)
    (fun s =>
      let ps := coverPieces (coverMeet (s.cur.spval a).toNat (s.cur.sval b).toNat)
      if 0x1000000 < (s.cur.sval b).toNat ∨ s.cur.sval b = 0 ∨ !ps.any (fun p => inGlobal p.1) then .idle s
      else s.pieceWait false ps (.done (s.pieceTouch .load ps))) s

/-- The effect of WBK and INV: under SYSTEM the covered lines reach LPDDR (R293). -/
def writeBack (a b : Nat) (s : State) : Eff :=
  let n := (s.cur.sval b).toNat
  let ps := coverPieces (coverMeet (s.cur.spval a).toNat n)
  s.memcSize n
    (if n = 0 ∨ !ps.any (fun p => inGlobal p.1) then .idle s
     else s.pieceWait false ps
      (let s1 := if modeScope s.cur.me.mode = 3 then
          ps.foldl (fun s p => match s.piecePa p with
            | some pa => s.cleanLines pa p.2
            | none => s) s
        else s
      .done (s1.send (.maint s.cur.who))))

/-- WBK (R293). -/
def execWbk (a b : Nat) (ea eb : Bool) (s : State) : Host.Outcome State Fault Refusal :=
  issue 4 (preMemc s.cur a b ea eb) (writeBack a b) s

/-- INV: as WBK; what it then invalidates holds no value of its own (R293). -/
def execInv (a b : Nat) (ea eb : Bool) (s : State) : Host.Outcome State Fault Refusal :=
  issue 4 (preMemc s.cur a b ea eb) (writeBack a b) s

/-- The lines of DISC, page by page in ascending order (R293); a page whose translation was removed with its peer is an
MCHECK (R390). -/
def State.discPieces (s : State) : List (Nat × Nat) → Eff
  | [] => .done (s.send (.maint s.cur.who))
  | p :: ps =>
    if (s.wasRemoved (s.cur.view .load) s.cur.eff.troot p.1).isSome then
      .trap (s.forgetAt (s.cur.view .load) s.cur.eff.troot p.1) ⟨.mcheck, 2, w64 p.1, 0⟩
    else if inGlobal p.1 then
      match s.translate (s.cur.view .load) s.cur.eff.troot p.1 with
      | .absent _ => s.discPieces ps
      | .bad d => .trap s ⟨.prot, d, w64 p.1, 0⟩
      | .damaged => .trap s ⟨.mcheck, 5, w64 p.1, 0⟩
      | .leaf pte pteAt psize =>
        match s.denied s.cur.eff.troot pte .store with
        | some d => .trap s ⟨.prot, d, w64 p.1, 0⟩
        | none =>
          let s1 := s.touch (s.pieceEntry pte pteAt psize p.1) false
          match leafPlace pte psize p.1 with
          | .dev pa => (s1.discardLines pa p.2).discPieces ps
          | _ => s1.discPieces ps
    else s.discPieces ps

/-- The range meets a window of addresses: the first address of it that lies there. -/
def meets (c : Nat × Nat) (lo len : Nat) : Option Nat :=
  if c.2 ≠ 0 ∧ c.1 < lo + len ∧ lo < c.1 + c.2 then some (if c.1 < lo then lo else c.1) else none

/-- DISC (R292, R293). -/
def execDisc (a b : Nat) (ea eb : Bool) (s : State) : Host.Outcome State Fault Refusal :=
  issue 4 (preMemc s.cur a b ea eb)
    (fun s =>
      let n := (s.cur.sval b).toNat
      let addr := (s.cur.spval a).toNat
      let ps := coverPieces (coverInside addr n)
      s.memcSize n
        (if n = 0 then .idle s
         else
          match meets (addr, n) 0xFE00000000000000 0x10000000 with
          | some x => .trap s ⟨.prot, 3, w64 x, 0⟩
          | none =>
            match meets (addr, n) 0xFE80000000000000 0x10000 with
            | some x => .trap s ⟨.prot, 4, w64 x, 0⟩
            | none => if !ps.any (fun p => inGlobal p.1) then .idle s else s.pieceWait true ps (s.discPieces ps))) s

/-! ### Barriers (R294 to R297, R375) -/

/-- Barriers of a group's neighbourhood; 1 outside one (R294). -/
def Group.barCount (g : Group) : Nat := if g.info.nbh then g.info.w * g.info.h else 1

/-- The group that holds barrier a of a group (R294). -/
def State.barHolder (s : State) (g : Group) (a : Nat) : Option Group :=
  if g.info.nbh then s.member g a else some g

/-- P of a barrier (R294). -/
def Group.phase (g : Group) (a : Nat) : Nat := g.phases.getD a 0

/-- P of a barrier set. -/
def Group.setPhase (g : Group) (a q : Nat) : Group :=
  { g with phases := (g.phases ++ List.replicate (a + 1 - g.phases.length) 0).set a (q % 2 ^ 32) }

/-- The count of the phase at distance j from the oldest. -/
def Bar.count (x : Bar) (j : Nat) : Nat := [x.c0, x.c1, x.c2, x.c3].getD j 0

/-- A contribution added to the count at distance j. -/
def Bar.bump (x : Bar) (j b : Nat) : Bar :=
  match j with
  | 0 => { x with c0 := x.c0 + b }
  | 1 => { x with c1 := x.c1 + b }
  | 2 => { x with c2 := x.c2 + b }
  | _ => { x with c3 := x.c3 + b }

/-- Phases complete in ascending order, each shifting B by one (R295). -/
def Bar.settle : Nat → Bar → Bar
  | 0, x => x
  | k + 1, x =>
    if x.n ≠ 0 ∧ x.c0 = x.n then
      Bar.settle k { x with b := (x.b + 1) % 2 ^ 32, c0 := x.c1, c1 := x.c2, c2 := x.c3, c3 := 0 }
    else x

/-- No phase has a contribution. -/
def Bar.idle (x : Bar) : Bool := x.c0 == 0 && x.c1 == 0 && x.c2 == 0 && x.c3 == 0

/-- q − B modulo 2^32 (R294). -/
def Bar.dist (x : Bar) (q : Nat) : Nat := (q + 2 ^ 32 - x.b) % 2 ^ 32

/-- Phase q has completed. -/
def Bar.passed (x : Bar) (q : Nat) : Bool := decide (2 ^ 31 ≤ x.dist q)

/-- A BARRIER trap: TINFO the barrier, TADDR P and B (R375). -/
def barTrap (detail a p b : Nat) : Trap := ⟨.barrier, detail, w64 (p + b * 2 ^ 32), w32 (a % 65536)⟩

/-- NUMBER or REMOVED, or the holder of barrier a of a group (R296). -/
def State.barCheck (s : State) (g : Group) (a : Nat) : Except Trap Group :=
  if g.barCount ≤ a then .error (barTrap 1 a 0 0)
  else
    match s.barHolder g a with
    | none => .error (barTrap 8 a (g.phase a) 0)
    | some h => .ok h

/-- Why an arrival traps (R296). -/
def arriveBad (x : Bar) (q b : Nat) : Option Nat :=
  if x.n = 0 ∨ b = 0 ∨ x.n < b ∨ (x.dist q < 4 ∧ x.n < x.count (x.dist q) + b) then some 3
  else if 2 ^ 31 ≤ x.dist q then some 5
  else if 4 ≤ x.dist q then some 4
  else none

/-- Sources of a BAR instruction. -/
def preBar (g : Group) (a b : Nat) (ea eb : Bool) (dests : List RegId) : Pre :=
  { srcs := g.srcA ea a (g.sregs a) ++ g.srcB eb b (g.sregs b), dests := dests }

/-- BARI (R295, R296). -/
def execBari (a b : Nat) (ea eb : Bool) (s : State) : Host.Outcome State Fault Refusal :=
  issue 4 (preBar s.cur a b ea eb [])
    (fun s =>
      let n := (s.cur.sval a).toNat
      let v := (s.cur.sval b).toNat
      match s.barCheck s.cur n with
      | .error t => .trap s t
      | .ok h =>
        if v = 0 ∨ 65535 < v ∨ (!h.bar.idle ∧ v ≠ h.bar.n) then
          .trap s (barTrap 2 n (s.cur.phase n) h.bar.b)
        else if h.bar.n = v then .idle s
        else .done (s.modThread h.tid fun h => { h with bar := { h.bar with n := v } })) s

/-- An arrival leaves for the holding slot; the arm stays until the slot has counted it (R295). -/
def arriveBody (thenWait : Bool) (a b : Nat) (s : State) : Eff :=
  let n := (s.cur.sval a).toNat
  let v := (s.cur.sval b).toNat
  match s.barCheck s.cur n with
  | .error t => .trap s t
  | .ok h =>
    match arriveBad h.bar (s.cur.phase n) v with
    | some d => .trap s (barTrap d n (s.cur.phase n) h.bar.b)
    | none => .stay ((s.waitAs .arriving n 0).send (.arrive s.cur.tid s.cur.sel n v thenWait))

/-- The wait for phase q of barrier n, whose holder is h (R295). -/
def waitPhase (n q : Nat) (h : Group) (s : State) : Eff :=
  if h.bar.passed q then .done s else .stay (s.waitAs .barrier n (w32 q))

/-- The end of a wait at a barrier: its phase has completed, or REMOVED when its holder has exited first
(R295, R296). -/
def barLeft (s : State) : Eff :=
  let n := s.cur.me.wreg
  if s.cur.me.lost then .trap s (barTrap 8 n (s.cur.phase n) 0) else .done s

/-- BARA (R295). -/
def execBara (a b : Nat) (ea eb : Bool) (s : State) : Host.Outcome State Fault Refusal :=
  issue 4 (preBar s.cur a b ea eb [])
    (fun s => if s.cur.me.replay then .done s else arriveBody false a b s) s

/-- BARW (R295). -/
def execBarw (a b : Nat) (ea eb : Bool) (s : State) : Host.Outcome State Fault Refusal :=
  issue 4 (preBar s.cur a b ea eb [])
    (fun s =>
      if s.cur.me.replay then barLeft s
      else
        let n := (s.cur.sval a).toNat
        let v := (s.cur.sval b).toNat
        match s.barCheck s.cur n with
        | .error t => .trap s t
        | .ok h =>
          if 3 < v ∨ s.cur.phase n ≤ v then .trap s (barTrap 6 n (s.cur.phase n) h.bar.b)
          else waitPhase n (s.cur.phase n - 1 - v) h s) s

/-- BARX: BARA, then BARW of the phase arrived at (R295). -/
def execBarx (a b : Nat) (ea eb : Bool) (s : State) : Host.Outcome State Fault Refusal :=
  issue 4 (preBar s.cur a b ea eb [])
    (fun s =>
      if s.cur.me.replay then barLeft s
      else arriveBody true a b s) s

/-- BARQ (R295). -/
def execBarq (d a b : Nat) (ea eb : Bool) (s : State) : Host.Outcome State Fault Refusal :=
  issue 4 (preBar s.cur a b ea eb [.ofS s.cur.sel d])
    (fun s =>
      let n := (s.cur.sval a).toNat
      match s.barCheck s.cur n with
      | .error t => .trap s t
      | .ok h =>
        if 2 ≤ (s.cur.sval b).toNat then .trap s (barTrap 7 n (s.cur.phase n) h.bar.b)
        else
          let x := if s.cur.sval b = 0 then s.cur.phase n else h.bar.n
          .done (s.modCur fun g => g.setS d (w32 x))) s

/-! ### Copies (R298, R299) -/

/-- Pieces of a row, each within one 1 KiB-aligned block. -/
def blocks : Nat → Nat → Nat → List (Nat × Nat)
  | 0, _, _ => []
  | k + 1, a, n =>
    if n = 0 then []
    else
      let room := 0x400 - a % 0x400
      if n ≤ room then [(a, n)] else (a, room) :: blocks k (a + room) (n - room)

/-- Blocks of all rows: rows from base, pitch apart, each of n bytes. -/
def rowBlocks (base pitch n : Nat) : Nat → List (Nat × Nat)
  | 0 => []
  | k + 1 => blocks (n / 0x400 + 2) base n ++ rowBlocks (base + pitch) pitch n k

/-- An address lies in the scratchpad windows (R69). -/
def inWindows (a : Nat) : Bool :=
  decide (0xFF00000000000000 ≤ a) && decide (a < 0xFF00000000000000 + 576 * 2 ^ 25)

/-- The stack aperture takes no part in a copy. -/
def inStack (a : Nat) : Bool := decide (0xFE80000000000000 ≤ a) && decide (a < 0xFE80000000014000)

/-- A copy's own form of an aperture failure: in the stack aperture or an unbacked scratchpad part (R298, R429). -/
def copyReach (a : Nat) : Reach → Reach
  | .fail .aperture d => .fail .aperture (if d ≠ 1 ∧ (inStack a || inWindows a) then 5 else d)
  | r => r

/-- The checks of one block of a copy. -/
def State.blockReach (s : State) (acc : Access) (a n : Nat) : Reach :=
  if inStack a then .fail .aperture 5 else copyReach a (s.reach acc true 1 0 (w64 a) n)

/-- The first block of a range that lies in no part of an aperture that a copy may use (R432). -/
def State.copyAperture (s : State) (acc : Access) (bs : List (Nat × Nat)) : Option Trap :=
  bs.findSome? fun b =>
    match s.blockReach acc (b.1 % 2 ^ 64) b.2 with
    | .fail .aperture d => some (laneTrap .aperture d 0 (w64 b.1))
    | _ => none

/-- Byte of the first word of a block that a scratchpad error lies in (R393). -/
def State.blockBad (s : State) (lo : Place) (n : Nat) : Option Nat :=
  ((List.range (n / 4)).find? fun i => s.spadBad (lo.plus (4 * i))).map (4 * ·)

/-- Every block of a range checked and translated: the hits with their lengths, or what stops it. -/
def State.copyHits (s : State) (acc : Access) : List (Nat × Nat) → Checked
  | [] => .ok [] []
  | (a0, n) :: rest =>
    let a := a0 % 2 ^ 64
    match s.blockReach acc a n with
    | .fail c d => .trap (laneTrap c d 0 (w64 a))
    | .hit lo hi e =>
      match (if acc = .load then s.blockBad lo n else none) with
      | some o => .trap ⟨.mcheck, 4, w64 (a + o), 0⟩
      | none =>
      match s.copyHits acc rest with
      | .ok hs as => .ok (⟨n, lo, hi, e, w64 a⟩ :: hs) as
      | r => r
    | .absent psize =>
      match s.copyHits acc rest with
      | .ok hs as => .ok hs ((0, w64 a, psize) :: as)
      | r => r
    | .frozen d =>
      match s.copyHits acc rest with
      | .trap t => .trap t
      | _ => .frozen d

/-- The words of a block: place and address of each. -/
def blockWords (h : Hit) : List (Place × W64) :=
  (List.range (h.lane / 4)).map fun i => (h.lo.plus (4 * i), h.addr + w64 (4 * i))

/-- A destination line whose source showed an error becomes damaged; a line wholly written with good
data leaves the list, and a record in it that a home marked is read anew (R392, R399, R404). -/
def State.copyDamage (s : State) (ws : List (Place × Option Nat)) : State :=
  ws.foldl (fun s x =>
    match x with
    | (.dev pa, some _) => s.damageLine (pa / 64 * 64)
    | (.dev pa, none) =>
      if (s.damaged pa || s.recordMarked (pa / 64 * 64)) &&
          (List.range 16).all (fun i => ws.contains (.dev (pa / 64 * 64 + 4 * i), none))
      then s.rewritten (pa / 64 * 64) 64 else s
    | _ => s) s

/-- The error that reading the word of a block meets: a translation removed with its peer (R195), a line in error
(R392). -/
def State.copySource (s : State) (h : Hit) (p : Place) : Option Nat := if s.removedHit h then some 2 else s.readErr p

/-- The error that writing the word of a block meets: its translation removed with its peer, a peer or host gone, a fenced
die (R195, R390, R415, R422). -/
def State.copySink (s : State) (h : Hit) (p : Place) : Option Nat :=
  if s.removedHit h then some 2 else if p.away || s.fencedAt p then s.readErr p else none

/-- The words of the blocks of a range, each with its block. -/
def hitWords (hs : List Hit) : List (Hit × Place × W64) := hs.flatMap fun h => (blockWords h).map fun x => (h, x)

/-- The words of a copy, each with its source as it stands now (R299). -/
def State.copyTodo (s : State) (hs hd : List Hit) : List CopyWord :=
  ((hitWords hs).zip (hitWords hd)).map fun (x, y) =>
    { src := x.2.1, srcAddr := x.2.2, value := w32 (s.loadAt x.2.1 4), srcErr := s.copySource x.1 x.2.1
      dst := y.2.1, dstAddr := y.2.2, dstErr := s.copySink y.1 y.2.1 }

/-- Copies of a scheduler that have not completed (R299). -/
def State.copiesOut (s : State) (core sched : Nat) : Nat :=
  (s.flight.filter fun f => match f with
    | .copy _ j => j.core == core && j.sched == sched
    | _ => false).length

/-! ### The engine of a copy (R299) -/

/-- The words of the next destination line of a copy, and those after it. -/
def nextLine : List CopyWord → List CopyWord × List CopyWord
  | [] => ([], [])
  | w :: ws => (w :: ws.takeWhile fun x => x.dst.line == w.dst.line, ws.dropWhile fun x => x.dst.line == w.dst.line)

/-- The word with the error that its places show now: lost after the copy issued (R390, R415, R422). -/
def State.wordNow (s : State) (w : CopyWord) : CopyWord :=
  let gone (p : Place) : Bool := p.away || s.fencedAt p || (match p with
    | .removed _ _ => true
    | _ => false)
  let now (p : Place) (e : Option Nat) : Option Nat := if e.isNone && gone p then s.readErr p else e
  { w with srcErr := now w.src w.srcErr, dstErr := now w.dst w.dstErr }

/-- The first error of the words of a line: in their sources, else in their destinations (R392). -/
def CopyJob.lineErr (j : CopyJob) (ws : List CopyWord) : Option MCheck :=
  let mc (a : W64) (d : Nat) : MCheck := ⟨j.armB, a, 0, d, j.issued⟩
  match ws.findSome? fun w => w.srcErr.map (mc w.srcAddr) with
  | some m => some m
  | none => ws.findSome? fun w => w.dstErr.map (mc w.dstAddr)

/-- The requests of the words of a line to hosts and peers. -/
def CopyJob.lineFar (s : State) (j : CopyJob) (ws : List CopyWord) : List Far :=
  let far (p : Place) (a : W64) (e : Option Nat) : List Far :=
    if p.away && e.isNone then [⟨j.armB, 0, a, p, 4, s.loadAt p 4, [], j.issued⟩] else []
  (ws.flatMap fun w => far w.src w.srcAddr w.srcErr) ++ ws.flatMap fun w => far w.dst w.dstAddr w.dstErr

/-- A line of a copy is written: the sources as they stood at issue, where they can be written (R299). -/
def State.writeLine (s : State) (ws : List CopyWord) : State :=
  (ws.foldl (fun s w => if w.dstErr.isSome then s else s.storeAt w.dst 4 w.value.toNat) s).copyDamage
    (ws.map fun w => (w.dst, w.srcErr))

/-- The next line waits: for the publish step of its frame, for room in the send window, or for a memory die (R82, R193,
R206). -/
def State.lineWaits (s : State) (ws : List CopyWord) : Bool :=
  ws.any fun w => s.frozenAt w.dst || s.windowFull w.dst 16 4 || s.windowFull w.src 16 4 || s.behind w.dst

/-- The effect of ACOPY and ACOPY2D: rows of n bytes (R298, R299). The engine writes the lines later, each as its source
stood at issue. -/
def copyBody (src dst n rows sp dp : Nat) (s : State) : Eff :=
  let sb := rowBlocks src sp n rows
  let db := rowBlocks dst dp n rows
  if n = 0 ∨ rows = 0 then .idle s
  else if src % 4 ≠ 0 then .trap s ⟨.misalign, 3, w64 src, 0⟩
  else if dst % 4 ≠ 0 then .trap s ⟨.misalign, 3, w64 dst, 0⟩
  else if n % 4 ≠ 0 then .trap s ⟨.misalign, 4, w64 src, 0⟩
  else if 0x1000000 < n * rows ∨ (1 < rows ∧ dp < n) then .trap s (s.illegal 15)
  else
    match s.copyAperture .load sb, s.copyAperture .store db with
    | some t, _ | none, some t => .trap s t
    | none, none =>
    match s.copyHits .load sb with
    | .trap t => .trap s t
    | .frozen d => .stay (s.waitHome d)
    | .ok hs as =>
      match s.copyHits .store db with
      | .trap t => .trap s t
      | .frozen d => .stay (s.waitHome d)
      | .ok hd ad =>
        if !(as ++ ad).isEmpty then .park (s.park (if as.isEmpty then .store else .load) true (as ++ ad))
        else if 8 ≤ s.copiesOut s.cur.loc.core s.cur.loc.sched then .stay s.stall
        else
          let s1 := (s.touchAll false hs).touchAll true hd
          .done ((s1.forget (hs ++ hd)).send
            (.copy s.cur.tid ⟨s.cur.loc.core, s.cur.loc.sched, s.cur.sel, s.clock, none, [], s1.copyTodo hs hd⟩))

/-- ACOPY: one row of b bytes (R298). -/
def execAcopy (d a b : Nat) (ea eb : Bool) (s : State) : Host.Outcome State Fault Refusal :=
  let g := s.cur
  issue 4
    { srcs := blocking (g.spregs d) ++ g.srcA ea a (g.spregs a) ++ g.srcB eb b (g.sregs b)
        ++ Group.polSrc 0 }
    (fun s => copyBody (s.cur.spval a).toNat (s.cur.spval d).toNat (s.cur.sval b).toNat 1 0 0 s) s

/-- ACOPY2D: the shape in the pair b (R298). -/
def execAcopy2d (d a b : Nat) (ea eb : Bool) (s : State) : Host.Outcome State Fault Refusal :=
  let g := s.cur
  issue 4
    { srcs := blocking (g.spregs d) ++ g.srcA ea a (g.spregs a) ++ g.srcB eb b (g.spregs b)
        ++ Group.polSrc 0 }
    (fun s =>
      let x := (s.cur.spval b).toNat
      copyBody (s.cur.spval a).toNat (s.cur.spval d).toNat (bitsOf x 15 0) (bitsOf x 31 16)
        (bitsOf x 47 32 * 16) (bitsOf x 63 48 * 16) s) s

/-! ### Tags (R300) -/

/-- A written tag: an error in it is gone (R393). -/
def Group.putTag (g : Group) (n tag : Nat) : Group :=
  { g with
    v := vset g.v n { g.vreg n with tag := tag }
    bad := g.bad.filter fun (k, r, _) => !(k == 5 && r == n) }

/-- TAGW: the tag alone changes, not the lanes nor the full/empty bit. -/
def execTagw (d a : Nat) (ea _eb : Bool) (s : State) : Host.Outcome State Fault Refusal :=
  issue 4 { vs := [d], srcs := s.cur.srcA ea a (s.cur.sregs a), dests := [.v d] }
    (fun s =>
      let x := (s.cur.sval a).toNat
      if 10 < x then .trap s (formatTrap 5 (x % 16) 1)
      else .done (s.modCur fun g => g.putTag d x)) s

end Sys2Proof.Machine
end

