-- ==== Sys2Proof/Machine/Saves.lean ====
section
/-!
DEFINITION. Save records: a group written to its record and read back (R39, R44, R45), and when a saved
group can be dispatched (R46, R58, R79).
-/

namespace Sys2Proof.Machine

/-- Bytes of a save record (R44). -/
def recordBytes (vregs spad : Nat) : Nat := (2048 + vregs * 384 + spad * 1024 + 4095) / 4096 * 4096

/-! ### The header (R45) -/

/-- The states of WSTATE in the order of their codes. -/
def wstates : List WState :=
  [.ready, .blocked, .sleep, .sigw, .join, .take, .scopew, .barrier, .yld, .rcv, .parked, .rflush, .wsload,
   .tdrain, .held]

/-- Position of a state in the list. -/
def codeIn (w : WState) : Nat → List WState → Nat
  | n, [] => n
  | n, x :: r => if x = w then n else codeIn w (n + 1) r

/-- WSTATE of an arm; a block on a register that a JOIN fills is JOIN (R45). -/
def Arm.wstate (a : Arm) (joining : Bool) : Nat :=
  if a.ws = .blocked ∧ joining then 4
  else if a.ws = .arriving then 0 else codeIn a.ws 0 wstates

/-- The name that a JOIN of the group with a register waits for: one that has a joiner record of it, or the target of the
JOIN where the name home holds it (R61, R62, R379). -/
def State.joinedReg (s : State) (tid : Nat) (r : RegId) : Option Nat :=
  match s.names.find? fun e => e.joiners.any fun j => match j with
    | .group _ w q => w.tid == tid && q == r
    | .host _ _ => false with
  | some e => some e.name
  | none => (s.hold.find? fun op => op.src == .group tid && op.kind == .join r).map (·.target)

/-- A mask as 12 bytes. -/
def maskField (o : Nat) (m : Mask) : HField := (o, 12, m.toNat)

/-- Words of 4 bytes from an offset on. -/
def wordFields : Nat → List W32 → List HField
  | _, [] => []
  | o, w :: ws => (o, 4, w.toNat) :: wordFields (o + 4) ws

/-- The v registers that the group has. -/
def Group.vecs (g : Group) : List VReg := g.v.toList.take g.vregs

/-- A divergence record at an offset (R39). -/
def DivRec.fields (o : Nat) (r : DivRec) : List HField :=
  [(o, 8, r.pc.toNat), maskField (o + 8) r.mask, (o + 0x14, 1, if r.kind1 then 1 else 0),
   (o + 0x15, 1, if r.split then 1 else 0)]

/-- An arm block (R45). -/
def Arm.fields (a : Arm) (joining : Bool) (o : Nat) : List HField :=
  [(o, 1, if a.occ then 1 else 0), (o + 1, 1, a.wstate joining), (o + 2, 1, a.wreg),
   (o + 3, 1, if a.splitOff then 1 else 0), (o + 4, 4, a.mode.toNat), (o + 8, 8, a.pc.toNat),
   (o + 0x10, 4, a.srcnt.toNat), (o + 0x14, 4, a.waux.toNat), maskField (o + 0x18) a.park,
   (o + 0x24, 2, a.bfull.toNat)]
  ++ wordFields (o + 0x28) a.bank.toList
  ++ ((a.dstk.take 4).zipIdx.flatMap fun (r, i) => r.fields (o + 0x70 + 32 * i))

/-- A recorded operation (R45). -/
def RecOp.fields (o : Nat) (r : RecOp) : List HField :=
  [(o, 8, r.pc.toNat), (o + 8, 4, r.word.toNat), (o + 0xC, 1, if r.armB then 1 else 0),
   (o + 0x10, 8, r.opa.toNat), (o + 0x18, 8, r.opb.toNat), (o + 0x20, 8, r.opc.toNat)]

/-- DSTKP: the depths of the two stacks (R39). -/
def Group.dstkp (g : Group) : W32 := w32 (g.armA.depth + g.armB.depth * 2 ^ 16)

/-- ARMS as an arm reads it (R334). -/
def Group.armsOf (g : Group) (self : Bool) : W32 := armsWord g.armA.occ g.armB.occ self g.nerr g.nout

/-- A truth value as a bit of a weight. -/
def bitW (b : Bool) (w : Nat) : Nat := if b then w else 0

/-- The header of a group's record (R45). -/
def State.headerFields (s : State) (g : Group) : List HField :=
  let j (b : Bool) : Bool := (s.joinedReg g.tid (.ofS b (g.arm b).wreg)).isSome
  let mc := oldestMcheck g.mchecks
  [(0, 2, 1),
   (2, 2, bitW g.damaged 1 + bitW g.halted 2 + bitW g.wakePend 4 + bitW mc.isSome 8 + bitW g.hold 16),
   (4, 1, g.vregs), (5, 1, g.lastLanes), (6, 2, g.spadKiB), (8, 8, g.name.toNat), (0x10, 4, g.rank.toNat),
   (0x14, 4, g.ngroups.toNat), (0x18, 4, g.launchId.toNat), (0x1C, 4, g.nbidx.toNat),
   (0x20, 4, g.sigPend.toNat), (0x24, 4, g.repoch), (0x28, 4, (g.armsOf false).toNat),
   (0x2C, 4, g.tcause.toNat), (0x30, 8, g.tpc.toNat), (0x38, 8, g.taddr.toNat), (0x40, 4, g.tinfo.toNat),
   (0x44, 4, g.dstkp.toNat), (0x48, 8, g.stkB),
   (0x50, 8, match mc with | some m => m.addr.toNat | none => 0),
   (0x58, 4, match mc with | some m => m.lane % 256 + m.detail % 256 * 256 + bitW m.armB 65536 | none => 0),
   (0x5C, 4, g.recs.length),
   (0x120, 8, g.sfull.toNat % 2 ^ 48),
   (0x128, 16, (g.vecs.zipIdx.map fun (v, i) => bitW v.full (2 ^ i)).sum),
   (0x138, 1, (g.pfull ||| 1).toNat),
   (0x140, 64, (g.vecs.zipIdx.map fun (v, i) => v.tag % 16 * 16 ^ i).sum)]
  ++ wordFields 0x60 g.s.toList
  ++ ((List.range 7).map fun i => maskField (0x180 + 12 * i) (g.pred (i + 1)))
  ++ g.armA.fields (j false) 0x1E0 ++ g.armB.fields (j true) 0x2E0
  ++ ((g.recs.take 16).zipIdx.flatMap fun (r, i) => r.fields (0x3F0 + 64 * i))

/-- n zero bytes. -/
def zeroBytes (m : Memory) (a n : Nat) : Memory := m.putBytes a (List.replicate n 0)

/-- The place of an address in a save area: it names a peer's or a host's memory as FIN does (R76, R380, log 43). -/
def savePlace (a : Nat) : Place := (finPlace a).getD (.dev a)

/-- A write to an address of a save area faults: outside device memory, or on the way to a peer or a host that is gone
(R380). -/
def State.saveLost (s : State) (a : Nat) : Bool :=
  match savePlace a with
  | .dev pa => decide (6 * sectorSize ≤ pa)
  | .peer q _ => !s.peerUp q
  | .host p _ => !s.hostAt p
  | _ => true

/-- A change of the memory that holds a save area's address; none where the write faults (R380). -/
def State.onImage (s : State) (a : Nat) (f : Memory → Nat → Memory) : State :=
  if s.saveLost a then s
  else
    let (m, k) := s.memOf (savePlace a)
    s.setMemOf (savePlace a) (f m k)

/-- The header in memory. -/
def State.writeHeader (s : State) (g : Group) : State :=
  s.onImage g.saveRec fun m a => writeFields (zeroBytes m a 2048) a (s.headerFields g)

/-- The v registers and the scratchpad of a group in memory, from an address on (R44). -/
def Group.writeBody (g : Group) (m : Memory) (a : Nat) : Memory :=
  (g.vecs.zipIdx.foldl (fun m (v, i) => writeFields m (a + 384 * i) (wordFields 0 v.lanes.toList)) m).putBytes
    (a + 384 * g.vregs) (g.spad.bytes 0 (g.spadKiB * 1024))

/-- The whole record in memory: header, v registers, scratchpad (R44). -/
def State.writeRecord (s : State) (g : Group) : State :=
  (s.writeHeader g).onImage g.saveRec fun m a => g.writeBody m (a + 2048)

/-- An operation that changes a saved group changes its record (R58, R320). -/
def State.syncRecord (s : State) (tid : Nat) : State :=
  match s.thread tid with
  | some g => if !g.resident && g.seq.isNone && !g.migrating then s.writeHeader g else s
  | none => s

/-! ### A record read back (R45, R126, R370) -/

/-- Words of 4 bytes at an address. -/
def readWords (m : Memory) (a n : Nat) : Vector W32 n := tab n fun i => w32 (m.rd (a + 4 * i) 4)

/-- The state of an arm from its block: a JOIN blocks; a WSLOAD, a TDRAIN, a held read and an RFLUSH that drains
are issued again (R45, R126, log 15). -/
def readWs (code waux : Nat) : WState :=
  if code = 4 then .blocked
  else if code = 12 ∨ code = 13 ∨ code = 14 ∨ (code = 11 ∧ waux = 0) then .ready
  else wstates.getD code .ready

/-- An arm from its block, with the depth of its stack; the records below the top four lie in the stack
backing. RSVD bits are ignored, SRIDX among them, which a group has not (R5, R218); parked with no lane, it is parked on its fetch (R243, log 46). -/
def readArm (m : Memory) (armB : Bool) (a depth : Nat) : Arm :=
  let ws := readWs (m.rd (a + 1) 1) (m.rd (a + 0x14) 4)
  let park := BitVec.ofNat 96 (m.rd (a + 0x18) 12)
  { Arm.free with
    occ := m.rd a 1 == 1
    ws := ws
    parkFetch := ws == .parked && park == 0
    replay := ws == .ready && park != 0
    wreg := m.rd (a + 2) 1
    on := if m.rd (a + 1) 1 = 1 ∨ m.rd (a + 1) 1 = 4 then some (.ofS armB (m.rd (a + 2) 1)) else none
    splitOff := m.rd (a + 3) 1 == 1
    mode := modeKept (w32 (m.rd (a + 4) 4)) &&& 0xFFFF#32
    pc := w64 (m.rd (a + 8) 8)
    srcnt := w32 (m.rd (a + 0x10) 4)
    waux := w32 (m.rd (a + 0x14) 4)
    park := park
    bfull := BitVec.ofNat 16 (m.rd (a + 0x24) 2)
    bank := readWords m (a + 0x28) 16
    dstk := (List.range (if depth < 4 then depth else 4)).map fun i => readDivRec m (a + 0x70 + 32 * i)
    deep := depth - 4 }

/-- A recorded operation at an address. -/
def readRecOp (m : Memory) (a : Nat) : RecOp :=
  ⟨w64 (m.rd a 8), w32 (m.rd (a + 8) 4), m.rd (a + 0xC) 1 == 1, w64 (m.rd (a + 0x10) 8),
   w64 (m.rd (a + 0x18) 8), w64 (m.rd (a + 0x20) 8), 0⟩

/-- The group that a record at an address holds, of a region; it is saved. A record names no die: until the group
resumes, its parked arms count as parked on die 0 for REPLAY #1 (DESIGN CHOICE, log 15). -/
def State.readRecord (s : State) (region at_ : Nat) : Group :=
  let (m, a) := s.memOf (savePlace at_)
  let f (o n : Nat) : Nat := m.rd (a + o) n
  let flags := f 2 2
  let vregs := f 4 1
  let depths := f 0x44 4
  let stkB := f 0x48 8
  let info := f 0x58 4
  { Group.idle with
    tid := f 8 8
    name := w64 (f 8 8)
    region := region
    rank := w32 (f 0x10 4)
    ngroups := w32 (f 0x14 4)
    launchId := w32 (f 0x18 4)
    nbidx := w32 (f 0x1C 4)
    vregs := vregs
    lastLanes := f 5 1
    spadKiB := f 6 2
    info := { Group.idle.info with w := 1, h := 1, lead := f 8 8, prio := s.eff region .prio }
    eff := s.effVals region false
    damaged := bitAt flags 0
    halted := bitAt flags 1
    faulted := bitAt flags 1
    wakePend := bitAt flags 2
    mchecks := if bitAt flags 3 then
        [⟨bitAt info 16, w64 (f 0x50 8), info % 256, info / 256 % 256, 0⟩] else []
    hold := bitAt flags 4
    sigPend := w32 (f 0x20 4)
    repoch := f 0x24 4
    nerr := bitsOf (f 0x28 4) 15 8
    nout := bitsOf (f 0x28 4) 23 16
    tcause := tcauseKept (w32 (f 0x2C 4))
    tpc := w64 (f 0x30 8)
    taddr := w64 (f 0x38 8)
    tinfo := w32 (f 0x40 4)
    stkB := stkB
    s := readWords m (a + 0x60) 48
    sfull := BitVec.ofNat 64 (f 0x120 8 + (2 ^ 16 - 1) * 2 ^ 48)
    v := tab 128 fun i => if vregs ≤ i then .zero else
      ⟨readWords m (a + 2048 + 384 * i) 96, f 0x140 64 / 16 ^ i % 16, bitAt (f 0x128 16) i⟩
    p := tab 8 fun i => if i = 0 then BitVec.allOnes 96 else BitVec.ofNat 96 (f (0x174 + 12 * i) 12)
    pfull := BitVec.ofNat 8 (f 0x138 1)
    spad := Memory.empty.putBytes 0 (m.bytes (a + 2048 + 384 * vregs) (f 6 2 * 1024))
    recs := (List.range (f 0x5C 4 % 17)).map fun i => readRecOp m (a + 0x3F0 + 64 * i)
    armA := readArm m false (a + 0x1E0) (depths % 2 ^ 16)
    armB := readArm m true (a + 0x2E0) (depths / 2 ^ 16)
    preempted := true
    saveRec := at_ }

/-! ### What an imported group waits for (R79, R126, R217) -/

/-- The registers of a 64-bit result where ET is I64, of one word elsewhere (R285). -/
def wideDests (et : Nat) (b : Bool) (d : Nat) : List RegId :=
  if et = 11 then [.ofS b d, .ofS b (d + 1)] else [.ofS b d]

/-- The destinations of a load or an atomic that parks, of arm b under an element type (R79). -/
def parkedDests (et : Nat) (b : Bool) : Sys2Proof.Instr → List RegId
  | .ld d _ _ sz _ | .ldb d _ _ sz _ | .ldaqVector d _ _ sz _ => (dataRegs d sz).map .v
  | .lds d _ _ sz _ | .ldaqScalar d _ _ sz _ => (dataRegs d sz).map (.ofS b)
  | .atomAdd d _ _ _ _ | .atomAnd d _ _ _ _ | .atomOr d _ _ _ _ | .atomXor d _ _ _ _ | .atomMin d _ _ _ _
  | .atomMax d _ _ _ _ | .atomXchg d _ _ _ _ | .atomFadd d _ _ _ _ | .acasVector d _ _ _ _ => [.v d]
  | .atomsAdd d _ _ _ _ | .atomsAnd d _ _ _ _ | .atomsOr d _ _ _ _ | .atomsXor d _ _ _ _ | .atomsMin d _ _ _ _
  | .atomsMax d _ _ _ _ | .atomsXchg d _ _ _ _ | .atomsFadd d _ _ _ _ | .acasScalar d _ _ _ _ => wideDests et b d
  | _ => []

/-- s(n):s(n + 1) of arm b. -/
def pairRegs (b : Bool) (n : Nat) : List RegId := [.ofS b n, .ofS b (n + 1)]

/-- The destinations that a recorded operation of arm b leaves empty (R45, R124). -/
def recDests (et : Nat) (b : Bool) : Sys2Proof.Instr → List RegId
  | .join d _ _ _ | .mreq d _ _ _ _ | .qstat d _ _ _ | .watch d _ _ _ | .unwatch d _ _ _ | .warm d _ _ _
  | .wstat d _ _ _ => [.ofS b d]
  | .trd d _ _ _ _ => [.v d, .v (d + 1)]
  | .hnew d _ _ _ _ | .hinfo d _ _ _ => pairRegs b d
  | .hsplit d a _ _ => pairRegs b d ++ pairRegs b a
  | i => parkedDests et b i

/-- The instruction of a recorded operation; none has an extension word (R45). -/
def RecOp.instr (r : RecOp) : Option Sys2Proof.Instr :=
  match decodeWords r.word.toNat 0 with
  | .ok i => some i
  | .error _ => none

/-- The empty destinations of the operations that a group's record holds. -/
def Group.recPend (g : Group) : List RegId :=
  g.recs.flatMap fun r => match r.instr with
    | some i => (recDests (modeEt (g.arm r.armB).mode) r.armB i).filter fun d => !g.full d
    | none => []

/-- The word at a global address through a root, where the walk finds it. -/
def State.wordThrough (s : State) (troot va : Nat) : Option Nat :=
  match s.walk troot va with
  | .leaf pte _ psize => some (s.loadAt (leafPlace pte psize va) 4)
  | _ => none

/-- The registers that arm b of an imported group is an outstanding producer of: the empty destinations of
its parked instruction, or the register that its wait fills (R79, R217). -/
def State.importPend (s : State) (g : Group) (b : Bool) : List RegId :=
  let a := g.arm b
  let rs : List RegId := match a.ws with
    | .parked | .ready =>
      if a.park = 0 then []
      else
        match s.wordThrough g.eff.troot a.pc.toNat with
        | some w => (match decodeWords w 0 with
          | .ok i => parkedDests (modeEt a.mode) b i
          | .error _ => [])
        | none => []
    | .sigw | .scopew => [.ofS b a.wreg]
    | .take => g.sblockOf b a.wreg 4
    | _ => []
  if a.occ then rs.filter fun r => !g.full r else []

/-- The lanes that take part in an arm, as its registers stand (R219). -/
def Group.lanesOf (g : Group) (b : Bool) : Mask := ({ g with sel := b } : Group).active

/-- The group that a record holds, with the producers outstanding and the lanes of its recorded TRDs. -/
def State.importGroup (s : State) (region a : Nat) : Group :=
  let g := s.readRecord region a
  let owes (b : Bool) : List RegId := if (g.arm b).park = 0 then [] else s.importPend g b
  { g with
    armA := { g.armA with owes := owes false }
    armB := { g.armB with owes := owes true }
    pend := s.importPend g false ++ s.importPend g true ++ g.recPend
    recs := g.recs.map fun r => { r with lanes := g.lanesOf r.armB } }

/-! ### When a saved group resumes (R43, R46, R58, R79) -/

/-- The arm has an operation to reissue before anything else; a parked arm replays first (R45, R126). -/
def Group.recDue (g : Group) (b : Bool) : Bool :=
  (g.arm b).occ && (g.arm b).ws != .parked && g.recs.any fun r => r.armB == b

/-- The arm has an operation to reissue, or its wait is satisfied, or it was released or stopped while ready, or while
it drained a tile. -/
def Group.armDispatchable (g : Group) (b : Bool) : Bool :=
  let a := g.arm b
  g.recDue b || a.occ && (match a.ws with
    | .ready | .yld | .tdrain => true
    | .blocked => g.unblocked b
    | .rcv => g.mergeable b
    | .sleep => g.wakePend
    | .sigw => g.sigPend &&& a.waux != 0
    | _ => false)

/-- A saved group is dispatchable (R46, R58, R338); a halted or held group is not. -/
def Group.dispatchable (g : Group) : Bool :=
  !g.halted && !g.hold && (g.armDispatchable false || g.armDispatchable true)

end Sys2Proof.Machine
end

