-- ==== Sys2Proof/Machine/Reissue.lean ====
section
/-!
DEFINITION. Recorded operations reissued when a group resumes, with the operand values of their records (R45,
R124, R126): the state in which the arm issues one anew, and what stands after it.
-/

namespace Sys2Proof.Machine

/-- The register fields that a recorded operation read at issue, with the operand of the record that holds each:
0 OPA, 1 OPB, 2 OPC (R45). A later one of two that overlap stands. -/
def Group.recSources (g : Group) : Sys2Proof.Instr → List (List RegId × Nat)
  | .lds _ a _ _ _ | .ldaqScalar _ a _ _ _ => [(g.spregs a, 0)]
  | .sts d a _ sz _ | .strlScalar d a _ sz _ => [((dataRegs d sz).map (.ofS g.sel), 2), (g.spregs a, 0)]
  | .atomsAdd _ a b _ _ | .atomsAnd _ a b _ _ | .atomsOr _ a b _ _ | .atomsXor _ a b _ _ | .atomsMin _ a b _ _
  | .atomsMax _ a b _ _ | .atomsXchg _ a b _ _ | .atomsFadd _ a b _ _ =>
    [(if g.et = 11 then g.spregs b else g.sregs b, 1), (g.spregs a, 0)]
  | .acasScalar d a b _ _ =>
    let r (f : Nat) : List RegId := if g.et = 11 then g.spregs f else g.sregs f
    [(r d, 2), (r b, 1), (g.spregs a, 0)]
  | .wake a _ _ | .join _ a _ _ | .launch a _ _ | .hdrop a _ _ | .hinfo _ a _ _ | .hsplit _ a _ _
  | .watch _ a _ _ => [(g.spregs a, 0)]
  | .sig a b _ _ | .depo _ a b _ _ | .ngrant a b _ _ | .nrevoke a b _ _ => [(g.sregs b, 1), (g.spregs a, 0)]
  | .post a b _ _ | .mreq _ a b _ _ | .hnew _ a b _ _ => [(g.spregs b, 1), (g.sregs a, 0)]
  | .hbind a b _ _ => [(g.spregs b, 1), (g.spregs a, 0)]
  | .trd _ _ b _ _ => [(g.sregs b, 1)]
  | .qstat _ a _ _ | .unwatch _ a _ _ | .warm _ a _ _ | .wstat _ a _ _ => [(g.sregs a, 0)]
  | _ => []

/-- A posted operation: NOUT counts it already (R317). -/
def postedOp : Sys2Proof.Instr → Bool
  | .wake _ _ _ | .sig _ _ _ _ | .depo _ _ _ _ _ | .ngrant _ _ _ _ | .nrevoke _ _ _ _ | .hdrop _ _ _ | .hbind _ _ _ _ =>
    true
  | _ => false

/-- An operand of a record. -/
def RecOp.operand (r : RecOp) : Nat → W64
  | 0 => r.opa
  | 1 => r.opb
  | _ => r.opc

/-- An operand in the registers that held it at issue. -/
def Group.putOperand (g : Group) (rs : List RegId) (x : W64) : Group :=
  match rs with
  | [r0, r1] => g.put64 r0 r1 x
  | [r] => g.put32 r (loW x)
  | _ => g

/-- The registers that hold something of the record while the operation is reissued: its operands, and the mask. -/
def Group.lentRegs (g : Group) (i : Sys2Proof.Instr) : List RegId :=
  (g.recSources i).flatMap (·.1) ++ [.b g.sel 61, .b g.sel 62, .b g.sel 63]

/-- The arm at a recorded instruction, ready, with the lanes of the record and the guard p0. -/
def Arm.atRecord (a : Arm) (r : RecOp) : Arm :=
  Arm.setMask { a.ready with pc := r.pc, mode := a.mode &&& 0xFFFFF0FF#32, on := none } r.lanes

/-- The group in which the arm that has the turn issues a recorded operation anew: it stands in the record and
among the outstanding no more. -/
def Group.prepared (g : Group) (r : RecOp) (i : Sys2Proof.Instr) : Group :=
  let g1 := { g with recs := g.recs.erase r, nout := if postedOp i then g.nout - 1 else g.nout }
  let g2 := (recDests g.et g.sel i).foldl Group.settle g1
  ((g.recSources i).foldl (fun g x => g.putOperand x.1 (r.operand x.2)) g2).mapMe fun a => a.atRecord r

/-- The value and the full/empty bit of a register as another state of the group has them. -/
def Group.giveBack (g old : Group) (r : RegId) : Group := (g.put32 r (old.val32 r)).setFull r (old.full r)

/-- The group after a reissue: the registers lent get their own values, but for those that the operation writes, and
the arm is where it was. -/
def Group.restored (g old : Group) (i : Sys2Proof.Instr) : Group :=
  let dests := recDests old.et old.sel i
  let g1 := ((old.lentRegs i).filter fun r => !dests.contains r).foldl (fun g r => g.giveBack old r) g
  { g1 with bad := old.bad }

/-- The arm after a reissue that completed: where it was, with what the operation holds it by (R360). -/
def Arm.backTo (a old : Arm) : Arm :=
  { old with bank := a.bank, bfull := a.bfull, holds := a.holds, age := a.age }

/-- The reissue has trapped. -/
def Group.tookTrap (g old : Group) : Bool := (tcauseInh g.tcause && !tcauseInh old.tcause) || (g.faulted && !old.faulted)

/-- What stands after a reissue: the operation has left and the arm is where it was; it has parked, and is reissued
when the page is there; it waits for its turn; or it has trapped, at its own address (R126, log 13). -/
def State.reissued (s old : State) (r : RecOp) (i : Sys2Proof.Instr) : State :=
  let g := old.cur
  if s.cur.tid ≠ g.tid then s
  else
    let s1 := { s with fradb := old.fradb, ir := old.ir }
    if s.cur.tookTrap g then
      s1.modCur fun x => (x.restored g i).mapMe fun a => { a with mode := g.me.mode }
    else if s.cur.me.pc = r.pc + 4 then
      s1.modCur fun x => (x.restored g i).mapMe fun a => a.backTo g.me
    else if s.cur.me.ws = .parked then
      { s1 with cur := g.mapMe fun a => { a with ws := .parked, parkFetch := true } }
    else { s1 with cur := g.mapMe fun a => { a with turned := s.cur.me.turned } }

/-- The state in which the arm that has the turn issues a recorded operation anew. -/
def State.prepared (s : State) (r : RecOp) (i : Sys2Proof.Instr) : State :=
  { s with ir := r.word, cur := s.cur.prepared r i }

/-- The operation that the arm that has the turn reissues next, of those in its group's record. -/
def Group.nextRec (g : Group) : Option RecOp :=
  if g.recDue g.sel then g.recs.find? fun r => r.armB == g.sel else none

end Sys2Proof.Machine
end

