-- ==== Sys2Proof/Machine/Fetch.lean ====
section
/-!
DEFINITION. What runs next: the arm's instruction fetched and decoded (R208, R225, R227), the event
that completes an operation in flight, the arm that issues when no turn is given (log 2).
-/

namespace Sys2Proof.Machine

/-! ### Decoding at the PC -/

/-- Majors a sequencer executes, and majors 0x33 and 0x34 (R149, R433). -/
def seqMajor (w : Nat) : Bool :=
  let m := w / 2 ^ 26
  (decide (1 ≤ m) && decide (m ≤ 0x11)) || m == 0x22 || m == 0x23 || m == 0x2A || m == 0x2D
    || m == 0x33 || m == 0x34
    || ((m == 0x26 || m == 0x27) && !bitAt w 6)
    || (m == 0x3F && decide (bitsOf w 25 18 < 2))

/-- Some V field of an EXPR word names a register that the group has not (R213). -/
def exprFieldBad (vregs w : Nat) : Bool :=
  decide (vregs ≤ fldD w) || decide (vregs ≤ fldA w) || decide (vregs ≤ fldB w)

/-- ILLEGAL DETAIL of a word that does not decode: in a sequencer the operand fields of an instruction
outside R149 are not checked, and it is SEQ (R227, R433); the operand fields come before a token string (R430). -/
def reservedDetail (g : Group) (w : Nat) (r : DecodeError) : Nat :=
  if g.isSeq && (r == .field || r == .expr) && !seqMajor w then 8
  else if r == .expr && exprFieldBad g.vregs w then DecodeError.field.detail
  else r.detail

/-- What the fetch of an arm's next instruction gives. -/
inductive Fetch where
  /-- an instruction to execute, in the state after the fetch -/
  | run (i : Sys2Proof.Instr) (s : State)
  /-- an MCHECK comes first (R391) -/
  | deliver (s : State)
  /-- a recorded operation to reissue, its instruction, in the state that lends it its operands, with the state
  before (R126) -/
  | again (i : Sys2Proof.Instr) (s old : State) (r : RecOp)
  /-- the fetch parks, traps or waits: the state then -/
  | stop (s : State)
  deriving DecidableEq, Repr

/-- A fetch that gives no word. -/
def State.fetchStop (s : State) : Fetched → State
  | .trap t =>
    (if t.cause = .mcheck then s.forgetAt (s.cur.view .fetch) s.cur.eff.troot t.addr.toNat else s).trapped t
  | .park a psize => s.park .fetch false [(0, a, psize)]
  | .frozen d => s.waitHome d
  | .word _ _ => s

/-- The instruction of a head word and its extension word, or the reserved encoding that it is. -/
def State.decoded (s : State) (w e : Nat) : Fetch :=
  match decodeWords w e with
  | .ok i => .run i s
  | .error r => .run .reservedEncoding { s with ev := [w, reservedDetail s.cur w r] }

/-- The word that the arm executes: the original one under a breakpoint that it passes (R357). -/
def State.underBreak (s : State) (w : Nat) : Nat :=
  if s.fradb.passing.contains (s.cur.tid, s.cur.sel) then
    match (s.breakAt s.cur.me.pc.toNat).bind fun b => b.original s.cur.region with
    | some x => x.toNat
    | none => w
  else w

/-- The instruction at the PC of the arm that has the turn (R208, R227). -/
def State.fetch (s : State) : Fetch :=
  let pc := s.cur.me.pc
  match s.fetchWord pc with
  | .word w0 hits =>
    let w := s.underBreak w0
    let s1 := { s.touchAll false hits with ir := w32 w }
    if needsExt w then
      match s1.fetchWord (pc + 4) with
      | .word e hits2 => (s1.touchAll false hits2).decoded w e
      | r => .stop (s1.fetchStop r)
    else s1.decoded w 0
  | r => .stop (s.fetchStop r)

/-- RESERVED_ENCODING: ILLEGAL at issue, with the word in TINFO (R225, R372, R430). -/
def execReservedEncoding (s : State) : Host.Outcome State Fault Refusal :=
  .next (if s.cur.tid = 0 then s else s.trapped (.plain .illegal (s.arg 1) (w32 (s.arg 0))))

/-! ### Which arm can issue -/

/-- A request stands still: its region is being pre-empted, or its requester's unit swapped out whole by the same
mechanism (R113, R123, R124). -/
def State.stopsReq (s : State) (r : Resv) : Bool :=
  s.preempting r.region || (match s.thread r.who.tid with
    | some g => g.evicted
    | none => false)

/-- Issue has stopped in a thread (R113, R123, R124). -/
def State.stopped (s : State) (g : Group) : Bool :=
  match g.seq with
  | some cl => s.stopsReq (s.cluster cl).req
  | none => s.preempting g.region

/-- The thread has a place to issue from: it is resident, or a running sequencer. -/
def State.hasPlace (s : State) (g : Group) : Bool :=
  g.exiting.isNone && (match g.seq with
    | some cl => (s.cluster cl).running && !(s.cluster cl).ending
    | none => g.resident)

/-- The thread's arms may issue: it has a place, and nothing holds it. -/
def State.mayIssue (s : State) (g : Group) : Bool := s.hasPlace g && !g.halted && !s.stopped g && !g.migrating

/-- The arm has only to complete an instruction that it has made: a stop does not keep it from that
(R124). -/
def Arm.finishing (a : Arm) : Bool := a.occ && a.ws == .ready && a.replay && a.park == 0

/-- fradb lets the arm issue: its group is not held, or the arm is the one that steps (R355, R356). -/
def State.debugAllows (s : State) (g : Group) (b : Bool) : Bool :=
  !g.hold || s.fradb.stepping.contains (g.tid, b)

/-- An arm of a thread can be given the turn (R47, R118, R124, R356). -/
def State.canIssue (s : State) (g : Group) (b : Bool) : Bool :=
  if (g.arm b).finishing || s.fradb.stopping.contains (g.tid, b) then s.hasPlace g && (g.arm b).occ
  else s.mayIssue g && (g.armReady b || g.recDue b) && s.debugAllows g b

/-! ### The choice of a scheduler (R118) -/

/-- The scheduler of a resident group: its core and half of the slots. -/
def Group.schedKey (g : Group) : Option (Nat × Nat) :=
  if g.seq.isNone && g.resident then some (g.loc.core, g.loc.sched) else none

/-- The greater AGE goes first, then the lower slot, then arm A (R118). -/
def issuesBefore (x y : Group × Bool) : Bool :=
  let a := (x.1.arm x.2).age
  let b := (y.1.arm y.2).age
  decide (b < a) || (a == b && (decide (x.1.loc.slot < y.1.loc.slot)
    || (x.1.loc.slot == y.1.loc.slot && !x.2 && y.2)))

/-- The arm that a scheduler chooses among its ready ones (R118). -/
def choice : List (Group × Bool) → Option (Group × Bool)
  | [] => none
  | x :: rest =>
    match choice rest with
    | some y => if issuesBefore y x then some y else some x
    | none => some x

/-- The threads in the order in which their schedulers come to choose: the one that issued last is last
(log 2). -/
def State.rotation (s : State) : List Group := s.others ++ (if s.cur.tid = 0 then [] else [s.cur])

/-- The turn given to an arm, the thread that had it going to the end of the list. -/
def State.turnTo (s : State) (tid : Nat) (armB : Bool) : State :=
  if s.cur.tid = tid then { s with cur := { s.cur with sel := armB } }
  else
    match takeOut (fun g => g.tid == tid) s.others with
    | some (g, rest) =>
      { s with
        cur := { g with sel := armB }
        others := if s.cur.tid = 0 then rest else rest ++ [s.cur] }
    | none => s

/-- An MCHECK is pending for the arm that has the turn, at an instruction boundary (R391, R434). -/
def Group.mcheckDue (g : Group) : Bool :=
  !(g.mchecksOf g.sel).isEmpty && !g.me.replay

/-- The arm that has the turn reissues the oldest operation of its record, which leaves the record where it is none
that R45 lets a record hold. -/
def State.reissue (s : State) : Fetch :=
  match s.cur.nextRec with
  | none => .stop s
  | some r =>
    match r.instr with
    | some i =>
      if (s.cur.recSources i).isEmpty then .stop (s.modCur fun g => { g with recs := g.recs.erase r })
      else .again i (s.prepared r i) s r
    | none => .stop (s.modCur fun g => { g with recs := g.recs.erase r })

/-- What an arm that is given the turn does: nothing when it cannot issue. -/
def State.arm (s : State) (tid : Nat) (armB : Bool) : Fetch :=
  match s.thread tid with
  | none => .stop s
  | some g =>
    if !s.canIssue g armB then .stop s
    else
      let s1 := (s.turnTo tid armB).modCur fun g => g.mapMe fun a => { a with turned := false }
      if s.fradb.stopping.contains (tid, armB) then .stop s1.debugHold
      else if s1.cur.mcheckDue then .deliver { s1 with ev := [tid, if armB then 1 else 0] }
      else if s.mayIssue g && g.recDue armB then s1.reissue
      else s1.fetch

/-! ### Events of operations in flight -/

/-- The event that completes an operation. -/
def Flight.event : Flight → Sys2Proof.Instr
  | .load .. | .discarded .. => .loadDataReturn
  | .atomic .. => .atomicReturn
  | .sfu .. => .vsfuComplete
  | .store .. => .storePerformed
  | .maint .. => .cacheMaintenanceComplete
  | .nameOp op =>
    match op.kind with
    | .wake => .wakeDelivery
    | .sig _ => .sigDelivery
    | .depo _ _ => .depoDelivery
    | .join _ | .joinHost => .joinDelivery
    | .ngrant _ => .ngrantDelivery
    | .nrevoke _ => .nrevokeDelivery
    | .hexit _ => .namePortHexit
  | .ack .. => .postedOpAck
  | .joinValue .. => .joinValueArrival
  | .skeinAlloc .. => .skeinAlloc
  | .indAlloc .. => .indirectionAlloc
  | .skeinDrop .. => .skeinDrop
  | .skeinBind .. => .skeinBind
  | .scopewAttach .. => .scopewAttach
  | .hinfo .. => .skeinReply
  | .skeinReply .. => .skeinReply
  | .scopewDone .. => .scopewComplete
  | .takeItem .. => .takeItemDelivery
  | .post .. => .postAccept
  | .watchInstall .. => .watchInstallComplete
  | .watchQuery .. => .watchQueryReply
  | .unwatch .. => .unwatchComplete
  | .watchedWrite .. => .watchedWriteAtHome
  | .msig .. => .msigDelivery
  | .trd .. => .trdServe
  | .copy .. => .copyComplete
  | .arrive .. => .barrierArrival
  | .drain .. => .atomicBufferDrain
  | .redApply .. => .redApply
  | .walk .. => .walkComplete
  | .fbread .. => .fbreadReply
  | .coh .. => .cohChangePublish
  | .wsload .. => .wsloadComplete
  | .tlbinv .. => .tlbinvComplete
  | .halt .. => .haltStopped
  | .swapout .. => .haltStopped

end Sys2Proof.Machine
end

