-- ==== Sys2Proof/Machine/Boot.lean ====
section
/-!
DEFINITION. A loaded group: what stands for the load of a program (log 1).
-/

namespace Sys2Proof.Machine

/-- Name of the loaded group. -/
def bootTid : Nat := 1
/-- Its PC, a global address and the physical address it maps to. -/
def bootPc : Nat := 0x100000
/-- Its root page. -/
def bootRoot : Nat := 0x10000

/-- A group as placed (R30, R31): the largest register count, arm A at the PC, every lane active. -/
def bootGroup : Group :=
  { Group.idle with
    tid := bootTid
    name := w64 bootTid
    ngroups := 1
    vregs := 128
    spwin := 0xFF00000000000000
    stkB := 0x4100000000
    eff := { Group.idle.eff with troot := bootRoot }
    resident := true
    s := initialS []
    armA := ({ Arm.free with occ := true, pc := w64 bootPc } : Arm).setMask (BitVec.allOnes 96) }

/-- The page tables of the loaded group: zone 0 of 1 GiB pages, its first page mapped to physical
address 0, readable, writable and executable (R72 to R76). -/
def bootTables (m : Memory) : Memory :=
  ((m.wr bootRoot 8 (0x14000 + 5)).wr 0x14000 8 (0x18000 + 1)).wr 0x18000 8 0xD9

/-- The loaded group takes the place of any of its name. -/
def State.boot (s : State) : State :=
  let s1 := s.dropThread bootTid
  { s1 with
    cur := bootGroup
    others := if s1.cur.tid = 0 then s1.others else s1.cur :: s1.others
    mem := bootTables s1.mem }

end Sys2Proof.Machine
end

