-- ==== Sys2Proof/Machine/Requests.lean ====
section
/-!
DEFINITION. Requests of hosts and peers to device memory (R102, R105, R111, R193 to R195, R206, R389,
R415): performed at the home, held for a gated die or a frozen frame, answered once.
-/

namespace Sys2Proof.Machine

/-- The requests that a port's record keeps (R415). -/
def tagDepth : Nat := 8192

/-- Port number in a key. -/
def keyPort (k : Nat) : Nat := k / 2 ^ 32

/-- Who sends over a port: the peer that it faces, or the host tray. -/
def State.sender (s : State) (p : Nat) : Option Nat × Nat :=
  match (s.link p).peer with
  | some q => (some q, 0)
  | none => (none, (s.link p).host)

/-- A response recorded under its port and tag, the newest first (R415). -/
def State.recordTag (s : State) (key response : Nat) : State :=
  let mine := s.performed.filter fun x => keyPort x.1 == keyPort key
  let rest := s.performed.filter fun x => !(keyPort x.1 == keyPort key)
  { s with performed := ((key, response) :: mine).take tagDepth ++ rest }

/-- n free bytes as a number: what a line that cannot be read gives a request (log 26). -/
def freeBytes : Nat → Nat → Nat
  | _, 0 => 0
  | k, n + 1 => (Config.damagedByte k).toNat + 256 * freeBytes (k + 1) n

/-- Some line of n bytes at a place cannot be read. -/
def State.spanBad (s : State) (p : Place) (n : Nat) : Bool :=
  (List.range ((n + 3) / 4)).any fun i => (s.readErr (p.plus (4 * i))).isSome

/-- n bytes written at a place: up to the next word boundary, then word by word, the last part shorter; each
part lies in one word, so a watched word is compared once (R185). -/
def State.storeParts (s : State) : Nat → Place → Nat → Nat → Nat → State
  | 0, _, _, _, _ => s
  | k + 1, p, a, n, v =>
    if n = 0 then s
    else
      let m := if n < 4 - a % 4 then n else 4 - a % 4
      (s.storeAt p m (v % 256 ^ m)).storeParts k (p.plus m) (a + m) (n - m) (v / 256 ^ m)

/-- n bytes written at a place: whole where they lie in one aligned word or doubleword, else in parts. -/
def State.storeSpan (s : State) (p : Place) (a n v : Nat) : State :=
  if (n = 1 ∨ n = 2 ∨ n = 4 ∨ n = 8) ∧ a % n = 0 then s.storeAt p n v else s.storeParts (n + 1) p a n v

/-- The value that a request reads at a place. -/
def State.readSpan (s : State) (p : Place) (n : Nat) : State × Nat :=
  if s.spanBad p n then ({ s with fresh := s.fresh + n }, freeBytes s.fresh n) else (s, s.loadAt p n)

/-- What follows a write of n bytes at a place by a host, firmware's among them: the submission queues it changes
(R107, R197). -/
def State.afterWrite (s : State) (p : Place) (n : Nat) : State :=
  match p with
  | .dev pa => s.queuesChanged pa n
  | _ => s

/-- A write of n bytes at a place rewrites the lines and the records that it covers (R369, R392, R399, R404). -/
def State.rewriteAt (s : State) (p : Place) (n : Nat) : State :=
  match p with
  | .dev pa => s.rewritten pa n
  | _ => s

/-- A request performed at a place: a read, a write, or an atomic on 4 or 8 bytes (R97, R105). -/
def State.performAt (s : State) (r : HostReq) (p : Place) : State :=
  if r.op = 1 then (((s.storeSpan p r.addr r.size r.value).rewriteAt p r.size).afterWrite p r.size).recordTag r.key 0
  else
    let (s1, old) := s.readSpan p r.size
    let s2 := if r.op = 0 ∨ s.spanBad p r.size then s1
      else (s1.storeAt p r.size ((AtomOp.ofCode (r.op - 2)).apply 0 (8 * r.size) false 0 old r.value)).afterWrite p r.size
    s2.recordTag r.key old

/-- First address of the space in which requests name a compute die's own page (log 26). -/
def dieSpace : Nat := 2 ^ 56
/-- Bytes of a compute die's page. -/
def diePage : Nat := 2 ^ 52

/-- First address of the space in which requests name a name port's page (R64, log 26). -/
def portSpace : Nat := 2 ^ 56 + 2 ^ 55

/-- Where a request's address lies now (R389). -/
def HostReq.target (r : HostReq) : Place := r.moved.getD (.dev r.addr)

/-- The memory die at which a request waits. -/
def HostReq.home (r : HostReq) : Nat := sectorOf r.addr

/-- A request that waits for a frozen frame of n bytes is performed in the new one (R389). -/
def HostReq.move (old new : Place) (n : Nat) (r : HostReq) : HostReq :=
  if (r.target.offsetIn old n).isSome then { r with moved := some (Place.moved old new n r.target) } else r

/-- The same of what waits at a memory die. -/
def Held.move (old new : Place) (n : Nat) : Held → Held
  | .req r => .req (r.move old new n)
  | x => x

/-- A sender's tag has been performed, on any of its ports: the request is answered from the record (R415). -/
def State.answered (s : State) (r : HostReq) : Bool :=
  s.performed.any fun x => x.1 % 2 ^ 32 == r.key % 2 ^ 32 && s.sender (keyPort x.1) == s.sender (keyPort r.key)

/-- The row that a name port's command record of a write is: OP, and the fields in the order of its payload
(R64). -/
def portRecord (port rec : Nat) : Turn :=
  let f (o n : Nat) : Nat := rec / 256 ^ o % 256 ^ n
  let short := [port, f 1 1, f 2 2, f 8 8, f 16 8, f 24 8]
  let long := [port, f 1 1, f 2 2, f 4 4, f 8 8, f 16 8, f 24 8]
  match f 0 1 with
  | 1 => .event .namePortWake short
  | 2 => .event .namePortSig short
  | 3 => .event .namePortDepo long
  | 4 => .event .namePortJoin short
  | 5 => .event .namePortHexit long
  | op => .event .namePortReservedOp [port, op, f 2 2, f 16 8]

/-- A host's write to a name port's page: 32 bytes at offset 0 are a command, which the port takes next; any
other write is discarded (R64). -/
def portWrite (off : Nat) (r : HostReq) : Turn :=
  let port := (r.addr - portSpace) / 4096
  if off = 0 ∧ r.size = 32 then portRecord port r.value else .event .namePortDiscardedWrite [port]

/-- An earlier request of the port waits at a memory die: the die (R105). -/
def State.heldBefore (s : State) (r : HostReq) : Option Nat :=
  (List.range 6).find? fun d => (s.mdie d).held.any fun x => match x with
    | .req x => keyPort x.key == keyPort r.key
    | .arm _ _ => false

/-- An earlier request of the port waits in a compute die's latch or behind it: the die (R105, R111). -/
def State.latchedBefore (s : State) (r : HostReq) : Option Nat :=
  (List.range 6).find? fun d => (s.die d).latch.any fun x => keyPort x.key == keyPort r.key

/-- A request waits at a memory die, behind those that wait there. -/
def State.holdAt (s : State) (d : Nat) (r : HostReq) : State :=
  s.modMdie d fun x => { x with held := x.held ++ [.req r] }

/-- A request waits where its address lies: for the publish step of a frozen frame, an engine's write, or a gated memory
die (R82, R99, R206). -/
def State.requestWaits (s : State) (r : HostReq) : Bool :=
  s.frozenAt r.target || s.engineOwns r.target r.size || (s.gated r.target).isSome

/-- A host's or peer's request to this device: performed in the order in which its port accepts it, behind what
waits (R105, R111, R206, R389, R415). An address at or above 6 × 288 GiB, which no sector holds, is served as
ordinary memory: the spec is silent on it (DESIGN CHOICE, log 26). -/
def State.serve (s : State) (r : HostReq) : State :=
  if s.answered r ∨ 256 < r.size then s
  else
    match s.heldBefore r, s.latchedBefore r with
    | some d, _ => s.holdAt d r
    | none, some d => s.modDie d fun x => { x with latch := x.latch ++ [r] }
    | none, none =>
      if portSpace ≤ r.addr then
        let s1 := s.recordTag r.key 0
        if r.op = 1 then { s1 with agenda := portWrite ((r.addr - portSpace) % 4096) r :: s1.agenda } else s1
      else if dieSpace ≤ r.addr then
        let d := (r.addr - dieSpace) / diePage % 6
        if (s.die d).power.state = 0 then s.recordTag r.key 0
        else s.modDie d fun x => { x with latch := x.latch ++ [r] }
      else
        if s.requestWaits r then s.holdAt r.home r else s.performAt r r.target

/-- What waited at a memory die in its order of arrival (R206). An arm's access is its turn, and a name port's command is
the port's: the rest waits for that turn, which comes next. -/
def replayHeldFrom (d : Nat) : List Held → State → State
  | [], s => s
  | x :: rest, s =>
    let pause (t : State) (ts : List Turn) : State :=
      let u := t.modMdie d fun m => { m with held := m.held ++ rest }
      { u with agenda := ts ++ (if rest.isEmpty then [] else [.event .dieWakeComplete [d, 1]]) ++ s.agenda }
    match x with
    | .arm tid b => pause s [.arm tid b]
    | .req r =>
      let s1 := ({ s with agenda := [] }).serve r
      if s1.agenda.isEmpty then replayHeldFrom d rest { s1 with agenda := s.agenda } else pause s1 s1.agenda

/-- What is held at a memory die, in order (R206). -/
def State.replayHeld (s : State) (d : Nat) : State :=
  replayHeldFrom d (s.mdie d).held (s.modMdie d fun x => { x with held := [] })

/-- The requests in a compute die's latch, then those behind it (R111); a name port's command has its turn first. -/
def replayLatchFrom (d : Nat) : List HostReq → State → State
  | [], s => s
  | r :: rest, s =>
    let s1 := ({ s with agenda := [] }).serve r
    if s1.agenda.isEmpty then replayLatchFrom d rest { s1 with agenda := s.agenda }
    else
      let s2 := s1.modDie d fun x => { x with latch := x.latch ++ rest }
      { s2 with agenda := s1.agenda ++ (if rest.isEmpty then [] else [.event .dieWakeComplete [d, 0]]) ++ s.agenda }

/-- The latch of a compute die replayed. -/
def State.replayLatch (s : State) (d : Nat) : State :=
  replayLatchFrom d (s.die d).latch (s.modDie d fun x => { x with latch := [] })

/-- A memory die is in D0 again, and what waited for it is performed in order of arrival (R206). -/
def State.wakeMemory (s : State) (d : Nat) : State :=
  (s.modMdie d fun x => { x with power := { x.power with state := 0 }, asked := false }).replayHeld d

/-- Key of a request by port and tag. -/
def reqKey (port tag : Nat) : Nat := port * 2 ^ 32 + tag % 2 ^ 32

/-- HOST_ACCESS: payload operation, address, size, value, port, tag (R105). -/
def execHostAccess (s : State) : Host.Outcome State Fault Refusal :=
  .next (s.serve ⟨reqKey (s.arg 4) (s.arg 5), s.arg 0, s.arg 1, s.arg 2, s.arg 3, none⟩)

/-- The response of a request that cannot be performed, which no data equals (log 26). -/
def errorResponse : Nat := 2 ^ 2048

/-- The entry over which a request for another K9 is forwarded (R194). -/
def State.forwardTo (s : State) (did : Nat) : Option Nat :=
  (List.range 128).find? fun q => (s.peer q).did == did && s.peerUp q

/-- PEER_REQUEST: payload DID, operation, address, size, value, port, tag (R194, R415). -/
def execPeerRequest (s : State) : Host.Outcome State Fault Refusal :=
  let r : HostReq := ⟨reqKey (s.arg 5) (s.arg 6), s.arg 1, s.arg 2, s.arg 3, s.arg 4, none⟩
  .next (if s.arg 0 = s.did then s.serve r
    else if s.answered r ∨ 256 < r.size then s
    else
      match s.forwardTo (s.arg 0) with
      | some q => s.performAt r (.peer q r.addr)
      | none => s.recordTag r.key errorResponse)

end Sys2Proof.Machine
end

