-- ==== Sys2Proof/Machine/MemEvents.lean ====
section
/-!
DEFINITION. Completions of memory operations and of the special functions, the fault buffer, the
pending MCHECK: the events of R75 to R80, R143, R144, R265, R280, R291, R295, R299, R386, R387, R391,
R396.
-/

namespace Sys2Proof.Machine

/-! ### Values and performed stores -/

/-- LOAD_DATA_RETURN: the destinations take their values and are full (R217, R280, R391); a reply that its thread takes no
more is discarded (R249). -/
def execLoadDataReturn (s : State) : Host.Outcome State Fault Refusal :=
  .next (s.complete (fun f => match f with
      | .load who fs err _ => some (who.tid, fs, err)
      | .discarded tid _ _ _ => some (tid, [], none)
      | _ => none)
    fun s (tid, fs, err) => (s.fills tid fs).pendMcheck tid err)

/-- ATOMIC_RETURN (R217, R286). -/
def execAtomicReturn (s : State) : Host.Outcome State Fault Refusal :=
  .next (s.complete (fun f => match f with
      | .atomic who fs err _ => some (who.tid, fs, err)
      | _ => none)
    fun s (tid, fs, err) => (s.fills tid fs).pendMcheck tid err)

/-- VSFU_COMPLETE (R217, R265). -/
def execVsfuComplete (s : State) : Host.Outcome State Fault Refusal :=
  .next (s.complete (fun f => match f with
      | .sfu tid fs => some (tid, fs)
      | _ => none)
    fun s (tid, fs) => s.fills tid fs)

/-- STORE_PERFORMED: the store is visible to every agent (R91). -/
def execStorePerformed (s : State) : Host.Outcome State Fault Refusal :=
  .next (s.complete (fun f => match f with
      | .store who _ => some who
      | _ => none)
    fun s _ => s)

/-- CACHE_MAINTENANCE_COMPLETE: every covered line is in its final state (R292). -/
def execCacheMaintenanceComplete (s : State) : Host.Outcome State Fault Refusal :=
  .next (s.complete (fun f => match f with
      | .maint who => some who
      | _ => none)
    fun s _ => s)

/-- Up to n lines of a copy are written, as far as none waits (R299). -/
def State.writeLines (s : State) (j : CopyJob) : Nat → State × CopyJob
  | 0 => (s, j)
  | n + 1 =>
    let ws := (nextLine j.todo).1.map s.wordNow
    if ws.isEmpty || s.lineWaits ws then (s, j)
    else
      let s1 := ws.foldl (fun s w => s.wakeFor w.dst) s
      (s1.writeLine ws).writeLines
        { j with
          todo := (nextLine j.todo).2
          err := match j.err with
            | some m => some m
            | none => j.lineErr ws
          far := j.far ++ CopyJob.lineFar s j ws } n

/-- The engine of a copy has something to do: responses have come, the last line is written, or the next one can be. -/
def State.copyReady (s : State) (tid : Nat) (j : CopyJob) : Bool :=
  s.copiesRun tid && (!j.far.isEmpty || j.todo.isEmpty || !s.lineWaits (nextLine j.todo).1)

/-- COPY_COMPLETE, payload lines (0: all): the responses to what the engine of a copy has sent have come, and it writes
lines in order; after the last, and the responses to it, the copy's slot is free and its error known (R299, R392). -/
def execCopyComplete (s : State) : Host.Outcome State Fault Refusal :=
  let lines (j : CopyJob) : Nat := if s.arg 0 = 0 then j.todo.length else s.arg 0
  .next (s.complete (fun f => match f with
      | .copy tid j => if s.copyReady tid j then some (tid, j) else none
      | _ => none)
    fun s (tid, j) =>
      let (s1, k) := s.writeLines { j with far := [] } (lines j)
      if k.todo.isEmpty && k.far.isEmpty then s1.pendMcheck tid k.err else s1.send (.copy tid k))

/-! ### Reductions -/

/-- The contribution's operation depends on order (R144). -/
def Contrib.ordered (c : Contrib) : Bool :=
  c.op == AtomOp.fadd.code || (c.et == 6 && (c.op == AtomOp.min.code || c.op == AtomOp.max.code))

/-- The error of a contribution whose peer, host or die is gone (R390, R415, R422). -/
def State.redErr (s : State) (c : Contrib) : Option MCheck :=
  let gone := c.place.away || s.fencedAt c.place || (match c.place with
    | .removed _ _ => true
    | _ => false)
  if gone then (s.readErr c.place).map fun d => ⟨c.who.arms.b && !c.who.arms.a, c.addr, c.lane, d, c.issued⟩ else none

/-- A contribution applied at its place, or its error pending (R98, R144, R390). -/
def State.applyRed (s : State) (c : Contrib) : State :=
  match s.redErr c with
  | some m => s.pendMcheck c.who.tid (some m)
  | none =>
    s.storeAt c.place 4
      ((AtomOp.ofCode c.op).apply c.et 32 c.sat c.pc (s.loadAt c.place 4) c.value.toNat)

/-- Order in the reduction sets of a launch: epoch by epoch, in each rank, lane, issue order within the lane (R144, R290,
R396). -/
def Contrib.before (x y : Contrib) : Bool :=
  decide (x.epoch < y.epoch) || (x.epoch == y.epoch &&
    (decide (x.rank < y.rank) || (x.rank == y.rank &&
      (decide (x.lane < y.lane) || (x.lane == y.lane && decide (x.entry < y.entry))))))

/-- A contribution inserted after those that come before it. -/
def insertRed (c : Contrib) : List Contrib → List Contrib
  | [] => [c]
  | x :: r => if c.before x then c :: x :: r else x :: insertRed c r

/-- Sets that satisfy a test applied in their order and closed. -/
def State.applySets (s : State) (p : Contrib → Bool) : State :=
  let s1 := { s with rsets := s.rsets.filter fun c => !p c }
  ((s.rsets.filter p).foldl (fun l c => insertRed c l) []).foldl State.applyRed s1

/-- The contribution's place lies in a page of device memory. -/
def Contrib.inPage (c : Contrib) (base bytes : Nat) : Bool :=
  match c.place with
  | .dev pa => decide (base ≤ pa) && decide (pa < base + bytes)
  | _ => false

/-- The launch's sets of the page have been exhausted (R396). -/
def State.setsLost (s : State) (c : Contrib) : Bool :=
  s.rsetLost.any fun (l, b, n) => l == c.launch && c.inPage b n

/-- The memory die that holds a contribution's set. -/
def Contrib.home (c : Contrib) : Nat :=
  match c.place with
  | .dev pa => sectorOf pa
  | _ => 6

/-- A new set would exceed what the die holds (R396). -/
def State.setsFull (s : State) (c : Contrib) : Bool :=
  c.home != 6 &&
  !(s.rsets.any fun x => x.launch == c.launch && x.epoch == c.epoch && x.place == c.place) &&
  decide (s.rsetCap ≤ (((s.rsets.filter fun x => x.home == c.home).map fun x =>
    (x.launch, x.epoch, x.place)).eraseDups).length)

/-- Physical address of a contribution's place. -/
def Contrib.physical (c : Contrib) : Nat :=
  match c.place with
  | .dev pa => pa
  | _ => 0

/-- What keeps a drained contribution from its place: an engine's write (R99), a frozen frame, after which it
is applied in the new one (R82), or other accesses at a gated memory die (R206). -/
def State.redWaits (s : State) (c : Contrib) : Bool := s.engineOwns c.place 4 || s.frozenAt c.place || s.behind c.place

/-- A drained contribution applied at its place, or accepted into its set under DET (R144, R396). -/
def State.acceptRed (s : State) (c : Contrib) : State :=
  if !(c.det && c.ordered) || s.setsLost c then s.applyRed c
  else if s.setsFull c then
    let s2 := (s.applySets fun x => x.launch == c.launch && x.inPage c.base c.bytes).applyRed c
    { s2 with rsetLost := (c.launch, c.base, c.bytes) :: s2.rsetLost }.regionFault
      (.plain .device c.region 0 0 c.physical) []
  else { s with rsets := s.rsets ++ [c] }

/-- The arms whose RED has now entered whole go on (R290). -/
def State.redsEntered (s before : State) : State :=
  let f (g : Group) : Group :=
    let h (b : Bool) (a : Arm) : Arm :=
      if a.ws == .arriving && before.redEntering g.tid b && !s.redEntering g.tid b then a.resume else a
    { g with armA := h false g.armA, armB := h true g.armB }
  if before.redq.isEmpty then s else { s with cur := f s.cur, others := s.others.map f }

/-- RED_APPLY: a drained contribution is applied, or enters its set under DET; the entry that it leaves makes room
for waiting lanes (R144, R290, R396). -/
def execRedApply (s : State) : Host.Outcome State Fault Refusal :=
  .next (s.complete (fun f => match f with
      | .redApply c => if s.redWaits c then none else some c
      | _ => none)
    fun s c =>
      let s1 := (s.wakeFor c.place).acceptRed c
      (s1.enterReds.redsEntered s1).settleSets c.launch)

/-- ATOMIC_BUFFER_DRAIN: the group's entries leave its scheduler's buffer (R98). -/
def execAtomicBufferDrain (s : State) : Host.Outcome State Fault Refusal :=
  .next (s.complete (fun f => match f with
      | .drain tid => some tid
      | _ => none)
    fun s tid =>
      let s1 := s.drainIf fun c => c.who.tid == tid
      { s1 with cur := s1.wakeFlush s1.cur, others := s1.others.map s1.wakeFlush })

/-- REDUCTION_SET_APPLY: the sets of the epoch that closed first are applied (R144, R291). -/
def execReductionSetApply (s : State) : Host.Outcome State Fault Refusal :=
  let launch := s.arg 0
  let epoch := s.arg 1
  let mine (c : Contrib) : Bool := c.launch == launch && c.epoch == epoch
  .next (if s.closed.head? = some (launch, epoch) && !(s.rsets.any fun c => mine c && s.redWaits c) then
      let s1 := (s.rsets.filter mine).foldl (fun s c => s.wakeFor c.place) s
      ({ s1.applySets mine with closed := s1.closed.tail }).settleSets launch
    else s)

/-! ### Barriers -/

/-- Arms that wait for a phase of a barrier that has completed go on; those whose holder is gone leave their
wait for a trap (R295, R296). -/
def Group.wakeBar (g : Group) (lead a : Nat) (x : Option Bar) (self : Nat) : Group :=
  let mine := if g.info.nbh then g.info.lead == lead else g.tid == self
  let f (m : Arm) : Arm :=
    if m.occ && m.ws == .barrier && m.wreg == a && mine then
      match x with
      | some x => if x.passed m.waux.toNat then m.resume else m
      | none => { m.resume with lost := true }
    else m
  { g with armA := f g.armA, armB := f g.armB }

/-- The waiters on barrier a of a group's neighbourhood. -/
def State.wakeBars (s : State) (g : Group) (a : Nat) (x : Option Bar) : State :=
  { s with
    cur := s.cur.wakeBar g.info.lead a x g.tid
    others := s.others.map fun h => h.wakeBar g.info.lead a x g.tid }

/-- A trap in an arm that waits at an instruction: it gets the turn for it. -/
def State.trapArm (s : State) (tid : Nat) (armB : Bool) (t : Trap) : State :=
  (s.turnTo tid armB).trapped t

/-- BARRIER_ARRIVAL: the holding slot counts the arrival; completed phases advance B and release their
waiters (R295, R296, R297). -/
def execBarrierArrival (s : State) : Host.Outcome State Fault Refusal :=
  .next (s.complete (fun f => match f with
      | .arrive tid armB a b w => some (tid, armB, a, b, w)
      | _ => none)
    fun s (tid, armB, a, b, w) =>
      match s.thread tid with
      | none => s
      | some g =>
        match s.barCheck g a with
        | .error t => s.trapArm tid armB t
        | .ok h =>
          let q := g.phase a
          match arriveBad h.bar q b with
          | some d => s.trapArm tid armB (barTrap d a q h.bar.b)
          | none =>
            let x := Bar.settle 4 (h.bar.bump (h.bar.dist q) b)
            let s1 := s.modThread h.tid fun h => { h with bar := x }
            let s2 := s1.modThread tid fun g =>
              (g.setPhase a (q + 1)).mapArm armB fun m =>
                if w && !x.passed q then m.enter s.clock .barrier a (w32 q)
                else { m with wreg := a, waux := w32 q }.resume
            s2.wakeBars g a (some x))

/-! ### Walks and the fault buffer (R75, R80, R386, R387) -/

/-- The arm is parked (R79). -/
def Arm.parked (a : Arm) : Bool := a.occ && a.ws == .parked

/-- A parked arm goes on at its next turn: with its parked lanes, or at the fetch of an instruction of which it keeps what
it has done (R79, R80, R243). -/
def Arm.replayParked (a : Arm) : Arm :=
  if a.parked then
    { a with ws := .ready, parkFetch := false, replay := if a.parkFetch then a.replay else true }
  else a

/-- The same of one arm of a thread. -/
def State.unpark (s : State) (x : Nat × Bool) : State := s.modThread x.1 fun g => g.mapArm x.2 Arm.replayParked

/-- Regions with a parked arm on a die (R387). -/
def State.parkedRegions (s : State) (d : Nat) : List Nat :=
  ((s.threads.filter fun g => g.die == d && (g.armA.ws == .parked || g.armB.ws == .parked)).map
    (·.region)).eraseDups

/-- The servicer's signal cannot be delivered: a device event, and a DEVICE record for every region
with a parked arm on the die (R387). -/
def State.servicerLost (s : State) (d : Nat) : State :=
  (s.parkedRegions d).foldl (fun s r => s.regionFault (.plain .device r 0 0 d) [])
    (s.logEvent 5 d 0)

/-- SIG 0 to the servicer of a die (R80, R387). -/
def State.signalServicer (s : State) (d : Nat) : State :=
  if (s.die d).servicer = 0 then s.servicerLost d else s.deviceSig d 0 (s.die d).servicer 0

/-- A miss ends NOTPRESENT: an entry is appended, or the fault is dropped (R386). -/
def State.appendFault (s : State) (d : Nat) (m : Miss) : State :=
  let die := s.die d
  if die.faults.length < 8 then
    let s1 := s.modDie d fun x => { x with faults := x.faults ++ [m] }
    if die.faults.isEmpty then s1.signalServicer d else s1
  else
    let s1 := s.modDie d fun x => { x with drop := true }
    if die.drop then s1 else s1.signalServicer d

/-- The miss has an entry of the miss table: it is walked (R78). -/
def State.missOpen (s : State) (d : Nat) (m : Miss) : Bool :=
  ((s.die d).misses.take missTable).any fun x => x.samePage m.troot m.va m.psize

/-- The walk of a miss that waited for an entry begins now, and finds the page (R78). -/
def State.foundLate (s : State) (m : Miss) : Bool :=
  m.late && (match s.walk m.troot m.va with
    | .absent _ => false
    | _ => true)

/-- WALK_COMPLETE of a miss: its entry of the miss table is resolved; a walk that began late and does not end NOTPRESENT
lets its arms go on (R78, R79, R80, R386). -/
def execWalkComplete (s : State) : Host.Outcome State Fault Refusal :=
  .next (s.complete (fun f => match f with
      | .walk d m => if s.missOpen d m then some (d, m) else none
      | _ => none)
    fun s (d, m) =>
      match takeOut (fun x => x.samePage m.troot m.va m.psize) (s.die d).misses with
      | some (x, rest) =>
        let s1 := s.modDie d fun y => { y with misses := rest }
        if s.foundLate x then x.arms.foldl State.unpark s1 else s1.appendFault d x
      | none => s)

/-! ### Pending MCHECK (R391) -/

/-- MCHECK_DELIVER: of the errors pending for an arm that of the oldest instruction's lowest lane is taken at its
instruction boundary; each of the others has its MCHECK record only (DESIGN CHOICE, log 53). -/
def execMcheckDeliver (s : State) : Host.Outcome State Fault Refusal :=
  let tid := s.arg 0
  let armB := s.argB 1
  .next (match s.thread tid with
    | none => s
    | some g =>
      match oldestMcheck (g.mchecksOf armB) with
      | none => s
      | some m =>
        if s.canIssue g armB && !(g.arm armB).replay then
          let s1 := ((s.turnTo tid armB).modCur fun g => { g with mchecks := g.mchecks.filter fun x => x.armB != armB }).trapped
            ⟨.mcheck, m.detail, m.addr, w32 m.lane⟩
          ((g.mchecksOf armB).erase m).foldl (fun s x => s.mcheckRecord g.region g.name.toNat g.faultLoc x) s1
        else s)

end Sys2Proof.Machine
end

