-- ==== Sys2Proof/Machine/Skeins.lean ====
section
/-!
DEFINITION. Skeins: the HND instructions (R325 to R329), the skein home with its drops, deaths,
indirections, bindings and scope waiters (R167 to R179, R400 to R404), and launch records as the hub
reads them (R28, R110).
-/

namespace Sys2Proof.Machine

/-! ### Pairs -/

/-- The second register of a pair. -/
def RegId.next : RegId → RegId
  | .s n => .s (n + 1)
  | .b armB n => .b armB (n + 1)
  | r => r

/-- A pair of the arm that has the turn. -/
def Group.pairAt (g : Group) (n : Nat) : RegId := .ofS g.sel n

/-- The value of a pair. -/
def Group.val64 (g : Group) (r : RegId) : W64 := pairOf (g.val32 r) (g.val32 r.next)

/-- A pair written. -/
def Group.putPair (g : Group) (r : RegId) (x : W64) : Group := g.put64 r r.next x

/-- The upper word of a null handle (R167, log 22). -/
def nullHigh : W32 := 0xFC000000#32

/-- A pair whose handle has been consumed holds a null handle; its other bits stay (R175, log 22). -/
def Group.nullPair (g : Group) (r : RegId) : Group := (g.put32 r (g.val32 r)).put32 r.next nullHigh

/-- Fills of a pair. -/
def pairFills (r : RegId) (x : W64) : List Fill := [.word r (loW x), .word r.next (hiW x)]

/-- A HANDLE trap: TADDR the handle, TINFO the sub-cause (R400, R372). -/
def handleTrap (detail : Nat) (h : W64) : Trap := ⟨.handle, detail, h, w32 detail⟩

/-! ### Launch records (R28, R110) -/

/-- The launch that a record at a place describes. -/
def State.readLaunch (s : State) (origin queue : Nat) (p : Place) : Launch :=
  let f (o n : Nat) : Nat := s.loadAt (p.plus o) n
  { id := s.nextLaunchId
    origin := origin
    queue := queue
    recAt := some p
    entry := f 0 8
    args := w64 (f 8 8)
    carry := w64 (f 0x10 8)
    affbase := f 0x18 8
    affstride := f 0x20 4
    groups := f 0x24 4
    region := f 0x28 4
    flags := f 0x2C 4
    shapeW := f 0x30 2
    shapeH := f 0x32 2
    vregs := f 0x34 1
    lastLanes := f 0x35 1
    spad := f 0x36 2
    starved := false
    since := s.clock
    wid := 0
    words := [] }

/-- A launch reaches the hub's waiting list and takes the next launch id (R110). A finaliser's or cast-on launch
joins the list also while it is full: R110 stops doorbells and pending-launch queues only (DESIGN CHOICE, log 50). -/
def State.submit (s : State) (l : Launch) : State :=
  { s with
    waiting := s.waiting ++ [{ l with id := s.nextLaunchId, since := s.clock }]
    nextLaunchId := s.nextLaunchId % (2 ^ 32 - 1) + 1 }

/-! ### Pools (R169) -/

/-- The records of a region's indirection pool: the first and how many. -/
def State.pool (s : State) (r : Nat) : Nat × Nat :=
  let a := s.eff r .skpool
  if a < s.bases.skein ∨ s.bases.skein + s.bases.skeinCount * 64 ≤ a then (0, 0)
  else
    let first := (a - s.bases.skein) / 64
    let n := s.eff r .skpooln
    (first, if first + n ≤ s.bases.skeinCount then n else s.bases.skeinCount - first)

/-- A record lies in a region's pool. -/
def State.inPool (s : State) (r oid : Nat) : Bool :=
  decide ((s.pool r).1 ≤ oid) && decide (oid < (s.pool r).1 + (s.pool r).2)

/-- Regions whose control blocks hold a pool of their own that is in force. -/
def State.poolOwners (s : State) : List Nat :=
  ((s.mem.cells.filterMap fun c =>
      if s.bases.rcb ≤ c.1 ∧ c.1 < s.bases.rcb + 65536 * 256 ∧ 0x90 ≤ (c.1 - s.bases.rcb) % 256 ∧
          (c.1 - s.bases.rcb) % 256 < 0x94 then some ((c.1 - s.bases.rcb) / 256)
      else none).eraseDups).filter fun r => s.isTop r || s.overrides r .skpooln

/-- The first record from an id on that satisfies a test, among n. -/
def firstRecord (p : Nat → Bool) : Nat → Nat → Option Nat
  | 0, _ => none
  | k + 1, oid => if p oid then some oid else firstRecord p k (oid + 1)

/-- The record HNEW takes: the lowest FREE one from 1 on outside every pool (R169, R325, log 20). -/
def State.freeRecord (s : State) : Option Nat :=
  let owners := s.poolOwners
  firstRecord (fun oid => !(s.skein oid).live && !(s.skein oid).damaged &&
    !(owners.any fun r => s.inPool r oid)) (s.bases.skeinCount - 1) 1

/-- The record an indirection of a region takes: the lowest FREE one of its pool (R169, R172). -/
def State.freeInPool (s : State) (r : Nat) : Option Nat :=
  firstRecord (fun oid => oid != 0 && !(s.skein oid).live && !(s.skein oid).damaged) (s.pool r).2
    (s.pool r).1

/-- A record leaves FREE: LIVE, GEN increased, nothing returned (R169, R325). -/
def State.allocSkein (s : State) (oid kind region : Nat) (pool : Bool) (held desc : W64) : State :=
  let r := s.skein oid
  s.setSkein { r with
    live := true, kind := kind, gen := (r.gen + 1) % 2 ^ 15, region := region, pool := pool
    overFlag := false, ret := 0, fin := none, held := held, desc := desc, waiters := [] }

/-- A handle to a record as it stands now. -/
def State.handleTo (s : State) (e : Nat) (ind : Bool) (kind oid : Nat) : W64 :=
  w64 (handleOf e ind kind (s.skein oid).gen oid)

/-! ### Drops (R171, R401, R402) -/

/-- A drop that no arm waits for was refused: counted, and charged as a DEVICE fault (R402). -/
def State.orphan (s : State) (charge h status : Nat) : State :=
  if status = 0 then s
  else
    let r := s.skein (hOid h)
    let region := if status = 7 then r.region else charge
    ({ s with skeinErrors := s.skeinErrors + 1 }).regionFault
      (.plain .device region 0 0 (s.skeinAt (hOid h))) []

/-- The skein home takes a record into its cache; one that it cannot use is marked damaged, and its owner
region told (R169, R404, R406). -/
def State.cacheSkein (s : State) (oid : Nat) : State :=
  if s.skeins.any (fun r => r.oid == oid) || !(s.areaSkein oid).damaged then s
  else
    let r := s.areaSkein oid
    (s.setSkein r).regionFault (.plain .device r.region 0 0 (s.skeinAt oid)) []

/-- The same of every record that the chain of a handle meets (R173, R404). -/
def State.cacheChain (s : State) : Nat → Nat → State
  | 0, _ => s
  | k + 1, h =>
    let s1 := s.cacheSkein (hOid h)
    if hInd h && s1.current h then s1.cacheChain k (s1.skein (hOid h)).held.toNat else s1

/-- A handle is about to be resolved: the skein home meets the records on its chain (R173, R404). -/
def State.meetHandle (s : State) (h : Nat) : State := if hNull h then s else s.cacheChain 65 h

/-- DIE but for the drop of HELD: the finaliser submitted, waiters completed with 0, the record FREE. -/
def State.dieRecord (s : State) (r : Skein) : State :=
  let s1 := match r.fin with
    | some p => s.submit (s.readLaunch 2 0 p)
    | none => s
  let s2 := r.waiters.foldl (fun s (_, w, d, _) => s.send (.scopewDone w d 0)) s1
  (s2.freeJoiners (r.waiters.map (·.1))).setSkein { r with live := false, waiters := [] }

/-- DROP (R171): status 0 OK, 6 STALE, 7 OVERRETURN. Each DIE frees a record, so the fuel is the number
of records. -/
def State.dropFuel (s : State) : Nat → Nat → State × Nat
  | 0, _ => (s, 6)
  | k + 1, h =>
    let s := s.cacheSkein (hOid h)
    let r := s.skein (hOid h)
    if !s.current h then (s, 6)
    else if 2 ^ 62 < r.ret + 2 ^ hE h then (s.setSkein { r with overFlag := true }, 7)
    else
      let r1 := { r with ret := r.ret + 2 ^ hE h }
      if r1.ret = 2 ^ 62 then
        let s1 := s.dieRecord r1
        if hNull r1.held.toNat then (s1, 0)
        else
          let (s2, st) := s1.dropFuel k r1.held.toNat
          (s2.orphan r1.region r1.held.toNat st, 0)
      else (s.setSkein r1, 0)

/-- DROP of a handle that is not null. -/
def State.drop (s : State) (h : Nat) : State × Nat := s.dropFuel (s.bases.skeinCount + 1) h

/-- A drop with no issuing arm (R402). -/
def State.dropQuiet (s : State) (charge : Nat) (h : W64) : State :=
  if hNull h.toNat then s
  else
    let (s1, st) := s.drop h.toNat
    s1.orphan charge h.toNat st

/-- The group whose skein operation an operation in flight is, on its way to the skein home (R327). -/
def Flight.skeinOf : Flight → Option Nat
  | .skeinAlloc t _ _ _ _ _ | .indAlloc t _ _ _ | .hinfo t _ _ => some t
  | .skeinBind w _ _ | .scopewAttach w _ _ _ => some w.tid
  | .skeinDrop w _ _ => w.map (·.tid)
  | _ => none

/-- The first skein operation of a kind that no earlier one of its group precedes (R327), with the rest of
the list. -/
def nextSkein {α : Type} (pick : Flight → Option α) : List Nat → List Flight → Option (α × List Flight)
  | _, [] => none
  | seen, f :: rest =>
    let behind : Bool := match f.skeinOf with
      | some t => seen.contains t
      | none => false
    match (if behind then none else pick f) with
    | some x => some (x, rest)
    | none => (nextSkein pick (f.skeinOf.toList ++ seen) rest).map fun (x, l) => (x, f :: l)

/-- The next skein operation of a kind reaches the skein home (R169, R327). -/
def State.atSkeinHome {α : Type} (s : State) (pick : Flight → Option α) (k : State → α → State) : State :=
  match nextSkein pick [] s.flight with
  | some (x, rest) => k { s with flight := rest } x
  | none => s

/-- SKEIN_DROP: a drop reaches the skein home (R171, R317, R327, R402). -/
def execSkeinDrop (s : State) : Host.Outcome State Fault Refusal :=
  .next (s.atSkeinHome (fun f => match f with
      | .skeinDrop who charge h => some (who, charge, h)
      | _ => none)
    fun s (who, charge, h) =>
      match who with
      | none => s.dropQuiet charge h
      | some w =>
        let (s1, st) := s.drop h.toNat
        s1.send (.ack w st none))

/-! ### New objects and splits (R169, R170, R172, R325, R326) -/

/-- HNEW (R325). -/
def execHnew (d a b : Nat) (ea eb : Bool) (s : State) : Host.Outcome State Fault Refusal :=
  let g := s.cur
  let r := g.pairAt d
  issue 4 { srcs := g.srcA ea a (g.sregs a) ++ g.srcB eb b (g.spregs b), dests := [r, r.next] }
    (fun s =>
      let g := s.cur
      let k := (g.sval a).toNat
      let b64 := g.spval b
      let start (desc parent : W64) (bp : Option RegId) : Eff :=
        .done ((s.modCur fun g => g.awaiting [r, r.next]).send (.skeinAlloc g.tid r k desc parent bp))
      if 3 ≤ k then .trap s (handleTrap 2 0)
      else if k = 0 then
        if b64.toNat % 64 ≠ 0 then .trap s ⟨.misalign, 3, b64, 0⟩ else start b64 (w64 nullHandle) none
      else if k = 2 ∨ b64 = 0 ∨ hNull b64.toNat then start 0 (w64 nullHandle) none
      else if hKind b64.toNat ≠ 1 then .trap s (handleTrap 2 b64)
      else start 0 b64 (if b < 64 ∧ b ≠ d then some (g.pairAt b) else none)) s

/-- SKEIN_ALLOC: the skein home allocates the record; with none free the answer is null and b is kept
(R169, R325). -/
def execSkeinAlloc (s : State) : Host.Outcome State Fault Refusal :=
  .next (s.atSkeinHome (fun f => match f with
      | .skeinAlloc tid d kind desc parent bp => some (tid, d, kind, desc, parent, bp)
      | _ => none)
    fun s (tid, d, kind, desc, parent, bp) =>
      match s.thread tid, s.freeRecord with
      | some g, some oid =>
        let s1 := s.allocSkein oid kind g.region false parent desc
        let s2 := match bp with
          | some b => s1.modThread tid fun g => g.nullPair b
          | none => s1
        s2.send (.skeinReply tid (pairFills d (s1.handleTo 62 false kind oid)))
      | _, _ => s.send (.skeinReply tid (pairFills d (w64 nullHandle))))

/-- The traps that HSPLIT and HMERGE share (R316, R326). -/
def State.splitTrap (s : State) (d a : Nat) (h : W64) : Option Trap :=
  if d = a then some (s.illegal 0x14)
  else if hNull h.toNat then some (handleTrap 1 h)
  else if hKind h.toNat = 3 then some (handleTrap 2 h)
  else none

/-- HSPLIT (R170, R172, R326). -/
def execHsplit (d a : Nat) (ea _eb : Bool) (s : State) : Host.Outcome State Fault Refusal :=
  let g := s.cur
  let r := g.pairAt d
  let q := g.pairAt a
  issue 4 { srcs := g.srcA ea a (g.spregs a), dests := [r, r.next, q, q.next] }
    (fun s =>
      let h := s.cur.val64 q
      match s.splitTrap d a h with
      | some t => .trap s t
      | none =>
        if 1 ≤ hE h.toNat then
          let h' := w64 (withE h.toNat (hE h.toNat - 1))
          .done (s.modCur fun g => (g.putPair q h').putPair r h')
        else
          .done ((s.modCur fun g => g.awaiting [r, r.next, q, q.next]).send (.indAlloc s.cur.tid r q h))) s

/-- INDIRECTION_ALLOC: an indirection from the splitting group's pool takes the handle; with the pool
empty a is unchanged and d null (R172, R326). -/
def execIndirectionAlloc (s : State) : Host.Outcome State Fault Refusal :=
  .next (s.atSkeinHome (fun f => match f with
      | .indAlloc tid d a h => some (tid, d, a, h)
      | _ => none)
    fun s (tid, d, a, h) =>
      match s.thread tid with
      | none => s
      | some g =>
        match s.freeInPool g.region with
        | some oid =>
          let s1 := s.allocSkein oid (hKind h.toNat) g.region true h 0
          let x := s1.handleTo 61 true (hKind h.toNat) oid
          s1.send (.skeinReply tid (pairFills a x ++ pairFills d x))
        | none => s.send (.skeinReply tid (pairFills a h ++ pairFills d (w64 nullHandle))))

/-- Two handles can be merged (R170, R326). -/
def mergeable (x y : Nat) : Bool :=
  hOid x == hOid y && hGen x == hGen y && hInd x == hInd y && hKind x == hKind y && hE x == hE y
    && decide (hE x ≤ 61)

/-- HMERGE (R170, R326). -/
def execHmerge (d a : Nat) (ea _eb : Bool) (s : State) : Host.Outcome State Fault Refusal :=
  let g := s.cur
  let r := g.pairAt d
  let q := g.pairAt a
  issue 4 { srcs := g.srcA ea a (g.spregs a) ++ blocking [r, r.next], dests := [r, r.next, q, q.next] }
    (fun s =>
      let h := s.cur.val64 q
      let k := s.cur.val64 r
      match s.splitTrap d a h with
      | some t => .trap s t
      | none =>
        if mergeable h.toNat k.toNat then
          .done (s.modCur fun g => (g.putPair r (w64 (withE k.toNat (hE k.toNat + 1)))).nullPair q)
        else .trap s (handleTrap 7 h)) s

/-- HDROP (R170, R327). -/
def execHdrop (a : Nat) (ea _eb : Bool) (s : State) : Host.Outcome State Fault Refusal :=
  let g := s.cur
  let q := g.pairAt a
  issue 4 { srcs := g.srcA ea a (g.spregs a), dests := [q, q.next] }
    (fun s =>
      let h := s.cur.val64 q
      if hNull h.toNat then .idle s
      else
        .done ((s.modCur fun g => (g.nullPair q).postOne).send
          (.skeinDrop (some s.cur.who) s.cur.region h))) s

/-! ### Finalisers (R177, R327) -/

/-- The checks of a record address that an instruction translates itself: alignment, global space, a
read and a write (R279, R322, R327). -/
def State.recordReach (s : State) (addr : W64) : Checked :=
  if addr.toNat % 64 ≠ 0 then .trap ⟨.misalign, 3, addr, 0⟩
  else if addr.toNat / 2 ^ 57 = 127 then .trap ⟨.aperture, 2, addr, 0⟩
  else
    match s.checkLanes ⟨.load, true, 64, 64⟩ [(0, addr)] with
    | .ok hs [] =>
      match s.checkLanes ⟨.store, true, 64, 64⟩ [(0, addr)] with
      | .ok _ as => .ok hs as
      | r => r
    | r => r

/-- HBIND (R177, R327). -/
def execHbind (a b : Nat) (ea eb : Bool) (s : State) : Host.Outcome State Fault Refusal :=
  let g := s.cur
  let q := g.pairAt a
  issue 4 { srcs := g.srcA ea a (g.spregs a) ++ g.srcB eb b (g.spregs b) }
    (fun s =>
      let h := s.cur.val64 q
      let x := s.cur.spval b
      let post (s : State) (fin : Option Place) : Eff :=
        .done ((s.modCur Group.postOne).send (.skeinBind s.cur.who h fin))
      if hNull h.toNat then .trap s (handleTrap 1 h)
      else if x = 0 then post s none
      else
        match s.recordReach x with
        | .trap t => .trap s t
        | .frozen d => .stay (s.waitHome d)
        | .ok (hit :: _) [] => s.met [hit] (post (s.touchAll true [hit]) (some hit.lo))
        | .ok _ absent => .park (s.park .store false absent)) s

/-- The handle reaches a record that is FREE with its GEN (R177). -/
def State.isDead (s : State) (h : Nat) : Bool :=
  let r := s.skein (hOid h)
  decide (hOid h < s.bases.skeinCount) && !r.live && r.gen == hGen h && !r.damaged

/-- SKEIN_BIND: FIN of the object reached (R177, R404). -/
def execSkeinBind (s : State) : Host.Outcome State Fault Refusal :=
  .next (s.atSkeinHome (fun f => match f with
      | .skeinBind who h fin => some (who, h, fin)
      | _ => none)
    fun s0 (who, h, fin) =>
      let s := s0.meetHandle h.toNat
      let miss (o : Nat) : State := s.send (.ack who (if s.isDead o then 1 else 6) none)
      match s.reached h.toNat with
      | .chain => s.send (.ack who 6 none)
      | .stale o => miss o
      | .at o =>
        if s.current o then (s.setSkein { s.skein (hOid o) with fin := fin }).send (.ack who 0 none)
        else miss o)

/-! ### Reads (R328) -/

/-- HINFO: not under DET (R32, R328). -/
def execHinfo (d a : Nat) (ea _eb : Bool) (s : State) : Host.Outcome State Fault Refusal :=
  let g := s.cur
  let r := g.pairAt d
  issue 4 { timing := true, srcs := g.srcA ea a (g.spregs a), dests := [r, r.next] }
    (fun s => .done ((s.modCur fun g => g.awaiting [r, r.next]).send
      (.hinfo s.cur.tid r (s.cur.spval a)))) s

/-- What HINFO reads (R328, R404). -/
def State.hinfo (s : State) (h : Nat) : W64 :=
  if !hNull h && s.current h then
    let r := s.skein (hOid h)
    w64 (r.ret % 2 ^ 62 + (if r.overFlag then 2 ^ 62 else 0))
  else BitVec.allOnes 64

/-- HADDR (R181, R328, R400): it is resolved in its order among the group's skein operations. -/
def execHaddr (d a b : Nat) (ea eb : Bool) (s : State) : Host.Outcome State Fault Refusal :=
  let g := s.cur
  let r := g.pairAt d
  issue 4 { srcs := g.srcA ea a (g.spregs a) ++ g.srcB eb b (g.sblock b 4), dests := [r, r.next] }
    (fun s =>
      let g := s.cur
      let h := g.spval a
      let rs := [r, r.next]
      let answer (s : State) (f : Flight) : Eff := .done ((s.modCur fun g => g.awaiting rs).send f)
      if s.flight.any (fun f => f.skeinOf == some g.tid) then .stay s.stall
      else
        let s := s.meetHandle h.toNat
        match s.tensorOf h.toNat with
        | .bad detail => .trap s (handleTrap detail h)
        | .gated d => .stay (s.waitHome (some d))
        | .error detail at_ =>
          answer s (.load g.who (pairFills r 0) (some ⟨g.sel, w64 at_, 0, detail, s.clock⟩) [])
        | .tensor t =>
          let c := (g.sblock b 4).map fun x => (g.val32 x).toNat
          if !t.inside c then .trap s (handleTrap 6 h)
          else answer s (.skeinReply g.tid (pairFills r (w64 (t.address c))))) s

/-- SKEIN_REPLY: a long-latency skein operation fills its destinations (R217, R328). -/
def execSkeinReply (s : State) : Host.Outcome State Fault Refusal :=
  .next (s.atSkeinHome (fun f => match f with
      | .hinfo tid d h => some (tid, d, some h, [])
      | .skeinReply tid fs => some (tid, .s 0, none, fs)
      | _ => none)
    fun s (tid, d, h, fs) =>
      match h with
      | some h =>
        let s1 := s.cacheSkein (hOid h.toNat)
        s1.fills tid (pairFills d (s1.hinfo h.toNat))
      | none => s.fills tid fs)

/-! ### Finish scopes (R178, R329) -/

/-- The object a handle reaches is LIVE and no scope (R329). -/
def State.notScope (s : State) (h : Nat) : Bool :=
  hKind h != 1 ||
    (match s.reached h with
      | .at o => s.current o && (s.skein (hOid o)).kind != 1
      | _ => false)

/-- SCOPEW: the arm waits at the instruction until d is filled (R178, R329). -/
def execScopew (d a : Nat) (ea _eb : Bool) (s : State) : Host.Outcome State Fault Refusal :=
  let g := s.cur
  let r := g.pairAt d
  let q := g.pairAt a
  issue 4 { srcs := g.srcA ea a (g.spregs a), dests := [r, q, q.next] }
    (fun s =>
      let h := s.cur.val64 q
      if s.cur.me.replay then .done s
      else if hNull h.toNat then .trap s (handleTrap 1 h)
      else if s.notScope h.toNat then .trap s (handleTrap 2 h)
      else .stay (((s.modCur fun g => g.awaiting [r]).waitAs .scopew d 0).send
        (.scopewAttach s.cur.who r q h))) s

/-- A waiter record leaves a scope and returns to the pool. -/
def State.detach (s : State) (oid rec : Nat) : State :=
  let r := s.skein oid
  let ws := r.waiters.filter fun x => !(x.1 == rec)
  ((s.freeJoiners [rec]).linkJoiners (ws.map (·.1))).setSkein { r with waiters := ws }

/-- A waiter record taken from the pool and attached to a scope (R61, R178). -/
def State.attach (s : State) (oid : Nat) (who : Who) (d : RegId) (h : W64) : State :=
  let r := s.skein oid
  let ws := r.waiters ++ [(s.nextJoiner, who, d, h)]
  ((s.takeJoiner who.tid (replyWord who d)).linkJoiners (ws.map (·.1))).setSkein { r with waiters := ws }

/-- SCOPEW_ATTACH: the waiter is attached, then the caller's handle dropped (R178, R329, R404). Where the handle leads
through an indirection to no live scope, its drop is made at the first record all the same, and SCOPEW completes with 6
whatever the status of that drop (DESIGN CHOICE, log 54). -/
def execScopewAttach (s : State) : Host.Outcome State Fault Refusal :=
  .next (s.atSkeinHome (fun f => match f with
      | .scopewAttach who d a h => some (who, d, a, h)
      | _ => none)
    fun s (who, d, a, h) =>
      if s.joinerFree = 0 then s.send (.scopewDone who d 5)
      else
        let s0 := (s.modThread who.tid fun g => g.nullPair a).meetHandle h.toNat
        match s0.reached h.toNat with
        | .at o =>
          if s0.current o then
            let (s2, st) := (s0.attach (hOid o) who d h).drop h.toNat
            if st = 0 then s2 else (s2.detach (hOid o) s0.nextJoiner).send (.scopewDone who d (w32 st))
          else (s0.drop h.toNat).1.send (.scopewDone who d 6)
        | _ => (s0.drop h.toNat).1.send (.scopewDone who d 6))

/-- The wait of an arm ends: a resident group's arm completes its instruction of a length on its next turn; in a save
record the instruction is complete, so that no import issues it again (R45, R126, R178). -/
def Group.waitOver (g : Group) (len : Nat) (a : Arm) : Arm := if g.resident then a.resume else a.ready.next len

/-- SCOPEW_COMPLETE: d takes the status and the arm goes on (R178, R329). -/
def execScopewComplete (s : State) : Host.Outcome State Fault Refusal :=
  .next (s.complete (fun f => match f with
      | .scopewDone who d x => some (who.tid, d, x)
      | _ => none)
    fun s (tid, d, x) =>
      ((s.fills tid [.word d x]).modThread tid fun g =>
        let f (a : Arm) : Arm := if a.ws == .scopew && a.wreg == d.num then g.waitOver 4 a else a
        match d with
        | .b armB _ => g.mapArm armB f
        | _ => { g with armA := f g.armA, armB := f g.armB }).syncRecord tid)

/-! ### Errors (R404) -/

/-- SKEIN_RECORD_ERROR: the record is damaged; its owner region receives a DEVICE record (R404). -/
def execSkeinRecordError (s : State) : Host.Outcome State Fault Refusal :=
  let r := s.skein (s.arg 0)
  .next ((s.setSkein { r with damaged := true }).regionFault
    (.plain .device r.region 0 0 (s.skeinAt (s.arg 0))) [])

end Sys2Proof.Machine
end

