-- ==== Sys2Proof/Machine/Names.lean ====
section
/-!
DEFINITION. Names: the NAMEOP instructions (R318 to R321), rights (R55, R56), delivery (R57 to R62),
joiners, hosts and name ports (R63 to R66, R353, R354, R397 to R399).
-/

namespace Sys2Proof.Machine

/-- LOC of a resident group (R51). -/
def CoreLoc.loc (l : CoreLoc) : Nat := l.die + (l.y * 8 + l.x) * 8 + l.slot * 1024

/-! ### Instructions (R316 to R321) -/

/-- A NAME trap (R372). -/
def nameTrap (detail : Nat) (target : W64) (info : W32) : Trap := ⟨.name, detail, target, info⟩

/-! ### The NTLB and the two paths (R54) -/

/-- Entries of a core's NTLB (R54). -/
def ntlbSize : Nat := 64

/-- The entry lies in the NTLB of a place's core. -/
def NtlbEntry.on (e : NtlbEntry) (l : CoreLoc) : Bool := e.die == l.die && e.x == l.x && e.y == l.y

/-- The entry of a core's NTLB for a name (R54). -/
def State.ntlbHit (s : State) (l : CoreLoc) (name : Nat) : Option NtlbEntry :=
  s.ntlb.find? fun e => e.on l && e.name == name

/-- The translation leaves the NTLB of a core. -/
def State.ntlbDrop (s : State) (l : CoreLoc) (name : Nat) : State :=
  { s with ntlb := s.ntlb.filter fun e => !(e.on l && e.name == name) }

/-- The home's answer about a RESIDENT target enters the source core's NTLB, whose oldest entry makes room for it (DESIGN
CHOICE, log 52). -/
def State.ntlbFill (s : State) (l : CoreLoc) (e : NameEntry) : State :=
  let s1 := s.ntlbDrop l e.name
  let own := (s1.ntlb.filter fun x => x.on l).length
  { s1 with ntlb := ⟨l.die, l.x, l.y, e.name, e.gen, e.loc, e.owner⟩ ::
      (if own < ntlbSize then s1.ntlb else dropLast (fun x => x.on l) s1.ntlb) }

/-- The path goes first to the target's core. -/
def NPath.isDirect : NPath → Bool
  | .home => false
  | _ => true

/-- The thread is a group of the core. -/
def State.sendsFrom (s : State) (l : CoreLoc) (tid : Nat) : Bool :=
  match s.thread tid with
  | some g => g.resident && g.loc.die == l.die && g.loc.x == l.x && g.loc.y == l.y
  | none => false

/-- The paths of a core's operations to a name that are not acknowledged yet: true is direct (R54). -/
def State.unacked (s : State) (l : CoreLoc) (name : Nat) : List Bool :=
  let of_ (op : NameOp) : Option Bool := match op.src with
    | .group t => if op.target = name ∧ s.sendsFrom l t then some op.path.isDirect else none
    | _ => none
  s.hold.filterMap of_ ++ s.flight.filterMap fun f => match f with
    | .nameOp op => of_ op
    | .ack w _ (some (t, d)) => if t = name ∧ s.sendsFrom l w.tid then some d else none
    | _ => none

/-- The path that an operation of a core to a name takes: direct where the NTLB translates the name (R54). -/
def State.pathTo (s : State) (l : CoreLoc) (name : Nat) : NPath :=
  match s.ntlbHit l name with
  | some e => .direct e.gen e.loc
  | none => .home

/-- Operations of the core to the name are not acknowledged that took the other path, so that it sends none (R54). -/
def State.pathBusy (s : State) (l : CoreLoc) (name : Nat) : Bool :=
  (s.unacked l name).any fun d => d != (s.pathTo l name).isDirect

/-- A name operation leaves the core of the arm that has the turn, with the result of its subtree check (R54, R55,
R318). -/
def State.sendName (s : State) (target : W64) (k : NKind) : State :=
  s.send (.nameOp ⟨.group s.cur.tid, s.cur.mine, s.cur.region, target.toNat, k,
    s.subtreeCheck s.cur.region target.toNat, none, (s.cur.me.pc, s.ir), s.pathTo s.cur.loc target.toNat⟩)

/-- A name operation leaves the core, unless its path is not free yet (R45, R54). -/
def State.leaveNamed (s : State) (target : W64) (k : State → State) : Eff :=
  if s.pathBusy s.cur.loc target.toNat then .stay s.stall else s.leaveCore k

/-- A posted name operation leaves the core (R45, R317, R318). -/
def State.postName (s : State) (target : W64) (k : NKind) : Eff :=
  s.leaveNamed target fun s => (s.modCur Group.postOne).sendName target k

/-- WAKE (R318). -/
def execWake (a : Nat) (ea _eb : Bool) (s : State) : Host.Outcome State Fault Refusal :=
  issue 4 { srcs := s.cur.srcA ea a (s.cur.spregs a) }
    (fun s => s.postName (s.cur.spval a) .wake) s

/-- SIG (R316, R318). -/
def execSig (a b : Nat) (ea eb : Bool) (s : State) : Host.Outcome State Fault Refusal :=
  issue 4 { srcs := s.cur.srcA ea a (s.cur.spregs a) ++ s.cur.srcB eb b (s.cur.sregs b) }
    (fun s =>
      let n := s.cur.sval b
      if 31 < n.toNat then .trap s (nameTrap 1 (s.cur.spval a) n)
      else s.postName (s.cur.spval a) (.sig n.toNat)) s

/-- DEPO: d names a mailbox register of the target (R59, R318). -/
def execDepo (d a b : Nat) (ea eb : Bool) (s : State) : Host.Outcome State Fault Refusal :=
  issue 4 { srcs := s.cur.srcA ea a (s.cur.spregs a) ++ s.cur.srcB eb b (s.cur.sregs b) }
    (fun s => s.postName (s.cur.spval a) (.depo (d % 8) (s.cur.sval b))) s

/-- JOIN (R320). -/
def execJoin (d a : Nat) (ea _eb : Bool) (s : State) : Host.Outcome State Fault Refusal :=
  let r := s.cur.pairAt d
  issue 4 { srcs := s.cur.srcA ea a (s.cur.spregs a), dests := [r] }
    (fun s =>
      let x := s.cur.spval a
      if x = s.cur.name then .trap s (nameTrap 4 x 0)
      else s.leaveNamed x fun s => (s.modCur fun g => g.awaiting [r]).sendName x (.join r)) s

/-- SLEEP: completes at once with wake-pending set, else waits (R14, R321). -/
def execSleep (s : State) : Host.Outcome State Fault Refusal :=
  issue 4 {}
    (fun s =>
      if s.cur.me.replay then .done s
      else if s.cur.wakePend then .done (s.modCur fun g => { g with wakePend := false })
      else .stay (s.waitAs .sleep 0 0)) s

/-- SIGW's effect in a group: d takes the bits met, which are cleared (R321); its producer is no more. -/
def Group.takeSignals (g : Group) (d : RegId) (mask : W32) : Group :=
  ({ g with sigPend := g.sigPend &&& ~~~mask }.put32 d (g.sigPend &&& mask)).settle d

/-- SIGW: while it waits it is an outstanding producer of d (R217, R316, R321). -/
def execSigw (d a : Nat) (ea _eb : Bool) (s : State) : Host.Outcome State Fault Refusal :=
  let r := s.cur.pairAt d
  issue 4 { srcs := s.cur.srcA ea a (s.cur.sregs a), dests := [r] }
    (fun s =>
      let m := s.cur.sval a
      if s.cur.me.replay then .done s
      else if m = 0 then .trap s (nameTrap 2 0 m)
      else if s.cur.sigPend &&& m ≠ 0 then .done (s.modCur fun g => g.takeSignals r m)
      else .stay ((s.modCur fun g => g.awaiting [r]).waitAs .sigw d m)) s

/-- NGRANT and NREVOKE: the rights word is checked, then sent (R319). -/
def rightsOp (k : W32 → NKind) (a b : Nat) (ea eb : Bool) (s : State) :
    Host.Outcome State Fault Refusal :=
  issue 4 { srcs := s.cur.srcA ea a (s.cur.spregs a) ++ s.cur.srcB eb b (s.cur.sregs b) }
    (fun s =>
      let w := s.cur.sval b
      if bitsOf w.toNat 15 5 ≠ 0 then .trap s (nameTrap 3 (s.cur.spval a) w)
      else s.postName (s.cur.spval a) (k w)) s

/-- NGRANT (R319). -/
def execNgrant (a b : Nat) (ea eb : Bool) (s : State) : Host.Outcome State Fault Refusal :=
  rightsOp .ngrant a b ea eb s

/-- NREVOKE (R319). -/
def execNrevoke (a b : Nat) (ea eb : Bool) (s : State) : Host.Outcome State Fault Refusal :=
  rightsOp .nrevoke a b ea eb s

/-! ### Rights (R55, R56) -/

/-- The bit of RIGHTS that an operation needs: W, S, D, J. -/
def NKind.right : NKind → Nat
  | .wake => 0
  | .sig _ => 1
  | .depo _ _ => 2
  | _ => 3

/-- The operation changes rights. -/
def NKind.isRights : NKind → Bool
  | .ngrant _ | .nrevoke _ => true
  | _ => false

/-- The source may apply the operation to the target: the subtree result that the operation carries, or the
grant that stands at the delivery point (R55, R56). -/
def State.permitted (s : State) (op : NameOp) (e : NameEntry) : Bool :=
  if op.kind.isRights then
    let base := s.eff op.region .nsbase
    op.subtree && decide (base ≤ nameSpace e.name) &&
      decide (nameSpace e.name < base + s.eff op.region .nscount)
  else
    op.subtree || op.src == .group op.target
      || (bitAt e.rights op.kind.right && (e.all || s.inSubtree op.region e.grantee))

/-- RIGHTS after a grant; with no right left ALL and GRANTEE are cleared (R319). -/
def NameEntry.withRights (e : NameEntry) (rights : Nat) (all : Bool) (grantee : Nat) : NameEntry :=
  if rights = 0 then { e with rights := 0, all := false, grantee := 0 }
  else { e with rights := rights, all := all, grantee := grantee }

/-! ### Completions (R65, R317, R320) -/

/-- A completion word at a host address, where one is asked for (R65). -/
def State.complWord (s : State) (compl : Option Nat) (value status : Nat) : State :=
  match compl with
  | some a => { s with hostMem := s.hostMem.wr a 8 (value % 2 ^ 32 + status % 256 * 2 ^ 32 + 2 ^ 63) }
  | none => s

/-- An operation is answered with a status and, for a JOIN, a value (R65, R317, R320, R367, R387). -/
def State.answer (s : State) (op : NameOp) (status : Nat) (value : W32) : State :=
  match op.src with
  | .group tid =>
    match op.kind with
    | .join r =>
      (if status = 0 then s
       else s.modThread tid fun g => { g with nerr := if g.nerr = 0 then status else g.nerr }).send
        (.joinValue ⟨tid, op.arms⟩ r (if status = 0 then value else 0))
    | _ => s.send (.ack ⟨tid, op.arms⟩ status (some (op.target, op.path.isDirect)))
  | .port _ => s.complWord op.compl value.toNat status
  | .device die =>
    if status = 0 then s
    else if die = 255 then s.logEvent 2 255 op.region
    else s.servicerLost die

/-- The reply of a joiner record (R61). -/
def State.serveJoiner (s : State) (value : W32) : Joiner → State
  | .group _ w r => s.send (.joinValue w r value)
  | .host _ compl => s.complWord compl value.toNat 0

/-- A name becomes DEAD with a value, its joiners served and their records returned (R61). -/
def State.dieName (s : State) (name : Nat) (v : W32) : State :=
  let e := s.nameEntry name
  let s1 := s.setName { e with state := .dead, exitval := v, loc := 0, pending := 0, joiners := [] }
  e.joiners.foldl (fun s j => s.serveJoiner v j) (s1.freeJoiners (e.joiners.map Joiner.record))

/-! ### Name ports: commands sent (R57, R64, R65, R354) -/

/-- A bound name port. -/
def State.port (s : State) (p : Nat) : Option NamePort := s.ports.find? fun x => x.id == p

/-- A change of a name port. -/
def State.modPort (s : State) (p : Nat) (f : NamePort → NamePort) : State :=
  { s with ports := s.ports.map fun x => if x.id = p then f x else x }

/-- A write that the port accepts: a command leaves for its target, a bad one is completed BADOP with no other
effect, a write that is no command is counted (R64, R65). -/
def State.portSend (s : State) (p : NamePort) : Option PortCmd → State
  | none => s.modPort p.id fun x => { x with errors := x.errors + 1 }
  | some c =>
    if c.bad then s.complWord c.compl 0 4
    else
      (s.modPort p.id fun x => { x with outstanding := x.outstanding + 1 }).send
        (.nameOp ⟨.port p.id, ⟨false, false⟩, p.region, c.target, c.kind, s.subtreeCheck p.region c.target,
          c.compl, (0, 0), .home⟩)

/-- The writes that flow control holds back are accepted in order while fewer than 64 commands are on their
way (R354). -/
def State.portDrain (p : Nat) : Nat → State → State
  | 0, s => s
  | k + 1, s =>
    match s.port p with
    | some x =>
      match x.writes with
      | [] => s
      | c :: rest =>
        if 64 ≤ x.outstanding then s
        else State.portDrain p k ((s.modPort p fun y => { y with writes := rest }).portSend x c)
    | none => s

/-- A host's write reaches a port, behind those that it holds back (R353, R354). -/
def State.portAccept (s : State) (p : NamePort) (c : Option PortCmd) : State :=
  State.portDrain p.id (p.writes.length + 1) (s.modPort p.id fun x => { x with writes := x.writes ++ [c] })

/-- A command of a port has reached its delivery point (R354). -/
def State.portDone (s : State) (p : Nat) : State :=
  let s1 := s.modPort p fun x => { x with outstanding := x.outstanding - 1 }
  match s.port p with
  | some x => State.portDrain p x.writes.length s1
  | none => s1

/-! ### Delivery (R57 to R63) -/

/-- The operation is already queued: a port's command leaves the port at its delivery point. -/
def State.reachedPoint (s : State) (op : NameOp) : State :=
  match op.src with
  | .port p => s.portDone p
  | _ => s

/-- The arm of a group whose wait of a kind began first, among those that satisfy a test (R318). -/
def Group.firstWaiter (g : Group) (p : Arm → Bool) : Option Bool :=
  let a := g.armA.occ && p g.armA
  let b := g.armB.occ && p g.armB
  if a && b then some (g.armB.since.toNat < g.armA.since.toNat)
  else if a then some false else if b then some true else none

/-- A wake at a resident group (R14, R58, R318). -/
def Group.wake (g : Group) : Group :=
  match g.firstWaiter fun a => a.ws == .sleep with
  | some b => g.mapArm b Arm.resume
  | none => { g with wakePend := true }

/-- A SIGW whose mask meets the pending bits completes, the one that began first (R318, R321). -/
def Group.serveSignal (g : Group) : Group :=
  match g.firstWaiter fun a => a.ws == .sigw && g.sigPend &&& a.waux != 0 with
  | some b => (g.takeSignals (.ofS b (g.arm b).wreg) (g.arm b).waux).mapArm b Arm.resume
  | none => g

/-- The bit of a signal number. -/
def sigBit (n : Nat) : W32 := w32 (2 ^ n)

/-- A deposit into a mailbox register (R58, R59). -/
def Group.deposit (g : Group) (m : Nat) (v : W32) : Group := g.put32 (.s (32 + m)) v

/-- The host of a name port can be reached (R398). -/
def State.hostUp (s : State) (port : Nat) : Bool :=
  match s.ports.find? fun x => x.id == port with
  | some x => s.trayUp x.host
  | none => false

/-- The doorbell record of an operation (R63). -/
def doorbell (op : NameOp) (token : Nat) : List Byte :=
  let (code, mailbox, value) : Nat × Nat × Nat := match op.kind with
    | .sig n => (2, n, 0)
    | .depo m v => (3, m, v.toNat)
    | _ => (1, 0, 0)
  let source := match op.src with
    | .group tid => tid
    | _ => 0
  leBytes 1 code ++ leBytes 1 mailbox ++ leBytes 2 0 ++ leBytes 4 value ++ leBytes 8 source
    ++ leBytes 4 token ++ leBytes 12 0

/-- A joiner at the end of a name's list, linked behind the others (R61). -/
def State.addJoiner (s : State) (e : NameEntry) (j : Joiner) : State :=
  (s.setName { e with joiners := e.joiners ++ [j] }).linkJoiners ((e.joiners ++ [j]).map Joiner.record)

/-- A joiner record appended, or NOROOM (R58, R61, R320); a host's record names nobody (log 43). -/
def State.appendJoiner (s : State) (op : NameOp) (e : NameEntry) : State :=
  if s.joinerFree = 0 then s.answer op 5 0
  else
    match op.kind, op.src with
    | .join r, .group tid =>
      let w : Who := ⟨tid, op.arms⟩
      (s.takeJoiner tid (replyWord w r)).addJoiner e (.group s.nextJoiner w r)
    | _, _ => (s.takeJoiner 0 (op.compl.getD 0)).addJoiner e (.host s.nextJoiner op.compl)

/-- An operation to a HOST name is forwarded to its doorbell (R63, R398). -/
def State.forward (s : State) (op : NameOp) (e : NameEntry) : State :=
  if s.hostUp e.port then
    { s with hostMem := s.hostMem.putBytes e.loc (doorbell op e.pending.toNat) }.answer op 0 0
  else s.answer op 1 0

/-- The group to which an entry leads: that of its slot where it is RESIDENT, that of its save record where it is SAVED
(R51, R406). -/
def State.leadsTo (s : State) (e : NameEntry) : Option Nat :=
  (s.threads.find? fun g => g.seq.isNone && (match e.state with
    | .resident => g.resident && g.loc.loc == e.loc
    | .saved => !g.resident && g.saveRec == e.loc
    | _ => g.tid == e.name)).map (·.tid)

/-- The header of a save record of no group takes a wake or a deposit (R45, R58, R406). -/
def State.recordTakes (s : State) (a : Nat) : NKind → State
  | .wake => s.pokeN (a + 2) 2 (s.mem.rd (a + 2) 2 ||| 4)
  | .depo m v =>
    (s.pokeN (a + 0x60 + 4 * (32 + m)) 4 v.toNat).pokeN (a + 0x124) 2 (s.mem.rd (a + 0x124) 2 ||| 2 ^ m)
  | _ => s

/-- WAKE, SIG or DEPO at a resident group (R58). -/
def Group.receive (g : Group) : NKind → Group
  | .wake => g.wake
  | .sig n => { g with sigPend := g.sigPend ||| sigBit n }.serveSignal
  | .depo m v => g.deposit m v
  | _ => g

/-- WAKE or DEPO at a saved group (R58). -/
def Group.receiveSaved (g : Group) : NKind → Group
  | .wake => { g with wakePend := true }
  | .depo m v => g.deposit m v
  | _ => g

/-- An operation that passes R55 takes effect by the target's state (R58), at the slot or the record to which its entry
leads (R406). NGRANT and NREVOKE at a DEAD target answer DEAD (R428, table "Names, tasks, skeins and watches"). -/
def State.effect (s : State) (op : NameOp) (e : NameEntry) : State :=
  match op.kind with
  | .hexit v => (s.dieName op.target v).answer op 0 0
  | .join _ | .joinHost =>
    if e.state = .dead then s.answer op 0 e.exitval else s.appendJoiner op e
  | .ngrant w =>
    if e.state = .dead then s.answer op 1 0
    else (s.setName (e.withRights (bitsOf w.toNat 3 0) (bitAt w.toNat 4) (bitsOf w.toNat 31 16))).answer op 0 0
  | .nrevoke w =>
    if e.state = .dead then s.answer op 1 0
    else (s.setName (e.withRights (w32 e.rights &&& ~~~w).toNat e.all e.grantee)).answer op 0 0
  | k =>
    match e.state with
    | .dead => s.answer op 1 0
    | .host => s.forward op e
    | .saved =>
      let s1 := match k, s.leadsTo e with
        | .sig n, _ => s.setName { e with pending := e.pending ||| sigBit n }
        | k, some t => (s.modThread t fun g => g.receiveSaved k).syncRecord t
        | k, none => s.recordTakes e.loc k
      s1.answer op 0 0
    | _ =>
      (match s.leadsTo e with
        | some t => s.modThread t fun g => g.receive k
        | none => s).answer op 0 0

/-- The operation passes its check at the delivery point: R55 or R56, and a HEXIT for a HOST name of its port
(R66). -/
def State.passes (s : State) (op : NameOp) (e : NameEntry) : Bool :=
  match op.kind with
  | .hexit _ => e.state == .host && op.src == .port e.port
  | _ => s.permitted op e

/-- The core of the group that sent an operation, while it is resident. -/
def State.sourceCore (s : State) (op : NameOp) : Option CoreLoc :=
  match op.src with
  | .group t => (s.thread t).bind fun g => if g.resident then some g.loc else none
  | _ => none

/-- The slot that a direct operation arrives at holds the target no more, or not with that GEN (R53, R54). -/
def State.astray (s : State) (op : NameOp) : Bool :=
  match op.path with
  | .direct gen loc =>
    !(s.threads.any fun g => g.tid == op.target && g.seq.isNone && g.resident && !g.migrating && g.loc.loc == loc)
      || (s.nameEntry op.target).gen != gen
  | _ => false

/-- The name home has served an operation of a group to a RESIDENT target: the source's NTLB holds the translation now
(R54, log 52). -/
def State.learn (s : State) (op : NameOp) (e : NameEntry) : State :=
  match s.sourceCore op, op.path, e.state with
  | some l, .home, .resident | some l, .forwarded, .resident => s.ntlbFill l e
  | _, _, _ => s

/-- An operation at its delivery point: NONAME, RIGHTS, held, or its effect (R55, R58, R62, R399). The spec
lists WAKE, SIG, DEPO and JOIN as held for a MIGRATING target; NGRANT and NREVOKE are held too (DESIGN CHOICE,
log 47). -/
def State.deliverName (s : State) (op : NameOp) : State :=
  let e := s.nameEntry op.target
  let done := s.reachedPoint op
  if e.damaged then (done.logEvent 8 255 (s.entryAt op.target)).answer op 3 0
  else if e.state = .free then
    match op.kind with
    | .hexit _ => done.answer op 2 0
    | _ => done.answer op 3 0
  else if !s.passes op e then done.answer op 2 0
  else if e.state = .migrating then { s with hold := s.hold ++ [op] }
  else (done.learn op e).effect op e

/-- A held operation, which passed its check when it came, takes its effect; one whose entry is damaged completes NONAME
(R56, R62, R399). -/
def State.releaseOne (s : State) (op : NameOp) : State :=
  let e := s.nameEntry op.target
  let done := s.reachedPoint op
  if e.damaged then (done.logEvent 8 255 (s.entryAt op.target)).answer op 3 0 else (done.learn op e).effect op e

/-- Held operations for a name take effect in order when its new state is published (R62). -/
def State.release (s : State) (name : Nat) : State :=
  (s.hold.filter fun op => op.target == name).foldl State.releaseOne
    { s with hold := s.hold.filter fun op => !(op.target == name) }

/-- The hold buffer refuses the operation for now (R62). -/
def State.refused (s : State) (op : NameOp) : Bool :=
  let e := s.nameEntry op.target
  e.state == .migrating && !e.damaged && s.passes op e && decide (1024 ≤ s.hold.length)

/-- A request of a host's tray waits at a die: what its process commands later has not been seen before it
(R103, R105). -/
def State.trayHeld (s : State) (tray : Nat) : Bool :=
  let of_ (r : HostReq) : Bool :=
    let l := s.link (keyPort r.key)
    r.key / 2 ^ 32 < 24 && l.peer.isNone && l.host == tray
  (s.mdies.any fun d => d.held.any fun h => match h with
    | .req r => of_ r
    | .arm _ _ => false) || s.dies.any fun d => d.latch.any of_

/-- The operation can reach its delivery point now (R62, R103). -/
def State.nameReady (s : State) (op : NameOp) : Bool :=
  !s.refused op && (match op.src with
    | .port p =>
      match s.port p with
      | some x => !s.trayHeld x.host
      | none => true
    | _ => true)

/-- The first name operation in flight of a kind that no earlier one of its source and target precedes
(R57, R62), with the rest of the list. -/
def State.nextName (s : State) (p : NKind → Bool) :
    List (NSrc × Nat) → List Flight → Option (NameOp × List Flight)
  | _, [] => none
  | seen, f :: rest =>
    match f with
    | .nameOp op =>
      if p op.kind && !seen.contains (op.src, op.target) && s.nameReady op then some (op, rest)
      else (s.nextName p ((op.src, op.target) :: seen) rest).map fun (x, l) => (x, f :: l)
    | _ => (s.nextName p seen rest).map fun (x, l) => (x, f :: l)

/-- The target's core passes an operation on to the name home, in its place among those of its source; the source drops
the translation (R54, log 52). -/
def State.forwardName (s : State) (op : NameOp) : State :=
  let s1 := match s.sourceCore op with
    | some l => s.ntlbDrop l op.target
    | none => s
  { s1 with flight := s1.flight.map fun f => if f = .nameOp op then .nameOp { op with path := .forwarded } else f }

/-- The delivery of the next operation of a kind. -/
def State.deliverNext (s : State) (p : NKind → Bool) : State :=
  match s.nextName p [] s.flight with
  | some (op, rest) => if s.astray op then s.forwardName op else { s with flight := rest }.deliverName op
  | none => s

/-- WAKE_DELIVERY (R58). -/
def execWakeDelivery (s : State) : Host.Outcome State Fault Refusal :=
  .next (s.deliverNext fun k => match k with
    | .wake => true
    | _ => false)

/-- SIG_DELIVERY (R58). -/
def execSigDelivery (s : State) : Host.Outcome State Fault Refusal :=
  .next (s.deliverNext fun k => match k with
    | .sig _ => true
    | _ => false)

/-- DEPO_DELIVERY (R58, R59). -/
def execDepoDelivery (s : State) : Host.Outcome State Fault Refusal :=
  .next (s.deliverNext fun k => match k with
    | .depo _ _ => true
    | _ => false)

/-- JOIN_DELIVERY (R58, R61, R320). -/
def execJoinDelivery (s : State) : Host.Outcome State Fault Refusal :=
  .next (s.deliverNext fun k => match k with
    | .join _ | .joinHost => true
    | _ => false)

/-- NGRANT_DELIVERY (R56, R319). -/
def execNgrantDelivery (s : State) : Host.Outcome State Fault Refusal :=
  .next (s.deliverNext fun k => match k with
    | .ngrant _ => true
    | _ => false)

/-- NREVOKE_DELIVERY (R56, R319). -/
def execNrevokeDelivery (s : State) : Host.Outcome State Fault Refusal :=
  .next (s.deliverNext fun k => match k with
    | .nrevoke _ => true
    | _ => false)

/-- POSTED_OP_ACK: NOUT falls and NERR keeps the first status (R317). -/
def execPostedOpAck (s : State) : Host.Outcome State Fault Refusal :=
  .next (s.complete (fun f => match f with
      | .ack w st _ => some (w.tid, st)
      | _ => none)
    fun s (tid, st) => (s.modThread tid fun g => g.ackOne st).syncRecord tid)

/-- JOIN_VALUE_ARRIVAL: the value fills the destination, or the save record's (R320). -/
def execJoinValueArrival (s : State) : Host.Outcome State Fault Refusal :=
  .next (s.complete (fun f => match f with
      | .joinValue w r x => some (w.tid, r, x)
      | _ => none)
    fun s (tid, r, x) => (s.fills tid [.word r x]).syncRecord tid)

/-! ### Name ports (R64 to R66, R353, R354) -/

/-- A command record at a port: what its fields ask, where its word goes, whether it gives BADOP (R64, R65). -/
def State.portCommand (s : State) (port : Nat) (bad : Bool) (flags compl target : Nat) (k : NKind) : State :=
  match s.port port with
  | some p =>
    s.portAccept p (some ⟨k, target, if bitAt flags 0 then none else some compl,
      bad || flags / 2 % 2 ^ 15 != 0⟩)
  | none => s

/-- NAME_PORT_WAKE: payload port, MAILBOX, FLAGS, TARGET, COMPL, reserved field. -/
def execNamePortWake (s : State) : Host.Outcome State Fault Refusal :=
  .next (s.portCommand (s.arg 0) (s.arg 1 != 0 || s.arg 5 != 0) (s.arg 2) (s.arg 4) (s.arg 3) .wake)

/-- NAME_PORT_SIG: payload as NAME_PORT_WAKE. -/
def execNamePortSig (s : State) : Host.Outcome State Fault Refusal :=
  .next (s.portCommand (s.arg 0) (decide (31 < s.arg 1) || s.arg 5 != 0) (s.arg 2) (s.arg 4) (s.arg 3)
    (.sig (s.arg 1)))

/-- NAME_PORT_DEPO: payload port, MAILBOX, FLAGS, VALUE, TARGET, COMPL, reserved field. -/
def execNamePortDepo (s : State) : Host.Outcome State Fault Refusal :=
  .next (s.portCommand (s.arg 0) (decide (7 < s.arg 1) || s.arg 6 != 0) (s.arg 2) (s.arg 5) (s.arg 4)
    (.depo (s.arg 1) (w32 (s.arg 3))))

/-- NAME_PORT_JOIN: payload as NAME_PORT_WAKE. -/
def execNamePortJoin (s : State) : Host.Outcome State Fault Refusal :=
  .next (s.portCommand (s.arg 0) (s.arg 1 != 0 || s.arg 5 != 0) (s.arg 2) (s.arg 4) (s.arg 3) .joinHost)

/-- NAME_PORT_HEXIT: payload port, MAILBOX, FLAGS, VALUE, TARGET, COMPL, reserved field; with no payload, the
delivery of the next one (R57, R66). -/
def execNamePortHexit (s : State) : Host.Outcome State Fault Refusal :=
  .next (if s.ev = [] then
      s.deliverNext fun k => match k with
        | .hexit _ => true
        | _ => false
    else
      s.portCommand (s.arg 0) (s.arg 1 != 0 || s.arg 6 != 0) (s.arg 2) (s.arg 5) (s.arg 4)
        (.hexit (w32 (s.arg 3))))

/-- NAME_PORT_RESERVED_OP: BADOP; payload port, OP, FLAGS, COMPL (R65). -/
def execNamePortReservedOp (s : State) : Host.Outcome State Fault Refusal :=
  .next (s.portCommand (s.arg 0) true (s.arg 2) (s.arg 3) 0 .wake)

/-- NAME_PORT_DISCARDED_WRITE: counted in the port's error counter (R64). -/
def execNamePortDiscardedWrite (s : State) : Host.Outcome State Fault Refusal :=
  .next (match s.port (s.arg 0) with
    | some p => s.portAccept p none
    | none => s)

/-! ### The firmware name service (R49, R52, R53, R397 to R399) -/

/-- HOST_NAME_ALLOC: payload name, port, doorbell address, TOKEN (R51 to R53, R63, R399). -/
def execHostNameAlloc (s : State) : Host.Outcome State Fault Refusal :=
  .next (s.service 1 .hostNameAlloc fun s =>
    let e := s.nameEntry (s.arg 0)
    match s.port (s.arg 1) with
    | some p =>
      if e.state = .free ∧ !e.damaged ∧ nameSerial (s.arg 0) ≠ 0 ∧ s.arg 2 % 64 = 0 then
        s.setName { (NameEntry.free (s.arg 0)) with
          state := .host, loc := s.arg 2, gen := (e.gen + 1) % 2 ^ 16, owner := p.region
          pending := w32 (s.arg 3), port := p.id }
      else s
    | none => s)

/-- The entry leaves DEAD for FREE (R52). -/
def NameEntry.released (e : NameEntry) : NameEntry :=
  if e.state = .dead ∧ !e.damaged then { (NameEntry.free e.name) with gen := e.gen } else e

/-- Firmware releases a DEAD name: in the name home's cache, or in the tree (R52, R397). -/
def State.releaseName (s : State) (name : Nat) : State :=
  if s.names.any fun e => e.name == name then
    { s with names := s.names.map fun e => if e.name = name then e.released else e }
  else
    match s.nameAt name with
    | .at a =>
      let e := s.nameEntry name
      if e.state = .dead ∧ !e.damaged then s.putFields a (s.entryFields e.released) else s
    | _ => s

/-- NAME_RELEASE: the DEAD names of a launch or host; payload first name, count (R52, R397). -/
def execNameRelease (s : State) : Host.Outcome State Fault Refusal :=
  .next (s.service 2 .nameRelease fun s => (List.range (s.arg 1)).foldl (fun t i => t.releaseName (s.arg 0 + i)) s)

/-- A port is unbound: HEXIT with 0xFFFF_FFFF on every HOST name of it (R398). -/
def State.unbindPort (s : State) (p : Nat) : State :=
  let s1 := (s.names.filter fun e => e.state == .host && e.port == p).foldl
    (fun s e => s.dieName e.name 0xFFFFFFFF#32) s
  { s1 with ports := s1.ports.filter fun x => !(x.id == p) }

/-- PORT_UNBIND (R398). -/
def execPortUnbind (s : State) : Host.Outcome State Fault Refusal :=
  .next (s.service 3 .portUnbind fun s => s.unbindPort (s.arg 0))

/-- NAME_ENTRY_ERROR: the entry is damaged; a device event names it (R399). -/
def execNameEntryError (s : State) : Host.Outcome State Fault Refusal :=
  .next ((s.setName { s.nameEntry (s.arg 0) with damaged := true }).logEvent 8 255 (s.entryAt (s.arg 0)))

end Sys2Proof.Machine
end

