-- ==== Sys2Proof/Machine/Tasks.lean ====
section
/-!
DEFINITION. Launches from a group and stage queues: LAUNCH, TAKE, POST, QSTAT and the queues' events
(R33, R109, R316, R322 to R324).
-/

namespace Sys2Proof.Machine

/-- A stage queue. -/
def State.stageq (s : State) (q : Nat) : StageQ := s.stageqs.getD q ⟨[], none, []⟩

/-- A change of a stage queue. -/
def State.modStageq (s : State) (q : Nat) (f : StageQ → StageQ) : State :=
  { s with stageqs := modAt f q s.stageqs }

/-- Entries of a core's pending-launch queue (R109). -/
def State.plqOf (s : State) (core : Nat) : List Plq := s.plq.filter fun x => x.core == core

/-- The error of a place read as data, as a pending MCHECK (R391). -/
def State.placeErr (s : State) (addr : W64) (p : Place) : Option MCheck :=
  match s.readErr p with
  | some d => some ⟨s.cur.sel, addr, 0, d, s.clock⟩
  | none => none

/-- LAUNCH: the record is copied into the core's pending-launch queue; a full queue stalls (R109, R322). -/
def execLaunch (a : Nat) (ea _eb : Bool) (s : State) : Host.Outcome State Fault Refusal :=
  issue 4 { srcs := s.cur.srcA ea a (s.cur.spregs a) }
    (fun s =>
      let x := s.cur.spval a
      match s.recordReach x with
      | .trap t => .trap s t
      | .frozen d => .stay (s.waitHome d)
      | .ok (hit :: _) [] =>
        let core := s.cur.loc.core
        if 4 ≤ (s.plqOf core).length then .stay s.stall
        else
          let s1 := s.touchAll true [hit]
          let s2 := { s1 with plq := s1.plq ++ [Plq.mk core s1.cur.who x (s1.readLaunch 1 0 hit.lo)] }
          s.met [hit] (.done (s2.pendMcheck s2.cur.tid (s1.placeErr x hit.lo)))
      | .ok _ absent => .park (s.park .store false absent)) s

/-- TAKE: the oldest item of the launch's queue, else the arm waits (R42, R323). -/
def execTake (d : Nat) (_ea _eb : Bool) (s : State) : Host.Outcome State Fault Refusal :=
  let rs := s.cur.sblock d 4
  issue 4 { dests := rs }
    (fun s =>
      let g := s.cur
      let q := g.info.stageq
      if g.me.replay then .done s
      else if !g.info.stage then .trap s (s.illegal 0x12)
      else
        match (s.stageq q).items with
        | item :: rest =>
          .done (((s.modStageq q fun x => { x with items := rest }).modCur fun g => g.awaiting rs).send
            (.takeItem g.who g.sel d item))
        | [] =>
          .stay (((s.modStageq q fun x => { x with waiting := x.waiting ++ [(g.tid, g.sel, d)] }).modCur
            fun g => g.awaiting rs).waitAs .take d 0)) s

/-- The group may POST to the queue (R323). -/
def State.mayPost (s : State) (q : Nat) : Bool :=
  match (s.stageq q).bound with
  | some (_, r) => s.inSubtree s.cur.region r
  | none => s.cur.privileged

/-- Items of a queue, with those on their way to it. -/
def State.queued (s : State) (q : Nat) : Nat :=
  (s.stageq q).items.length + (s.flight.filter fun f => match f with
    | .post _ x _ => x == q
    | _ => false).length

/-- POST (R316, R323). -/
def execPost (a b : Nat) (ea eb : Bool) (s : State) : Host.Outcome State Fault Refusal :=
  issue 4 { srcs := s.cur.srcA ea a (s.cur.sregs a) ++ s.cur.srcB eb b (s.cur.spregs b) }
    (fun s =>
      let q := (s.cur.sval a).toNat
      let x := s.cur.spval b
      if 255 < q then .trap s (s.illegal 0x13)
      else if x.toNat % 16 ≠ 0 then .trap s ⟨.misalign, 3, x, 0⟩
      else
        match s.checkLanes ⟨.load, true, 4, 4⟩ ((List.range 4).map fun i => (0, x + w64 (4 * i))) with
        | .trap t => .trap s t
        | .frozen d => .stay (s.waitHome d)
        | .ok hits [] =>
          if !s.mayPost q then .trap s ⟨.prot, 6, x, 0⟩
          else if 128 ≤ s.queued q then .stay s.stall
          else
            let s1 := s.touchAll false hits
            s.met hits (.done ((s1.send (.post s1.cur.who q (hits.map fun h => w32 (s1.laneVal h 4)))).pendMcheck
              s1.cur.tid (s1.laneErr 4 hits)))
        | .ok _ absent => .park (s.park .load false (absent.take 1))) s

/-- POST_ACCEPT: the item goes to the TAKE that has waited longest, or into the queue (R323). -/
def execPostAccept (s : State) : Host.Outcome State Fault Refusal :=
  .next (s.complete (fun f => match f with
      | .post _ q item => some (q, item)
      | _ => none)
    fun s (q, item) =>
      match (s.stageq q).waiting with
      | (tid, armB, d) :: rest =>
        (s.modStageq q fun x => { x with waiting := rest }).send (.takeItem ⟨tid, ⟨!armB, armB⟩⟩ armB d item)
      | [] => s.modStageq q fun x => { x with items := x.items ++ [item] })

/-- Fills of consecutive registers of an arm. -/
def blockFills (armB : Bool) : Nat → List W32 → List Fill
  | _, [] => []
  | n, x :: xs => .word (.ofS armB n) x :: blockFills armB (n + 1) xs

/-- TAKE_ITEM_DELIVERY: the four registers take the item, and an arm waiting at its TAKE goes on (R323). -/
def execTakeItemDelivery (s : State) : Host.Outcome State Fault Refusal :=
  .next (s.complete (fun f => match f with
      | .takeItem w armB d item => some (w.tid, armB, d, item)
      | _ => none)
    fun s (tid, armB, d, item) =>
      ((s.fills tid (blockFills armB d item)).modThread tid fun g =>
        g.mapArm armB fun a => if a.ws == .take && a.wreg == d then g.waitOver 4 a else a).syncRecord tid)

/-- QSTAT: not under DET (R32, R316, R324). -/
def execQstat (d a : Nat) (ea _eb : Bool) (s : State) : Host.Outcome State Fault Refusal :=
  issue 4 { timing := true, srcs := s.cur.srcA ea a (s.cur.sregs a), dests := [s.cur.pairAt d] }
    (fun s =>
      let q := (s.cur.sval a).toNat
      if 255 < q then .trap s (s.illegal 0x13)
      else
        let x := s.stageq q
        .done (s.modCur fun g => g.setS d
          (w32 (x.items.length + satTo 255 x.waiting.length * 256 + (if x.bound.isSome then 65536 else 0))))) s

end Sys2Proof.Machine
end

