-- ==== Sys2Proof/Machine/Matrix.lean ====
section
/-!
DEFINITION. Matrix instructions: requests and tile rows of groups (MREQ, TRD, TWR, TWM, TDRAIN, R302 to
R304), and the sequencer's walks, operator table and engine operations (R305 to R315).
-/

namespace Sys2Proof.Machine

/-! ### Shared checks -/

/-- A MATRIX trap: TINFO names the tile, walk slot or routine (R372). -/
def matrixTrap (detail n : Nat) : Trap := .plain .matrix detail (w32 (n % 256))

/-- A tile of a cluster. -/
def Cluster.tile (c : Cluster) (t : Nat) : Tile := c.tiles.getD t .reset

/-- A change of a tile of a cluster. -/
def State.modTile (s : State) (cl t : Nat) (f : Tile → Tile) : State :=
  s.modCluster cl fun c => { c with tiles := modAt f t c.tiles }

/-- The region may use the tile: it lies in the OWNER's subtree (R150). -/
def State.ownsTile (s : State) (region : Nat) (t : Tile) : Bool :=
  match t.owner with
  | some o => s.inSubtree region o
  | none => false

/-- Element c of row r of a tile. -/
def Tile.elem (t : Tile) (r c : Nat) : Nat := t.cells.rd ((r * 128 + c) * 4) 4

/-- Writing element c of row r. -/
def Tile.setElem (t : Tile) (r c x : Nat) : Tile := { t with cells := t.cells.wr ((r * 128 + c) * 4) 4 x }

/-- An arm's next TRD or TDRAIN of the tile is held by an earlier MREQ (R360). -/
def Group.heldBy (g : Group) (armB : Bool) (tile : Nat) : Bool :=
  (g.arm armB).holds.any fun h => h.cl == g.cluster && !g.full h.reg && !h.tiles.contains tile

/-- A TRD or TDRAIN that R360 holds does not issue: its arm waits for the tile. -/
def unheld (tile : Nat) (k : State → Host.Outcome State Fault Refusal) (s : State) :
    Host.Outcome State Fault Refusal :=
  if s.cur.heldBy s.cur.sel tile then .next (s.waitAs .held tile 0) else k s

/-! ### MREQ (R116, R120, R146, R302) -/

/-- The address of a routine-table entry (R146). -/
def State.routineAt (s : State) (cl n : Nat) : Nat := s.bases.rt + cl * 1024 + n * 16

/-- The routine is one that the region may request (R146). -/
def State.routineOk (s : State) (cl n region : Nat) : Bool :=
  decide (n < 64) && bitAt (s.mem.rd (s.routineAt cl n + 10) 1) 0
    && s.inSubtree region (s.mem.rd (s.routineAt cl n + 8) 2)

/-- The lowest index of the table that no entry has (log 20). -/
def Cluster.freeSlot (c : Cluster) : Nat := (lowestFree (c.resv.map (·.slot)) 16 0).getD 16

/-- The entry that an MREQ of the arm that has the turn writes, with a number of its own (R120, R147). -/
def State.request (s : State) (d n : Nat) (arg : W64) : Resv :=
  let g := s.cur
  ⟨s.fresh, g.who, .ofS g.sel d, n, arg, g.info.prio, s.clock, (s.cluster g.cluster).freeSlot, g.region, g.eff,
    g.rank, g.ngroups, g.launchId, g.nbidx, false⟩

/-- MREQ (R302). -/
def execMreq (d a b : Nat) (ea eb : Bool) (s : State) : Host.Outcome State Fault Refusal :=
  let g := s.cur
  issue 4 { srcs := g.srcA ea a (g.sregs a) ++ g.srcB eb b (g.spregs b), dests := [.ofS g.sel d] }
    (fun s =>
      let g := s.cur
      let n := (g.sval a).toNat
      let cl := g.cluster
      if !g.info.mtx then .trap s (matrixTrap 1 n)
      else if !s.routineOk cl n g.region then .trap s (matrixTrap 2 n)
      else if 16 ≤ (s.cluster cl).resv.length then .stay s.stall
      else
        let r := s.request d n (g.spval b)
        .done ((s.modCluster cl fun c => { c with resv := c.resv ++ [r] }).modCur fun g =>
          (g.awaiting [.ofS g.sel d]).mapMe fun a =>
            { a with holds := ⟨r.id, .ofS g.sel d, cl, []⟩ :: a.holds.filter fun h => !g.full h.reg }).tick) s

/-! ### Tile rows (R15, R152, R153, R303) -/

/-- The checks of TRD, TWR and TWM on the tile and the row (R303). -/
def State.rowTrap (s : State) (t r : Nat) : Option Trap :=
  let tile := (s.cluster s.cur.cluster).tile t
  if !s.ownsTile s.cur.region tile then some (matrixTrap 3 t)
  else if 128 ≤ r then some (matrixTrap 4 t)
  else none

/-- TRD: the row arrives once it lies below W (R15, R303, R360). -/
def execTrd (d a b : Nat) (_ea eb : Bool) (s : State) : Host.Outcome State Fault Refusal :=
  unheld a (fun s =>
    let g := s.cur
    issue 4
      { vs := [d, d + 1], srcs := g.srcB eb b (g.sregs b) ++ g.laneSrcs, dests := [.v d, .v (d + 1)] }
      (fun s =>
        let r := (s.cur.sval b).toNat
        match s.rowTrap a r with
        | some t => .trap s t
        | none =>
          s.leaveCore fun s => (s.modCur fun g => g.awaiting [.v d, .v (d + 1)]).send
            (.trd s.cur.who ⟨(s.cur.me.pc, s.ir), s.cur.sel, s.cur.cluster, a, r, d, s.cur.active⟩)) s) s

/-- The tag check of TWR and TWM (R303, R412). -/
def rowTag (g : Group) (t : Tile) : List Nat → Option Trap
  | [] => none
  | n :: ns =>
    let x := (g.vreg n).tag
    if x = t.tag ∨ x = 0 then rowTag g t ns else some (formatTrap 6 x 5)

/-- Element c of the row that two vector registers hold, if its lane takes part (R153). -/
def Group.rowElem (g : Group) (d c : Nat) : Option W32 :=
  let k := if c < 96 then c else c - 96
  if g.active.getLsbD k then some (g.lane (if c < 96 then d else d + 1) k) else none

/-- A row of a tile written by TWR or TWM: the elements that keep lets through (R153). -/
def Tile.writeRow (t : Tile) (g : Group) (d r : Nat) (keep : Nat → Bool) : Tile :=
  (List.range 128).foldl (fun t c =>
    match g.rowElem d c with
    | some x => if keep c then t.setElem r c x.toNat else t
    | none => t) t

/-- The effect of TWR and TWM (R152, R303). -/
def writeRowBody (d a b : Nat) (keep : Group → Nat → Bool) (s : State) : Eff :=
  let g := s.cur
  let r := (g.sval b).toNat
  match s.rowTrap a r with
  | some t => .trap s t
  | none =>
    let tile := (s.cluster g.cluster).tile a
    match rowTag g tile [d, d + 1] with
    | some t => .trap s t
    | none =>
      if tile.busy then .stay s.stall
      else .done (s.modTile g.cluster a fun t => t.writeRow g d r (keep g))

/-- TWR (R303). -/
def execTwr (d a b : Nat) (_ea eb : Bool) (s : State) : Host.Outcome State Fault Refusal :=
  let g := s.cur
  issue 4
    { vs := [d, d + 1], srcs := blocking [.v d, .v (d + 1)] ++ g.srcB eb b (g.sregs b) ++ g.laneSrcs }
    (writeRowBody d a b fun _ _ => true) s

/-- TWM: element c only where bit c mod 32 of s(52 + c div 32) is set (R303). -/
def execTwm (d a b : Nat) (_ea eb : Bool) (s : State) : Host.Outcome State Fault Refusal :=
  let g := s.cur
  issue 4
    { vs := [d, d + 1]
      srcs := blocking [.v d, .v (d + 1)] ++ g.srcB eb b (g.sregs b) ++ blocking (g.sblock 52 4)
        ++ g.laneSrcs }
    (writeRowBody d a b fun g c => bitAt (g.val32 (.b g.sel (52 + c / 32))).toNat (c % 32)) s

/-! ### TDRAIN (R166, R304) -/

/-- An array of 128 FP32 words, or its default when the address is 0. -/
def State.drainArray (s : State) (addr dflt : Nat) (hits : List Hit) : List W32 :=
  if addr = 0 then List.replicate 128 (w32 dflt)
  else hits.map fun h => w32 (s.laneVal h 4)

/-- The addresses of an array of 128 words; none for address 0. -/
def drainAddrs (addr : Nat) : List (Nat × W64) :=
  if addr = 0 then [] else (List.range 128).map fun c => (0, w64 (addr + 4 * c))

/-- The addresses of the elements of rows below vr and columns below vc. -/
def drainDest (d pitch z vr vc : Nat) : List (Nat × W64) :=
  (List.range vr).flatMap fun r => (List.range vc).map fun c => (0, w64 (d + r * pitch + c * z))

/-- A list cut into parts of n. -/
def chunks {α : Type} (n : Nat) : Nat → List α → List (List α)
  | 0, _ => []
  | k + 1, l => l.take n :: chunks n k (l.drop n)

/-- The descriptor that TDRAIN read: its words by offset (R304). -/
structure DrainDesc where
  scale : Nat
  bias : Nat
  pitch : Nat
  otype : Nat
  act : Nat
  rest : Nat
  deriving DecidableEq, Repr

/-- The descriptor at a place. -/
def State.drainDesc (s : State) (p : Place) : DrainDesc where
  scale := s.loadAt p 8
  bias := s.loadAt (p.plus 8) 8
  pitch := s.loadAt (p.plus 0x10) 4
  otype := s.loadAt (p.plus 0x14) 1
  act := s.loadAt (p.plus 0x15) 1
  rest := s.loadAt (p.plus 0x16) 2 + s.loadAt (p.plus 0x18) 8

/-- TDRAIN once its checks have passed: the rows wait for W one by one, from the row that WAUX holds, which is 0
but where a save image's TDRAIN goes on (R166, R304). -/
def State.startDrain (s : State) (dest : Nat) (tile : Tile) (t : Nat) (x : DrainDesc) (sc bi : List Hit)
    (dst : List Hit) : Eff :=
  let row := s.cur.me.waux.toNat
  let d : Drain :=
    { cl := s.cur.cluster, tile := t, otype := x.otype, act := x.act, cols := tile.vc
      scales := s.drainArray x.scale 0x3F800000 sc
      biases := s.drainArray x.bias 0 bi
      dest := dest
      pitch := x.pitch
      rows := chunks tile.vc tile.vr (dst.map (·.lo))
      row := row }
  let s1 := s.pendMcheck s.cur.tid (s.laneErr 4 (sc ++ bi))
  if tile.vr ≤ row then .done s1
  else .stay ((s1.waitAs .tdrain t (w32 row)).modCur fun g => g.mapMe fun a => { a with drain := some d })

/-- The memory checks of TDRAIN: arrays, then destination; a page that is not present parks it whole. -/
def State.checkDrain (s : State) (dest : Nat) (tile : Tile) (t : Nat) (x : DrainDesc) : Eff :=
  let z := elemSize x.otype
  match s.checkLanes ⟨.load, true, 4, 4⟩ (drainAddrs x.scale) with
  | .trap t => .trap s t
  | .frozen d => .stay (s.waitHome d)
  | .ok sc as1 =>
    match s.checkLanes ⟨.load, true, 4, 4⟩ (drainAddrs x.bias) with
    | .trap t => .trap s t
    | .frozen d => .stay (s.waitHome d)
    | .ok bi as2 =>
      match s.checkLanes ⟨.store, true, z, z⟩ (drainDest dest x.pitch z tile.vr tile.vc) with
      | .trap t => .trap s t
      | .frozen d => .stay (s.waitHome d)
      | .ok dst as3 =>
        if !(as1 ++ as2 ++ as3).isEmpty then
          .park (s.park (if (as1 ++ as2).isEmpty then .store else .load) true (as1 ++ as2 ++ as3))
        else
          s.met (sc ++ bi ++ dst)
            ((((s.touchAll false sc).touchAll false bi).touchAll true dst).startDrain dest tile t x sc bi dst)

/-- The effect of TDRAIN (R304, R432); under a reserved OTYPE no element size is defined, and D and PITCH are not
checked. -/
def drainBody (d a b : Nat) (s : State) : Eff :=
  let g := s.cur
  let tile := (s.cluster g.cluster).tile a
  let dest := (g.spval d).toNat
  let addr := g.spval b
  match g.me.drain with
  | some x =>
    if x.rows.length ≤ x.row then .done (s.modCur fun g => g.mapMe fun a => { a with drain := none })
    else .stay (s.waitAs .tdrain a (w32 x.row))
  | none =>
    if !s.ownsTile g.region tile then .trap s (matrixTrap 3 a)
    else if !([1, 2, 6].contains tile.tag) then .trap s (matrixTrap 5 a)
    else if addr.toNat % 32 ≠ 0 then .trap s ⟨.misalign, 3, addr, 0⟩
    else
      match s.reach .load true 32 0 addr 32 with
      | .fail c n => .trap s (laneTrap c n 0 addr)
      | .frozen d => .stay (s.waitHome d)
      | .absent psize => .park (s.park .load true [(0, addr, psize)])
      | .hit p hi e =>
        match s.readErr p with
        | some n => .trap s ⟨.mcheck, n, addr, 0⟩
        | none =>
          let s1 := s.touchAll false [⟨0, p, hi, e, addr⟩]
          let x := s1.drainDesc p
          let z := elemSize x.otype
          let typed : Bool := x.otype != 0 && decide (x.otype ≤ 10)
          s.met [⟨0, p, hi, e, addr⟩]
            (if typed && (dest % z != 0 || x.pitch % z != 0) then .trap s ⟨.misalign, 4, w64 dest, 0⟩
             else if !typed ∨ x.rest ≠ 0 ∨ 2 < x.act then .trap s (s.illegal 16)
             else s1.checkDrain dest tile a x)

/-- TDRAIN (R304, R166, R360). -/
def execTdrain (d a b : Nat) (_ea eb : Bool) (s : State) : Host.Outcome State Fault Refusal :=
  let k (s : State) : Host.Outcome State Fault Refusal :=
    let g := s.cur
    issue 4
      { srcs := blocking (g.spregs d) ++ g.srcB eb b (g.spregs b) ++ Group.polSrc 0 }
      (drainBody d a b) s
  if s.cur.me.replay then k s else unheld a k s

/-! ### The operator table (R158, R159, R305) -/

/-- COMB, RED and TYPE of an entry word. -/
def entComb (e : Nat) : Nat := bitsOf e 2 0
/-- RED. -/
def entRed (e : Nat) : Nat := bitsOf e 5 3
/-- TYPE. -/
def entType (e : Nat) : Nat := bitsOf e 9 6
/-- SKIP. -/
def entSkip (e : Nat) : Bool := bitAt e 10

/-- The pairs of R159. -/
inductive Pair where
  | plusTimes | minPlus | maxPlus | maxTimes | minMax | orAnd
  deriving DecidableEq, Repr

/-- The pair of an entry word, by RED and COMB. -/
def entPair (e : Nat) : Option Pair :=
  match entRed e, entComb e with
  | 0, 0 => some .plusTimes
  | 1, 1 => some .minPlus
  | 2, 1 => some .maxPlus
  | 2, 0 => some .maxTimes
  | 1, 4 => some .minMax
  | 3, 2 => some .orAnd
  | _, _ => none

/-- The operand types of a pair (R159). -/
def Pair.types : Pair → List Nat
  | .plusTimes => [4, 6, 7, 8, 9, 10]
  | .orAnd => [0]
  | _ => [6, 7, 8]

/-- The pair of a word that is a row of R159 with its reserved bits zero (R305). -/
def legalPair (e : Nat) : Option Pair :=
  if e / 2048 ≠ 0 then none
  else
    match entPair e with
    | some p => if p.types.contains (entType e) then some p else none
    | none => none

/-- The accumulator's tag (R159). -/
def accTag (e : Nat) : Nat :=
  match entType e with
  | 4 => 1
  | 0 => 2
  | _ => 6

/-- A change of every cluster that the sequencer drives. -/
def State.modTargets (s : State) (cl : Nat) (f : Cluster → Cluster) : State :=
  ((s.cluster cl).targets cl).foldl (fun s j => s.modCluster j f) s

/-- SRDEF (R305). -/
def execSrdef (a b : Nat) (ea eb : Bool) (s : State) : Host.Outcome State Fault Refusal :=
  let g := s.cur
  issue 4 { seqOk := true, seqOnly := true, srcs := g.srcA ea a (g.sregs a) ++ g.srcB eb b (g.sregs b) }
    (fun s =>
      let n := (s.cur.sval a).toNat
      if n = 0 ∨ 15 < n then .trap s (matrixTrap 6 n)
      else if (legalPair (s.cur.sval b).toNat).isNone then .trap s (matrixTrap 7 n)
      else .done (s.modTargets s.cur.cluster fun c => { c with optable := c.optable.set n (s.cur.sval b) })) s

/-- VCNT (R312). -/
def execVcnt (a b : Nat) (ea eb : Bool) (s : State) : Host.Outcome State Fault Refusal :=
  let g := s.cur
  issue 4 { seqOk := true, seqOnly := true, srcs := g.srcA ea a (g.sregs a) ++ g.srcB eb b (g.sregs b) }
    (fun s =>
      let r := (s.cur.sval a).toNat
      let c := (s.cur.sval b).toNat
      if r = 0 ∨ 128 < r ∨ c = 0 ∨ 128 < c then .trap s (matrixTrap 0x0B 0)
      else .done (s.modTargets s.cur.cluster fun x => { x with vr := r, vc := c })) s

/-- SCALEB (R308). -/
def execScaleb (a b : Nat) (ea eb : Bool) (s : State) : Host.Outcome State Fault Refusal :=
  let g := s.cur
  issue 4 { seqOk := true, seqOnly := true, srcs := g.srcA ea a (g.spregs a) ++ g.srcB eb b (g.spregs b) }
    (fun s =>
      let x := s.cur.spval a
      let y := s.cur.spval b
      if x.toNat % 4 ≠ 0 then .trap s ⟨.misalign, 5, x, 0⟩
      else if y.toNat % 4 ≠ 0 then .trap s ⟨.misalign, 5, y, 0⟩
      else .done (s.modTargets s.cur.cluster fun c => { c with scaleA := x, scaleB := y, scaled := true })) s

/-! ### Walks (R306, R307) -/

/-- The walk has tiles not yet consumed. -/
def Walk.unconsumed (w : Walk) : Bool := decide (w.consumed < w.tiles)

/-- A consumed line of a walk with LASTUSE still waits for its discard (R101, R307). -/
def Walk.awaitsDiscard (w : Walk) : Bool := w.lastUse && !w.unconsumed && !w.lines.isEmpty

/-- A walk descriptor as read (R306). -/
structure WalkDesc where
  src : Nat
  flags : Nat
  et : Nat
  n : Nat
  klen : Nat
  ldim : Nat
  mn : Nat
  blkstep : Nat
  metaBase : Nat
  coords : List Nat
  rest : Nat
  deriving DecidableEq, Repr

/-- The descriptor at a place. -/
def State.walkDesc (s : State) (p : Place) : WalkDesc where
  src := s.loadAt p 8
  flags := s.loadAt (p.plus 8) 2
  et := s.loadAt (p.plus 0x0A) 1
  n := s.loadAt (p.plus 0x0B) 1
  klen := s.loadAt (p.plus 0x0C) 4
  ldim := s.loadAt (p.plus 0x10) 4
  mn := s.loadAt (p.plus 0x14) 2
  blkstep := s.loadAt (p.plus 0x18) 4
  metaBase := s.loadAt (p.plus 0x20) 8
  coords := (List.range 4).map fun i => s.loadAt (p.plus (0x28 + 4 * i)) 4
  rest := s.loadAt (p.plus 0x16) 2 + s.loadAt (p.plus 0x1C) 4 + s.loadAt (p.plus 0x38) 8

/-- The fields keep their limits; bound says that the cluster leads a CLUST (R306). -/
def WalkDesc.ok (d : WalkDesc) (bound : Bool) : Bool :=
  let roleB := bitAt d.flags 1
  let mcast := bitAt d.flags 2
  decide (d.flags < 16) && d.rest == 0 && (bound || !mcast)
    && [0, 4, 6, 7, 8, 9, 10].contains d.et && [0, 6, 8, 12].contains d.n && (d.n == 0 || roleB)
    && decide (32 ≤ d.klen) && decide (d.klen ≤ 65536)
    && d.klen % (if d.n ≠ 0 then 384 else if d.et = 9 ∨ d.et = 10 then 128 else 32) == 0
    && d.ldim % elemSize d.et == 0
    && decide (1 ≤ d.mn) && decide (d.mn ≤ if mcast && !roleB then 512 else 128)
    && (if d.n = 0 then d.metaBase == 0 else d.metaBase % 8 == 0)
    && (bitAt d.flags 0 || d.coords.all (· == 0))

/-- The walk that a descriptor describes, nothing fetched. -/
def WalkDesc.walk (d : WalkDesc) (tensor : Option TensorDesc) (places : List (Nat × Nat × Place)) :
    Walk where
  src := w64 d.src
  hnd := bitAt d.flags 0
  roleB := bitAt d.flags 1
  mcast := bitAt d.flags 2
  lastUse := bitAt d.flags 3
  ty := d.et
  nsp := d.n
  klen := d.klen
  ldim := d.ldim
  mn := d.mn
  blkstep := d.blkstep
  metaBase := d.metaBase
  coords := d.coords
  tensor := tensor
  places := places
  committed := false
  poisoned := bitAt d.flags 0 && tensor.isNone
  permits := 0
  data := []
  lines := []
  delivered := 0
  consumed := 0

/-- K-steps that a walk stores: kept ones of a sparse walk. -/
def Walk.steps (w : Walk) : Nat := if w.nsp = 0 then w.klen else w.klen * w.nsp / 24

/-- The spans that a walk reads: address and length, one for each element and metadata word. -/
def Walk.spans (w : Walk) (bound : Bool) : List (Nat × Nat) :=
  let os := (List.range (w.outer bound)).filter w.present
  let elems := os.flatMap fun o => (List.range w.steps).filterMap fun k =>
    (w.address o k).map fun a => (a, elemSize w.ty)
  let metas := if w.nsp = 0 then [] else
    os.flatMap fun o => (List.range (w.klen / 24)).map fun g => (w.metaAt g o, 8)
  elems ++ metas

/-- Every span of a walk checked and translated in order (R279, R306). -/
def State.walkPlaces (s : State) : List (Nat × Nat) → Checked
  | [] => .ok [] []
  | (a, n) :: rest =>
    match s.walkReach a n with
    | .fail c d => .trap (laneTrap c d 0 (w64 a))
    | .hit lo hi e =>
      match s.walkPlaces rest with
      | .ok hs as => .ok (⟨n, lo, hi, e, w64 a⟩ :: hs) as
      | r => r
    | .absent psize =>
      match s.walkPlaces rest with
      | .ok hs as => .ok hs ((0, w64 a, psize) :: as)
      | r => r
    | .frozen d =>
      match s.walkPlaces rest with
      | .trap t => .trap t
      | _ => .frozen d

/-- The tensor of a walk with HND, none where it is poisoned (R405); or what TWALK ends in when it cannot read
the descriptor (R392, R206). -/
def State.walkTensor (s : State) (d : WalkDesc) : Except Eff (Option TensorDesc) :=
  if !bitAt d.flags 0 then .ok none
  else
    match s.tensorOf d.src with
    | .tensor t => .ok (if t.inside d.coords then some t else none)
    | .bad _ => .ok none
    | .error n a => .error (.trap s ⟨.mcheck, n, w64 a, 0⟩)
    | .gated die => .error (.stay (s.waitHome (some die)))

/-- TWALK with its tensor: its places are resolved, and what the slot held before goes with its permits (R306,
R307). -/
def State.placeWalk (s : State) (cl n : Nat) (d : WalkDesc) (tensor : Option TensorDesc) : Eff :=
  let c := s.cluster cl
  let w := d.walk tensor []
  match s.walkPlaces (w.spans c.clustUsed) with
  | .trap t => .trap s t
  | .frozen d => .stay (s.waitHome d)
  | .ok hs as =>
    if !as.isEmpty then .park (s.park .load true as)
    else
      let s1 := s.touchAll false hs
      s.met hs (.done (s1.modCluster cl fun c =>
        { c with
          walks := c.walks.set n (some { w with places := hs.map fun h => (h.addr.toNat, h.lane, h.lo) })
          permq := c.permq.filter fun x => x.1 != n }))

/-- TWALK from its descriptor on (R279, R306, R314, R405). -/
def State.loadWalk (s0 : State) (cl n : Nat) (d : WalkDesc) : Eff :=
  let s := if bitAt d.flags 0 then s0.meetHandle d.src else s0
  let bound := (s.cluster cl).clustUsed
  if !d.ok bound then .trap s (matrixTrap 8 n)
  else if !bitAt d.flags 0 ∧ d.src % elemSize d.et ≠ 0 then .trap s ⟨.misalign, 1, w64 d.src, 0⟩
  else if !bitAt d.flags 0 ∧ bound ∧ bitAt d.flags 1 ∧ d.blkstep % elemSize d.et ≠ 0 then
    .trap s ⟨.misalign, 1, w64 (d.src + d.blkstep), 0⟩
  else
    match s.walkTensor d with
    | .error e => e
    | .ok tensor => s.placeWalk cl n d tensor

/-- TWALK (R306). -/
def execTwalk (a b : Nat) (ea eb : Bool) (s : State) : Host.Outcome State Fault Refusal :=
  let g := s.cur
  issue 4 { seqOk := true, seqOnly := true, srcs := g.srcA ea a (g.sregs a) ++ g.srcB eb b (g.spregs b) }
    (fun s =>
      let n := (s.cur.sval a).toNat
      let addr := s.cur.spval b
      let cl := s.cur.cluster
      let busy : Bool := match (s.cluster cl).walks.getD n none with
        | some w => w.unconsumed
        | none => false
      let uses : Bool := (s.cluster cl).engine.any fun e => e.op.uses n
      let discards : Bool := ((s.cluster cl).walks.getD n none).any Walk.awaitsDiscard
      if 8 ≤ n ∨ busy ∨ uses ∨ addr.toNat % 64 ≠ 0 then .trap s (matrixTrap 8 n)
      else if discards then .stay s.stall
      else
        match s.reach .load true 64 0 addr 64 with
        | .fail c d => .trap s (laneTrap c d 0 addr)
        | .frozen d => .stay (s.waitHome d)
        | .absent psize => .park (s.park .load false [(0, addr, psize)])
        | .hit p hi e =>
          match s.readErr p with
          | some d => .trap s ⟨.mcheck, d, addr, 0⟩
          | none =>
            s.met [⟨0, p, hi, e, addr⟩]
              ((s.touchAll false [⟨0, p, hi, e, addr⟩]).loadWalk cl n (s.walkDesc p))) s

/-- PERMITs that the queue between the sequencer and the walk engine holds (R121). -/
def permitQueue : Nat := 32

/-- Tiles that a walk slot is granted: taken and still in the queue. -/
def Cluster.granted (c : Cluster) (n : Nat) (w : Walk) : Nat :=
  w.permits + ((c.permq.filter fun x => x.1 == n).map (·.2)).sum

/-- PERMIT: into the queue, where the walk engine takes it; the sequencer stalls while the queue is full (R121,
R155, R307). -/
def execPermit (a b : Nat) (ea eb : Bool) (s : State) : Host.Outcome State Fault Refusal :=
  let g := s.cur
  issue 4 { seqOk := true, seqOnly := true, srcs := g.srcA ea a (g.sregs a) ++ g.srcB eb b (g.sregs b) }
    (fun s =>
      let n := (s.cur.sval a).toNat
      let k := (s.cur.sval b).toNat
      let cl := s.cur.cluster
      let c := s.cluster cl
      if 8 ≤ n ∨ k = 0 then .trap s (matrixTrap 9 n)
      else
        match c.walks.getD n none with
        | none => .trap s (matrixTrap 9 n)
        | some w =>
          if 65535 < c.granted n w + k then .trap s (matrixTrap 9 n)
          else if permitQueue ≤ c.permq.length then .stay s.stall
          else .done (s.modCluster cl fun c => { c with permq := c.permq ++ [(n, k)] })) s

/-! ### Engine operations (R309 to R311) -/

/-- The first tile of an operation. -/
def EngOp.tile : EngOp → Nat
  | .mma td _ _ _ _ _ => td
  | .fill td _ _ => td
  | .tload td _ _ => td
  | .tstore td _ _ _ => td

/-- The tag that an operation sets. -/
def EngOp.tag : EngOp → Option Nat
  | .fill _ t _ => some t
  | .tload _ t _ => some t
  | _ => none

/-- The clusters in which an operation acts (R314). -/
def Cluster.opClusters (c : Cluster) (cl : Nat) (op : EngOp) : List Nat :=
  match op with
  | .mma .. | .fill .. => c.targets cl
  | .tload .. | .tstore .. => [cl]

/-- The tag of a tile of cluster j as every operation that the sequencer of a cluster has issued before sets it
(R311, R314). -/
def State.tagAt (s : State) (cl j td : Nat) : Nat :=
  let c := s.cluster cl
  c.engine.foldl (fun t e =>
    if e.op.tile = td ∧ (c.opClusters cl e.op).contains j then e.op.tag.getD t else t) ((s.cluster j).tile td).tag

/-- Operations waiting to start (R309). -/
def Cluster.queued (c : Cluster) : Nat := (c.engine.filter fun e => !e.started).length

/-- An operation enters the engine's queue; the sequencer is not ready while it holds four (R309). -/
def State.enqueue (s : State) (cl : Nat) (op : EngOp) : Eff :=
  let c := s.cluster cl
  if 4 ≤ c.queued then .stay s.stall
  else
    let (vr, vc) := match op with
      | .tload .. => (128, 128)
      | _ => (c.vr, c.vc)
    .done (s.modCluster cl fun c =>
      { c with engine := c.engine ++ [⟨op, false, 0, vr, vc, s.cur.sat, s.cur.region, c.scaleA, c.scaleB, []⟩] })

/-- The MMA family. -/
inductive MmaKind where
  | mma | mmas | mmaq
  deriving DecidableEq, Repr

/-- A slot that holds a walk of the role, not committed (R307, R310). -/
def Cluster.offers (c : Cluster) (n : Nat) (roleB : Bool) : Option Walk :=
  match c.walk n with
  | some w => if n < 8 ∧ w.roleB = roleB ∧ !w.committed then some w else none
  | none => none

/-- The conditions of R310 other than the tag, with the number that a trap names. R314 lets a CLUST take an A walk
with MCAST only and gives no trap for one without: it runs, and feeds every cluster all the same (DESIGN CHOICE,
log 48). -/
def mmaOk (k : MmaKind) (c : Cluster) (e td na nb : Nat) : Except Nat (Walk × Walk) :=
  match c.offers na false with
  | none => .error na
  | some wa =>
    match c.offers nb true with
    | none => .error nb
    | some wb =>
      if (legalPair e).isNone ∨ wa.ty ≠ entType e ∨ wb.ty ≠ entType e ∨ wa.klen ≠ wb.klen then .error td
      else if k = .mmas ∧ (wb.nsp = 0 ∨ wa.nsp ≠ 0 ∨ !entSkip e) then .error td
      else if k ≠ .mmas ∧ wb.nsp ≠ 0 then .error nb
      else if k = .mmaq ∧ (legalPair e ≠ some .plusTimes ∨ (entType e ≠ 9 ∧ entType e ≠ 10) ∨ !c.scaled)
        then .error td
      else if c.clustUsed ∧ 12 < td then .error td
      else .ok (wa, wb)

/-- Both walks committed to an operation (R307). -/
def Cluster.commit (c : Cluster) (na : Nat) (wa : Walk) (nb : Nat) (wb : Walk) : Cluster :=
  let ws := c.walks.set na (some { wa with committed := true })
  { c with walks := ws.set nb (some { wb with committed := true }) }

/-- The first tile that an MMA-family operation writes, in any of its clusters, whose tag is not the
accumulator's (R159, R310, R314). -/
def State.wrongTag (s : State) (cl td tag : Nat) : Option Nat :=
  let c := s.cluster cl
  (c.mmaTiles td).find? fun t => (c.targets cl).any fun j => s.tagAt cl j t != tag

/-- MMA, MMAS and MMAQ (R309, R310). Under CLUST the leader's entry word applies in all six clusters, also where
a cluster's own entry of that number differs (DESIGN CHOICE, log 48). -/
def matrixMultiply (k : MmaKind) (d a b : Nat) (ea eb : Bool) (s : State) :
    Host.Outcome State Fault Refusal :=
  let g := s.cur
  issue 4 { seqOk := true, seqOnly := true, srcs := g.srcA ea a (g.sregs a) ++ g.srcB eb b (g.sregs b) }
    (fun s =>
      let g := s.cur
      let cl := g.cluster
      let c := s.cluster cl
      let na := (g.sval a).toNat
      let nb := (g.sval b).toNat
      let e := c.optable.getD (modeSridx g.me.mode) 0
      match mmaOk k c e.toNat d na nb with
      | .error n => .trap s (matrixTrap 0x0A n)
      | .ok (wa, wb) =>
        match s.wrongTag cl d (accTag e.toNat) with
        | some t => .trap s (matrixTrap 5 t)
        | none =>
          match s.enqueue cl (.mma d na nb g.me.pc.toNat e (k != .mma && c.scaled)) with
          | .done s1 => .done (s1.modCluster cl fun c => c.commit na wa nb wb)
          | r => r) s

/-- MMA. -/
def execMma (d a b : Nat) (ea eb : Bool) (s : State) : Host.Outcome State Fault Refusal :=
  matrixMultiply .mma d a b ea eb s

/-- MMAS. -/
def execMmas (d a b : Nat) (ea eb : Bool) (s : State) : Host.Outcome State Fault Refusal :=
  matrixMultiply .mmas d a b ea eb s

/-- MMAQ. -/
def execMmaq (d a b : Nat) (ea eb : Bool) (s : State) : Host.Outcome State Fault Refusal :=
  matrixMultiply .mmaq d a b ea eb s

/-- FORMAT TILEET at step 5 (R311, R429). -/
def tileEt (et : Nat) : Option Trap := if et < 11 then none else some (formatTrap 7 et 0)

/-- TZERO (R311). -/
def execTzero (d : Nat) (_ea _eb : Bool) (s : State) : Host.Outcome State Fault Refusal :=
  issue 4 { seqOk := true, seqOnly := true, mode := tileEt s.cur.et }
    (fun s => s.enqueue s.cur.cluster (.fill d s.cur.et 0)) s

/-- TFILL (R311). -/
def execTfill (d a : Nat) (ea _eb : Bool) (s : State) : Host.Outcome State Fault Refusal :=
  let g := s.cur
  issue 4
    { seqOk := true, seqOnly := true, mode := tileEt g.et, srcs := g.srcA ea a (g.sregs a) }
    (fun s => s.enqueue s.cur.cluster (.fill d s.cur.et (s.cur.sval a))) s

/-- The rows of a whole-tile move checked and translated: 128 rows of 512 bytes (R311). -/
def State.tileHits (s : State) (acc : Access) (addr pitch : Nat) : Checked :=
  s.copyHits acc (rowBlocks addr pitch 512 128)

/-- A whole-tile move that takes no part in copies' own aperture check: a sequencer's (R284). -/
def seqAperture (t : Trap) : Trap :=
  if t.cause = .aperture ∧ t.detail = 5 then { t with detail := 4 } else t

/-- The checks of TLOAD and TSTORE, and what follows (R311). -/
def tileMove (acc : Access) (a b : Nat) (k : State → List Hit → Eff) (s : State) : Eff :=
  let addr := (s.cur.spval a).toNat
  let pitch := (s.cur.sval b).toNat
  if addr % 4 ≠ 0 then .trap s ⟨.misalign, 4, w64 addr, 0⟩
  else if pitch % 4 ≠ 0 then .trap s ⟨.misalign, 4, w64 addr, 0⟩
  else
    match s.tileHits acc addr pitch with
    | .trap t => .trap s (seqAperture t)
    | .frozen d => .stay (s.waitHome d)
    | .ok hs as =>
      if !as.isEmpty then .park (s.park acc true as)
      else if 4 ≤ (s.cluster s.cur.cluster).queued then .stay s.stall
      else s.met hs (k (s.touchAll (acc == .store) hs) hs)

/-- The words at the blocks of a tile, in order, as a tile's bytes (R311). -/
def State.tileData (s : State) (ws : List (Hit × Place × W64)) : Memory :=
  (ws.foldl (fun (r : Memory × Nat) x => (r.1.wr r.2 4 (s.loadAt x.2.1 4), r.2 + 4)) (.empty, 0)).1

/-- The first error among the words that a TLOAD reads, with its address (R390, R392). -/
def State.tileErr (s : State) (ws : List (Hit × Place × W64)) : Option (W64 × Nat) :=
  ws.findSome? fun x => (s.copySource x.1 x.2.1).map fun d => (x.2.2, d)

/-- TLOAD: read at its place in program order (R100, R311). -/
def execTload (d a b : Nat) (ea eb : Bool) (s : State) : Host.Outcome State Fault Refusal :=
  let g := s.cur
  issue 4
    { seqOk := true, seqOnly := true, mode := tileEt g.et
      srcs := g.srcA ea a (g.spregs a) ++ g.srcB eb b (g.sregs b) }
    (tileMove .load a b fun s hs =>
      let ws := hitWords hs
      match s.tileErr ws with
      | some (a, d) => .trap s ⟨.mcheck, d, a, 0⟩
      | none => s.enqueue s.cur.cluster (.tload d s.cur.et (s.tileData ws))) s

/-- The blocks of each row: a block that begins 512 bytes of the row's own. -/
def rowsOf : Nat → Nat → List (Place × Nat) → List (Place × Nat) → List (List (Place × Nat))
  | 0, _, _, _ => []
  | _, _, acc, [] => if acc.isEmpty then [] else [acc]
  | k + 1, n, acc, x :: r =>
    if 512 ≤ n + x.2 then (acc ++ [x]) :: rowsOf k 0 [] r else rowsOf k (n + x.2) (acc ++ [x]) r

/-- TSTORE: destination ownership at issue (R99, R311). -/
def execTstore (d a b : Nat) (ea eb : Bool) (s : State) : Host.Outcome State Fault Refusal :=
  let g := s.cur
  issue 4
    { seqOk := true, seqOnly := true, srcs := g.srcA ea a (g.spregs a) ++ g.srcB eb b (g.sregs b) }
    (tileMove .store a b fun s hs =>
      s.enqueue s.cur.cluster (.tstore d (s.cur.spval a).toNat (s.cur.sval b).toNat (rowsOf 4096 0 [] (hs.map fun h => (h.lo, h.lane))))) s

/-! ### Waiting, signalling, binding (R313, R314) -/

/-- The engine has finished every operation of the routine, what it wrote is visible, and the walk engine has
taken every PERMIT (R313). -/
def State.engineIdle (s : State) (cl : Nat) : Bool :=
  (s.cluster cl).engine.isEmpty && (s.cluster cl).permq.isEmpty && !s.flight.any fun f => match f with
    | .store w _ => w.tid == seqTid cl
    | _ => false

/-- TSYNC (R313). -/
def execTsync (s : State) : Host.Outcome State Fault Refusal :=
  issue 4 { seqOk := true, seqOnly := true }
    (fun s => if s.engineIdle s.cur.cluster then .done s else .stay s.stall) s

/-- MSIG: TSYNC, then the token's value leaves for the requester; only the first of a run (R148, R313). -/
def execMsig (a : Nat) (ea _eb : Bool) (s : State) : Host.Outcome State Fault Refusal :=
  let g := s.cur
  issue 4 { seqOk := true, seqOnly := true, srcs := g.srcA ea a (g.sregs a) }
    (fun s =>
      let cl := s.cur.cluster
      let c := s.cluster cl
      if !s.engineIdle cl then .stay s.stall
      else if c.msigDone || !s.alive c.req.who.tid then .idle s
      else .done (((s.dropHold c.req.id c.req.who.tid).modCluster cl fun c => { c with msigDone := true }).send
        (.msig c.req.who c.req.reg cl (s.cur.sval a)))) s

/-- The core of member i of a group's neighbourhood: die, x, y (R34). -/
def Group.memberCore (g : Group) (i : Nat) : Nat × Nat × Nat :=
  let x := g.rectX + i % g.info.w
  let left := if g.halfOf g.nbidx.toNat = 0 then g.loc.die else (g.loc.die + 5) % 6
  ((left + x / 8) % 6, x % 8, g.loc.y + i / g.info.w - g.nbidx.toNat / g.info.w)

/-- The cluster of a core. -/
def clusterOf (c : Nat × Nat × Nat) : Nat := c.1 * 24 + c.2.2 / 2 * 4 + c.2.1 / 2

/-- The six clusters of a neighbourhood in the order of R165; none when R165's conditions fail. -/
def Group.sixClusters (g : Group) : Option (List Nat) :=
  let w := g.info.w
  let h := g.info.h
  let o := g.memberCore 0
  if g.info.nbh ∧ w * h = 24 ∧ w % 2 = 0 ∧ h % 2 = 0 ∧ o.2.1 % 2 = 0 ∧ o.2.2 % 2 = 0 then
    some ((List.range 24).map fun i => clusterOf (g.memberCore i)).eraseDups
  else none

/-- A group of the requester's neighbourhood: the requester, else the first that is left of it (R148, R165). -/
def State.neighbour (s : State) (r : Resv) : Option Group :=
  match s.thread r.who.tid with
  | some g => some g
  | none => s.threads.find? fun m => m.seq.isNone && m.info.nbh && m.launchId == r.launchId
      && m.tid + r.nbidx.toNat == r.who.tid + m.nbidx.toNat

/-- The binding entry of a leader in another cluster's table (R165, R314). -/
def bindEntry (leader : Nat) (r : Resv) (now : W64) (slot : Nat) : Resv :=
  { r with n := leader, arrival := now, slot := slot, bind := true }

/-- CLUST (R165, R314). A requester that is DEAD leaves its neighbourhood to the groups of it that live; with none of them
left the conditions of R165 fail, and CLUST takes its MATRIX trap (DESIGN CHOICE, log 48). -/
def execClust (s : State) : Host.Outcome State Fault Refusal :=
  issue 4 { seqOk := true, seqOnly := true }
    (fun s =>
      let cl := s.cur.cluster
      let c := s.cluster cl
      if c.clustUsed then .trap s (matrixTrap 0x0C 0)
      else if !c.bound.isEmpty then
        if c.bound.all (fun j => j == cl || (s.cluster j).leader == some cl)
        then .done (s.modCluster cl fun c => { c with clustUsed := true })
        else .stay s.stall
      else
        match (s.neighbour c.req).bind Group.sixClusters with
        | none => .trap s (matrixTrap 0x0C 0)
        | some js =>
          if js.head? ≠ some cl then .trap s (matrixTrap 0x0C 0)
          else
            let s1 := js.foldl (fun s j =>
              if j = cl then s
              else s.modCluster j fun x =>
                { x with resv := x.resv ++ [bindEntry cl c.req s.clock x.freeSlot] }) s
            .stay (s1.modCluster cl fun c => { c with bound := js }).stall) s

end Sys2Proof.Machine
end

