-- ==== Sys2Proof/Machine/Tokens.lean ====
section
/-!
DEFINITION. The hub's power token pool: the grants of clusters, and the limits of regions on groups, cores and
tokens (R26, R27, R115).
-/

namespace Sys2Proof.Machine

/-- The cluster is retired, or is to be (R423). -/
def Cluster.leaving (c : Cluster) : Bool := c.retired || c.retiring

/-- Resident groups of a region's subtree. -/
def State.subGroups (s : State) (r : Nat) : List Group :=
  s.threads.filter fun g => g.resident && g.seq.isNone && s.inSubtree g.region r

/-- The limits of a region and its ancestors as they stand (R26). -/
def State.capsNow (s : State) (region : Nat) : List Cap :=
  (s.chain region).map fun r => ⟨r, s.eff r .maxgroups, s.eff r .maxcores, s.eff r .tokshare⟩

/-- MAXGROUPS and MAXCORES hold after groups on the cores (R26). -/
def State.budgetOk (s : State) (caps : List Cap) (cores : List (Nat × Nat × Nat)) : Bool :=
  caps.all fun k =>
    let gs := s.subGroups k.region
    let used := (gs.map fun g => (g.loc.die, g.loc.x, g.loc.y)) ++ cores
    decide (gs.length + cores.length ≤ k.maxgroups) && decide (used.eraseDups.length ≤ k.maxcores)

/-- Power tokens held (R115). -/
def State.tokensHeld (s : State) : Nat := 15 * (s.clusters.filter (·.grant)).length

/-- Tokens of a share of TOKCAP, the whole for 65,535 (R115). -/
def State.tokensOf (s : State) (share : Nat) : Nat :=
  if share = 65535 then s.tokcap else share * s.tokcap / 65536

/-- A region's subtree uses a cluster's grant (R115). -/
def State.usesGrant (s : State) (r cl : Nat) : Bool :=
  let c := s.cluster cl
  c.grant && ((s.subGroups r).any (fun g => g.info.mtx && g.loc.cluster == cl)
    || c.resv.any (fun x => s.inSubtree x.region r) || (c.running && s.inSubtree c.req.region r))

/-- The clusters may be used together: the pool has a grant for each that has none, and with them the use of every
region stays within its limit (R26, R115). -/
def State.tokensOk (s : State) (caps : List Cap) (cls : List Nat) : Bool :=
  let ungranted := cls.eraseDups.filter fun cl => !(s.cluster cl).grant
  (ungranted.isEmpty || decide (s.tokensHeld + 15 * ungranted.length ≤ s.tokcap)) &&
    caps.all fun k =>
      let more := cls.eraseDups.filter fun cl => !s.usesGrant k.region cl
      decide (15 * ((List.range 144).filter (s.usesGrant k.region)).length + 15 * more.length ≤ s.tokensOf k.tokshare)

/-- The cluster's grant is taken for an MTX group, or for what a cluster record restores (R115). -/
def State.takeGrant (s : State) (mtx : Bool) (cl : Nat) : State :=
  if mtx then s.modCluster cl fun c => { c with grant := true } else s

/-- A cluster's grant returns once it has no MTX group, no routine and no reservation (R115). -/
def State.settleGrants (s : State) : State :=
  let used (cl : Nat) (c : Cluster) : Bool :=
    c.running || !c.resv.isEmpty || s.threads.any fun g =>
      g.resident && g.seq.isNone && g.info.mtx && g.loc.cluster == cl
  { s with clusters := s.clusters.zipIdx.map fun (c, cl) =>
      if c.grant && !used cl c then { c with grant := false } else c }

end Sys2Proof.Machine
end

