-- ==== Sys2Proof/Machine/Hub.lean ====
section
/-!
DEFINITION. The hub's intake and the dispatcher: submission queues, rejection, starting a launch and
placing its ranks (R18, R23 to R36, R106 to R115, R174, R187, R188, R376, R377, R410, R423).
-/

namespace Sys2Proof.Machine

/-! ### Submission (R106, R107, R110) -/

/-- One more in a queue's error counter, saturating (R106, R197). -/
def State.countErr (s : State) (q : Nat) : State :=
  let a := s.sqAt q + 0x14
  (s.storeDev a 4 (satTo (2 ^ 32 - 1) (s.mem.rd a 4 + 1))).handover

/-- The waiting list is full (R110). -/
def State.listFull (s : State) : Bool := decide (65536 ≤ s.waiting.length)

/-- One doorbell write read: the tail is accepted, or ignored and counted; there are 1,024 doorbells (R106, R107,
R197). -/
def State.readBell (s : State) (x : Nat × Nat) : State :=
  let (q, t) := x
  let size := s.qSize q
  let ahead (y : Nat) : Nat := (y + size - s.qHead q) % size
  if queueCount ≤ q then s
  else if t < size ∧ ahead (s.qTail q) ≤ ahead t then
    { s with queueTails := (q, t) :: s.queueTails.filter fun y => !(y.1 == q) }.handover
  else s.countErr q

/-- A host's request waits at a die: a doorbell written after it is not seen before it, nor a record behind that
doorbell read (R103, R105, R206). -/
def State.hostHeld (s : State) : Bool :=
  let of_ (r : HostReq) : Bool := r.key / 2 ^ 32 < 24 && (s.link (keyPort r.key)).peer.isNone
  (s.mdies.any fun d => d.held.any fun h => match h with
    | .req r => of_ r
    | .arm _ _ => false) || s.dies.any fun d => d.latch.any of_

/-- The hub reads the doorbell writes in order, none while the list is full or an earlier request of a host waits
(R103, R110). -/
def State.readBells (s : State) : State :=
  if s.listFull || s.hostHeld then s else s.doorbells.foldl State.readBell { s with doorbells := [] }

/-- SUBMISSION_DOORBELL: a host's write of a tail, or with no payload the hub reading on (R107, R110). -/
def execSubmissionDoorbell (s : State) : Host.Outcome State Fault Refusal :=
  .next (if s.ev.isEmpty then s.readBells
    else { s with doorbells := s.doorbells ++ [(s.arg 0, s.arg 1)] }.readBells)

/-- INTAKE_RECORD: one record read, HEAD advanced (R107, R110). -/
def execIntakeRecord (s : State) : Host.Outcome State Fault Refusal :=
  let q := s.arg 0
  let head := s.qHead q
  let size := s.qSize q
  .next (if queueCount ≤ q ∨ size = 0 ∨ head = s.qTail q ∨ s.listFull then s
    else
      let l := s.readLaunch 0 q (.dev (s.mem.rd (s.sqAt q) 8 + head * 64))
      let s1 := { s with queueTails := (q, s.qTail q) :: s.queueTails.filter fun x => !(x.1 == q) }
      ((s1.submit l).storeDev (s.sqAt q + 0x10) 4 ((head + 1) % size)).handover)

/-- The queue's oldest entry is held by fradb (R357). -/
def State.plqHeld (s : State) (x : Plq) : Bool :=
  s.fradb.intakeHold && (match s.thread x.who.tid with
    | some g => s.fradb.attached.contains g.region
    | none => false)

/-- PENDING_LAUNCH_DRAIN: the hub takes a core's oldest entry (R109, R110, R357). -/
def execPendingLaunchDrain (s : State) : Host.Outcome State Fault Refusal :=
  .next (match takeOut (fun x => x.core == s.arg 0) s.plq with
    | some (x, rest) => if s.listFull || s.plqHeld x then s else { s with plq := rest }.submit x.launch
    | none => s)

/-! ### Fields of a launch (R28, R29, R108) -/

/-- COR. -/
def Launch.cor (l : Launch) : Bool := bitAt l.flags 0
/-- NBH. -/
def Launch.nbh (l : Launch) : Bool := bitAt l.flags 1
/-- AFF. -/
def Launch.aff (l : Launch) : Bool := bitAt l.flags 2
/-- MTX. -/
def Launch.mtx (l : Launch) : Bool := bitAt l.flags 3
/-- STAGE. -/
def Launch.stage (l : Launch) : Bool := bitAt l.flags 5
/-- STAGEQ. -/
def Launch.stageq (l : Launch) : Nat := bitsOf l.flags 19 12
/-- Groups placed together: a neighbourhood, else one. -/
def Launch.unit (l : Launch) : Nat := if l.nbh then l.shapeW * l.shapeH else 1

/-- The greater of two numbers. -/
def maxN (a b : Nat) : Nat := if a < b then b else a
/-- The smaller of two numbers. -/
def minN (a b : Nat) : Nat := if a < b then a else b

/-- Priority of a launch (R29, R108). -/
def State.launchPrio (s : State) (l : Launch) : Nat :=
  let p := s.eff l.region .prio
  let p1 := if bitAt l.flags 11 then maxN (bitsOf l.flags 10 8) p else p
  if l.origin = 0 then maxN (s.mem.rd (s.sqAt l.queue + 0xE) 1 % 8) p1 else p1

/-! ### The cores a launch may use (R23, R36, R206, R423, R425) -/

/-- Clusters of a PLACESET that are not retired (R423). -/
def State.placeClusters (s : State) (placeset : Nat) : List Nat :=
  (List.range 144).filter fun cl => bitAt placeset cl && !(s.cluster cl).retired

/-- The compute die takes new work (R203, R206, R421, R425). -/
def State.dieOpen (s : State) (d : Nat) : Bool :=
  let x := s.die d
  x.power.req == 0 && x.power.state == 0 && !x.fenced && !x.excluded &&
    !(s.flight.any fun f => match f with
      | .wsload _ _ die _ _ _ => die == d || die == 15
      | _ => false)

/-- The cores of a cluster in row order (R7). -/
def coresOf (cl : Nat) : List (Nat × Nat × Nat) :=
  let x := 2 * (cl % 4)
  let y := 2 * (cl % 24 / 4)
  [(cl / 24, x, y), (cl / 24, x + 1, y), (cl / 24, x, y + 1), (cl / 24, x + 1, y + 1)]

/-- Groups on a core. -/
def State.onCore (s : State) (c : Nat × Nat × Nat) : List Group :=
  s.threads.filter fun g => g.resident && g.seq.isNone && (g.loc.die, g.loc.x, g.loc.y) == c

/-- A free slot of a core (R18). -/
def State.freeSlot (s : State) (c : Nat × Nat × Nat) : Option Nat :=
  lowestFree ((s.onCore c).map (·.loc.slot)) 16 0

/-- The core can take one more group of the sizes (R18). -/
def State.fits (s : State) (vregs spad : Nat) (c : Nat × Nat × Nat) : Bool :=
  let gs := s.onCore c
  decide (gs.length < 16) && decide ((gs.map (·.vregs)).sum * 384 + vregs * 384 ≤ 262144)
    && decide ((gs.map (·.spadKiB)).sum + spad ≤ 384)

/-- Starved launches whose PLACESET the core lies in keep it from groups of their priority or lower
(R112). -/
def State.starvedOff (s : State) (prio cl : Nat) : Bool :=
  s.waiting.any fun l => l.starved && decide (s.launchPrio l ≤ prio) && bitAt (s.eff l.region .placeset) cl

/-! ### What a placement asks for (R18, R26, R112, R114, R115) -/

/-- A placement: the cores it may use and what it takes there, the limits that hold for it, and whether its groups
are new. -/
structure Ask where
  placeset : Nat
  prio : Nat
  fresh : Bool
  mtx : Bool
  caps : List Cap
  vregs : Nat
  spad : Nat
  w : Nat
  h : Nat
  deriving DecidableEq, Repr

/-- The cluster of a core. -/
def coreCluster (c : Nat × Nat × Nat) : Nat := c.1 * 24 + c.2.2 / 2 * 4 + c.2.1 / 2

/-- A core on which the ask may place a group, room and budgets apart; a starved launch keeps new groups off its
cores (R112). -/
def State.coreOpen (s : State) (k : Ask) (c : Nat × Nat × Nat) : Bool :=
  let cl := coreCluster c
  bitAt k.placeset cl && !(s.cluster cl).leaving && s.dieOpen c.1 && !(k.fresh && s.starvedOff k.prio cl)

/-- Cores taken together keep the budgets, and those of a matrix group the tokens (R26, R115). -/
def State.coresOk (s : State) (k : Ask) (cs : List (Nat × Nat × Nat)) : Bool :=
  s.budgetOk k.caps cs && (!k.mtx || s.tokensOk k.caps (cs.map coreCluster))

/-- The use of tokens lies within every limit, as any placement asks (R26). -/
def State.askOk (s : State) (k : Ask) : Bool := s.tokensOk k.caps []

/-- A core that one group of the ask can take, but for the budgets. -/
def State.coreFree (s : State) (k : Ask) (c : Nat × Nat × Nat) : Bool :=
  s.coreOpen k c && s.fits k.vregs k.spad c

/-- The first of the cores with the fewest resident groups (R114). -/
def State.fewest (s : State) : List (Nat × Nat × Nat) → Option (Nat × Nat × Nat)
  | [] => none
  | c :: rest =>
    match s.fewest rest with
    | some d => if (s.onCore d).length < (s.onCore c).length then some d else some c
    | none => some c

/-- The core for an ordinary group, on one die when given (R114). -/
def State.ordinaryCore (s : State) (k : Ask) (die : Option Nat) : Option (Nat × Nat × Nat) :=
  if s.askOk k then
    s.fewest (((List.range 144).flatMap coresOf).filter fun c =>
      (match die with
        | some d => c.1 == d
        | none => true) && s.coreFree k c && s.coresOk k [c])
  else none

/-- The cores of a rectangle from its origin, in member order (R34, R114). -/
def rectangle (w h d x0 y0 : Nat) : List (Nat × Nat × Nat) :=
  (List.range (w * h)).map fun i =>
    let x := x0 + i % w
    if x < 8 then (d, x, y0 + i / w) else ((d + 1) % 6, x - 8, y0 + i / w)

/-- The origins in the order of R114. -/
def origins (w h : Nat) : List (Nat × Nat × Nat) :=
  (List.range 6).flatMap fun d => (List.range (13 - h)).flatMap fun y0 =>
    (List.range (minN 8 (17 - w))).map fun x0 => (d, x0, y0)

/-- The rectangle for a neighbourhood (R114). -/
def State.nbhCores (s : State) (k : Ask) : Option (List (Nat × Nat × Nat)) :=
  if s.askOk k then
    ((origins k.w k.h).map fun (d, x0, y0) => rectangle k.w k.h d x0 y0).find? fun cs =>
      cs.all (s.coreFree k) && s.coresOk k cs
  else none

/-! ### Rejection (R376, R377, R410) -/

/-- A field breaks R28 or R33. -/
def Launch.badLimit (l : Launch) : Bool :=
  l.entry % 4 != 0 || l.groups == 0 || decide (2 ^ 20 < l.groups) || decide (65535 < l.region)
    || (if l.nbh then
          l.shapeW == 0 || l.shapeH == 0 || decide (24 < l.shapeW * l.shapeH) || decide (12 < l.shapeH)
            || decide (16 < l.shapeW) || l.groups % (l.shapeW * l.shapeH) != 0 || l.aff
        else l.shapeW != 0 || l.shapeH != 0)
    || decide (l.vregs < 16) || decide (128 < l.vregs) || l.vregs % 16 != 0
    || l.lastLanes == 0 || decide (96 < l.lastLanes) || decide (384 < l.spad)

/-- R36 can never be satisfied: the capacity is judged on the effective values. -/
def State.corNever (s : State) (l : Launch) : Bool :=
  let q := if l.nbh then 1
    else minN 16 (minN (262144 / (l.vregs * 384)) (if l.spad = 0 then 16 else 384 / l.spad))
  let n := minN (s.eff l.region .maxcores) (4 * (s.placeClusters (s.eff l.region .placeset)).length)
  decide (9216 < l.groups) || decide (s.eff l.region .maxgroups < l.groups)
    || (l.nbh && decide (s.eff l.region .maxcores < l.unit)) || decide (n * q < l.groups)

/-- Code 5: no PLACESET, or no rectangle in it. -/
def State.noPlace (s : State) (l : Launch) : Bool :=
  let cls := s.placeClusters (s.eff l.region .placeset)
  cls.isEmpty || (l.nbh && (decide (s.eff l.region .maxcores < l.unit)
    || !((origins l.shapeW l.shapeH).any fun (d, x0, y0) =>
      (rectangle l.shapeW l.shapeH d x0 y0).all fun c => cls.contains (coreCluster c))))

/-- The lowest rejection code that holds; 0 none (R376). -/
def State.rejectCode (s : State) (l : Launch) : Nat :=
  if l.badLimit then 1
  else if s.brokenChain l.region ||
      (l.origin == 0 && !s.inSubtree l.region (s.mem.rd (s.sqAt l.queue + 0xC) 2)) then 2
  else if l.cor && s.corNever l then 3
  else if s.eff l.region .savesize < recordBytes l.vregs l.spad then 4
  else if s.noPlace l then 5
  else if l.mtx && (s.capsNow l.region).any (fun k => decide (s.tokensOf k.tokshare < 15)) then 6
  else if l.stage && (match (s.stageq l.stageq).bound with
      | some (_, r) => r != l.region
      | none => false) then 7
  else if !hNull l.carry.toNat && decide (2 ^ hE l.carry.toNat < l.groups)
      && (s.freeInPool l.region).isNone then 8
  else 0

/-- Records that a memory die holds for a watch (R190, R408). -/
def State.heldRecs (s : State) (wid die : Nat) : Nat :=
  match s.watches.find? fun w => w.wid == wid with
  | some w => (w.dies.getD die ⟨false, false, 0, 0, [], [], 0, 0, false⟩).held.length
  | none => 0

/-- LOC of a RUNAWAY record (R408, R410). -/
def runawayLoc (wid die code held : Nat) : Nat := wid + die * 2 ^ 16 + code * 2 ^ 24 + held % 2 ^ 32 * 2 ^ 32

/-- A rejected launch: CARRY dropped whole, FIRSTNAME written, the queue's counter; a cast-on launch is
reported as RUNAWAY (R377, R402, R410). -/
def State.reject (s : State) (l : Launch) (code : Nat) : State :=
  let s1 := s.dropQuiet l.region l.carry
  let s2 := match l.recAt with
    | some p => s1.storeAt (p.plus 0x38) 8 (code * 2 ^ 48)
    | none => s1
  if l.origin = 0 then s2.countErr l.queue
  else if l.origin = 3 then
    s2.regionFault (.plain .runaway l.region 0 0 (runawayLoc l.wid l.queue code (s2.heldRecs l.wid l.queue))) []
  else s2

/-! ### Areas handed out (R44, R70) -/

/-- The lowest address at or above a start that leaves room among the areas in use. -/
def firstFit (size : Nat) : Nat → Nat → List (Nat × Nat) → Nat
  | 0, a, _ => a
  | k + 1, a, used =>
    match used.find? fun (b, n) => decide (b < a + size) && decide (a < b + n) with
    | some (b, n) => firstFit size k (b + n) used
    | none => a

/-- Room for a save record in a save area (R44). -/
def State.saveRoom (s : State) (base size bytes : Nat) : Option Nat :=
  let used := (s.threads.filter fun g => g.seq.isNone).map fun g => (g.saveRec, recordBytes g.vregs g.spadKiB)
  let a := firstFit bytes used.length base used
  if a + bytes ≤ base + size then some a else none

/-- Bytes of a stack backing (R70). -/
def stackBytes : Nat := 1638400

/-- A stack backing that no group has (R70, log 20). -/
def State.stackRoom (s : State) : Nat :=
  let used := (s.threads.filter fun g => g.seq.isNone).map fun g => (g.stkB, stackBytes)
  firstFit stackBytes used.length s.bases.stackPool used

/-! ### Starting (R30, R112, R174) -/

/-- The last name of a run whose entry is not FREE, or cannot be read: in the name home's cache or in the tree
(R50, R54, R399). -/
def State.lastTaken (s : State) (first n : Nat) : Option Nat :=
  (List.range n).foldl (fun m k =>
    let e := s.nameEntry (first + k)
    if e.state != .free || e.damaged then some k else m) none

/-- The lowest run of n free serials from a serial on, past each run that holds a taken one. -/
def State.freeFrom (s : State) (space n : Nat) : Nat → Nat → Option Nat
  | 0, _ => none
  | fuel + 1, a =>
    if 2 ^ 48 < a + n then none
    else
      match s.lastTaken (space * 2 ^ 48 + a) n with
      | none => some a
      | some k => s.freeFrom space n fuel (a + k + 1)

/-- The lowest run of n free serials of a name space (R30, R49, log 20): each taken one is an entry cached or one
that memory holds, which bounds the search. -/
def State.freeSerials (s : State) (space n : Nat) : Option Nat :=
  s.freeFrom space n (s.names.length + s.mem.cells.length + 1) 1

/-- SHARE(h, lo, n) at rank lo + k (R174). -/
def shareOf : Nat → Nat → Nat → Nat → Nat
  | 0, h, _, _ => h
  | fuel + 1, h, n, k =>
    if n ≤ 1 then h
    else
      let h' := withE h (hE h - 1)
      let m := (n + 1) / 2
      if k < m then shareOf fuel h' m k else shareOf fuel h' (n - m) (k - m)

/-- The handle that is divided, an indirection when the weight does not suffice (R174). -/
def State.carrySplit (s : State) (l : Launch) : State × W64 :=
  if hNull l.carry.toNat then (s, w64 nullHandle)
  else if 2 ^ hE l.carry.toNat < l.groups then
    match s.freeInPool l.region with
    | some oid =>
      let s1 := s.allocSkein oid (hKind l.carry.toNat) l.region true l.carry 0
      (s1, s1.handleTo 62 true (hKind l.carry.toNat) oid)
    | none => (s, l.carry)
  else (s, l.carry)

/-- A name leaves FREE for MIGRATING with LOC zero (R30, R52, R53). -/
def State.allocName (s : State) (owner name : Nat) : State :=
  s.setName { (NameEntry.free name) with
    state := .migrating, gen := ((s.nameEntry name).gen + 1) % 2 ^ 16, owner := owner }

/-- A launch is started: names, FIRSTNAME, the carry divided, the stage queue bound (R30, R174, R323). -/
def State.startLaunch (s : State) (l : Launch) (serial : Nat) : State :=
  let first := s.eff l.region .nsbase * 2 ^ 48 + serial
  let s1 := (List.range l.groups).foldl (fun s k => s.allocName l.region (first + k)) s
  let s2 := match l.recAt with
    | some p => s1.storeAt (p.plus 0x38) 8 first
    | none => s1
  let (s3, c) := s2.carrySplit l
  let s4 := if l.stage then s3.modStageq l.stageq fun x => { x with bound := some (l.id, l.region) } else s3
  { s4 with
    waiting := s4.waiting.filter fun x => !(x.id == l.id)
    started := s4.started ++ [⟨l, first, 0, c, s.launchPrio l, s.effVals l.region (bitAt l.flags 4),
      s.capsNow l.region, s.eff l.region .savebase, s.eff l.region .savesize⟩] }

/-! ### Placing (R31, R33 to R35, R69, R113, R114, R188) -/

/-- SPWIN of a core (R69). -/
def spwinOf (l : CoreLoc) : W64 := 0xFF00000000000000#64 + w64 (l.core * 2 ^ 25)

/-- The scalar registers at launch (R30, R188). -/
def Started.regs (x : Started) (k member : Nat) : Vector W32 48 :=
  let l := x.launch
  let c := if hNull x.share.toNat then x.share else w64 (shareOf 21 x.share.toNat l.groups k)
  initialS [loW l.args, hiW l.args,
   if l.origin = 3 then w32 l.wid else w32 k,
   if l.origin = 3 then w32 l.words.length else w32 l.groups,
   loW c, hiW c, w32 member, w32 l.id]

/-- Lanes of a cast-on register: one value per word of the run (R188). -/
def castLanes (l : Launch) (f : WatchRec → W32) : VReg :=
  { VReg.zero with lanes := tab 96 fun i => match l.words[i]? with
      | some r => f r
      | none => 0 }

/-- The v registers at launch (R30, R188). -/
def Launch.vecs (l : Launch) : Vector VReg 128 :=
  if l.origin = 3 then
    tab 128 fun n =>
      if n = 0 then castLanes l fun r => w32 r.off
      else if n = 1 then castLanes l (·.new)
      else if n = 2 then castLanes l (·.firstOld)
      else if n = 3 then castLanes l fun r => w32 r.count
      else .zero
  else .replicate 128 .zero

/-- Lanes active at the start (R8, R31). -/
def Launch.startMask (l : Launch) (k : Nat) : Mask :=
  if k + 1 = l.groups then BitVec.ofNat 96 (2 ^ l.lastLanes - 1) else BitVec.allOnes 96

/-- What launch FLAGS fix for a group, beside its priority, its shape, its leader and its queue (R28). -/
def infoOf (flags prio w h lead : Nat) (hostq : Option Nat) : LaunchInfo where
  cor := bitAt flags 0
  nbh := bitAt flags 1
  aff := bitAt flags 2
  mtx := bitAt flags 3
  stage := bitAt flags 5
  stageq := bitsOf flags 19 12
  prio := prio
  w := w
  h := h
  lead := lead
  det := bitAt flags 4
  prioField := if bitAt flags 11 then some (bitsOf flags 10 8) else none
  hostq := hostq

/-- A group as placed (R8, R30, R31, R188). -/
def State.newGroup (s : State) (x : Started) (k lead : Nat) (loc : CoreLoc) (win : W64) (rec_ : Nat) : Group :=
  let l := x.launch
  let name := x.first + k
  let member := if l.nbh then k % l.unit else 0xFFFFFFFF
  { Group.idle with
    tid := name
    name := w64 name
    region := l.region
    rank := w32 k
    ngroups := w32 l.groups
    launchId := w32 l.id
    nbidx := w32 member
    vregs := l.vregs
    lastLanes := l.lastLanes
    spadKiB := l.spad
    info := infoOf l.flags x.prio l.shapeW l.shapeH lead (if l.origin = 0 then some l.queue else none)
    eff := x.eff
    loc := loc
    resident := true
    s := x.regs k member
    v := l.vecs
    stkB := s.stackRoom
    spwin := win
    saveRec := rec_
    armA := ({ Arm.free with occ := true, pc := w64 l.entry, since := s.clock } : Arm).setMask (l.startMask k) }

/-- The name's new location is published, held operations delivered (R52, R58, R62). -/
def State.publish (s : State) (name : Nat) (l : CoreLoc) : State :=
  (s.setName { s.nameEntry name with state := .resident, loc := l.loc, pending := 0 }).release name

/-- Rank k placed on a core with a slot and a save record; none when either lacks. -/
def State.placeOn (s : State) (x : Started) (k lead : Nat) (win : Option W64) (c : Nat × Nat × Nat) :
    Option State :=
  match s.freeSlot c, s.saveRoom x.saveBase x.saveSize (recordBytes x.launch.vregs x.launch.spad) with
  | some slot, some a =>
    let loc : CoreLoc := ⟨c.1, c.2.1, c.2.2, slot⟩
    let g := s.newGroup x k lead loc (win.getD (spwinOf loc)) a
    let s1 := s.takeGrant x.launch.mtx loc.cluster
    some ({ s1 with others := s1.others ++ [g] }.publish g.tid loc)
  | _, _ => none

/-- What the launch's placement asks for. -/
def Started.ask (x : Started) : Ask :=
  ⟨x.eff.placeset, x.prio, true, x.launch.mtx, x.caps, x.launch.vregs, x.launch.spad, x.launch.shapeW,
   x.launch.shapeH⟩

/-- The die that rank k's affinity page names; none places it as an ordinary group (R33). -/
def State.affDie (s : State) (x : Started) (k : Nat) : Option Nat :=
  let l := x.launch
  if !l.aff then none
  else
    match s.readable x.eff.troot ((l.affbase + k * l.affstride) % 2 ^ 64) with
    | some (.dev pa) => some (sectorOf pa)
    | _ => none

/-- The members of a neighbourhood placed on their cores. -/
def State.placeMembers (s : State) (x : Started) (first : Nat) (win : W64) :
    Nat → List (Nat × Nat × Nat) → Option State
  | _, [] => some s
  | i, c :: rest =>
    match s.placeOn x (first + i) (x.first + first) (some win) c with
    | some s1 => s1.placeMembers x first win (i + 1) rest
    | none => none

/-- The next rank, or neighbourhood, of a started launch placed; none when it cannot be. -/
def State.placeNext (s : State) (x : Started) : Option State :=
  let done (s : State) : State :=
    { s with started := s.started.map fun y =>
        if y.launch.id = x.launch.id then { y with next := y.next + x.launch.unit } else y }
  if x.launch.nbh then
    match s.nbhCores x.ask with
    | some (c :: cs) =>
      (s.placeMembers x x.next (spwinOf ⟨c.1, c.2.1, c.2.2, 0⟩) 0 (c :: cs)).map done
    | _ => none
  else
    match s.ordinaryCore x.ask (s.affDie x x.next) with
    | some c => (s.placeOn x x.next 0 none c).map done
    | none => none

/-- A started launch as it stands. -/
def State.startedOf (s : State) (id : Nat) : Option Started := s.started.find? fun x => x.launch.id == id

/-- Every rank of a started launch placed, with fuel; none when one cannot be (R36). -/
def State.placeAll (s : State) (id : Nat) : Nat → Option State
  | 0 => some s
  | fuel + 1 =>
    match s.startedOf id with
    | some x =>
      if x.launch.groups ≤ x.next then some s
      else
        match s.placeNext x with
        | some s1 => s1.placeAll id fuel
        | none => none
    | none => some s

/-- Launches in order of arrival at the hub, that of x among them (R113). -/
def insertByArrival (x : Started) : List Started → List Started
  | [] => [x]
  | y :: rest =>
    if x.launch.since.toNat < y.launch.since.toNat ∨
        (x.launch.since = y.launch.since ∧ x.launch.id < y.launch.id) then x :: y :: rest
    else y :: insertByArrival x rest

/-- Started launches with unplaced ranks, in the order in which they place them: by priority, then by arrival
(R113); none of a region that a pre-emption is saving (R52). -/
def State.unplaced (s : State) : List Started :=
  let xs := (s.started.filter fun x => decide (x.next < x.launch.groups) && !s.saving x.launch.region).foldl
    (fun l x => insertByArrival x l) []
  (List.range 8).flatMap fun p => xs.filter fun x => x.prio == p

/-- Ranks of launches of the same or a higher priority that arrived earlier can be placed, and go first (R113). -/
def State.placesFirst (s : State) (l : Launch) : Bool :=
  s.unplaced.any fun x => decide (x.prio ≤ s.launchPrio l) && decide (x.launch.since.toNat ≤ l.since.toNat)
    && (s.placeNext x).isSome

/-- A launch starts if all that R112 asks holds; a COR launch is placed whole with it (R36, R113). -/
def State.tryStart (s : State) (l : Launch) : Option State :=
  match s.freeSerials (s.eff l.region .nsbase) l.groups,
      s.saveRoom (s.eff l.region .savebase) (s.eff l.region .savesize) (recordBytes l.vregs l.spad) with
  | some serial, some _ =>
    if l.mtx && !((s.placeClusters (s.eff l.region .placeset)).any fun cl => s.tokensOk (s.capsNow l.region) [cl])
    then none
    else if l.cor then
      if s.placesFirst l || s.saving l.region then none
      else ((s.startLaunch l serial).placeAll l.id l.groups).map fun s =>
        { s with started := s.started.filter fun x => decide (x.next < x.launch.groups) }
    else some (s.startLaunch l serial)
  | _, _ => none

/-- Waiting launches in order of priority, then of arrival (R112). -/
def State.ranked (s : State) : List Launch :=
  (List.range 8).flatMap fun p => s.waiting.filter fun l => s.launchPrio l == p

/-- The launches are considered in order: rejected, started, or passed over (R112, R376). -/
def State.consider (s : State) : List Launch → State
  | [] => s
  | l :: rest =>
    match s.rejectCode l with
    | 0 =>
      match s.tryStart l with
      | some s1 => s1
      | none => s.consider rest
    | code => ({ s with waiting := s.waiting.filter fun x => !(x.id == l.id) }.reject l code).consider rest

/-- LAUNCH_START (R112). -/
def execLaunchStart (s : State) : Host.Outcome State Fault Refusal := .next (s.consider s.ranked)

/-- A waiting launch that becomes starved now; the 2^20 cycles count from its arrival, whatever its priority was
meanwhile (R112; DESIGN CHOICE, log 50). -/
def State.starvedNow (s : State) : Option Nat :=
  (s.waiting.find? fun l => !l.starved && decide (2 ^ 20 ≤ (s.clock - l.since).toNat)).map (·.id)

/-- LAUNCH_STARVATION: the launch has waited 2^20 cycles (R112). -/
def execLaunchStarvation (s : State) : Host.Outcome State Fault Refusal :=
  let f (l : Launch) : Launch := if l.id = s.arg 0 then { l with starved := true } else l
  .next { s with waiting := s.waiting.map f }

end Sys2Proof.Machine
end

