-- ==== Sys2Proof/Machine/Engine.lean ====
section
/-!
DEFINITION. The matrix engine at work: the sequencer takes and ends routines, clusters are recorded and restored,
operations start, passes and rows complete, walk tiles are fetched and delivered, held rows are served (R120,
R124, R126, R141, R146 to R166, R303 to R315, R360, R364, R405, R411).
-/

namespace Sys2Proof.Machine

/-! ### The sequencer (R120, R147, R148, R165, R253) -/

/-- Effective priority of an entry (R120). -/
def Resv.priority (r : Resv) (now : W64) : Nat := r.prio - (now - r.arrival).toNat / 2 ^ 14

/-- The entry comes before another: lower effective priority, then earlier arrival (R120). -/
def Resv.before (x y : Resv) (now : W64) : Bool :=
  decide (x.priority now < y.priority now) ||
    (x.priority now == y.priority now && decide (x.arrival.toNat < y.arrival.toNat))

/-- The first of the entries in the order of R120. -/
def bestEntry (now : W64) : List Resv → Option Resv
  | [] => none
  | r :: rs =>
    match bestEntry now rs with
    | some x => if x.before r now then some x else some r
    | none => some r

/-- The entry that the sequencer takes next: of the sixteen in the table, those that stand still apart (R120,
R124). -/
def State.nextEntry (s : State) (cl : Nat) : Option Resv :=
  bestEntry s.clock ((s.cluster cl).resv.filter fun r => decide (r.slot < 16) && !s.stopsReq r)

/-- The sequencer can take an entry (R120, R165). -/
def Cluster.seqFree (c : Cluster) : Bool := !c.running && c.leader.isNone && !c.leaving

/-- The cluster's die runs: not fenced, not excluded by heat, and in D0 (R203, R422, R425). -/
def State.clusterOpen (s : State) (cl : Nat) : Bool :=
  let d := s.die (cl / 24)
  !d.fenced && !d.excluded && d.power.state == 0

/-- A binding entry that waits at the table's port takes the index that frees (R314). -/
def seatFirst (slot : Nat) : List Resv → List Resv
  | [] => []
  | r :: rs => if 16 ≤ r.slot then { r with slot := slot } :: rs else r :: seatFirst slot rs

/-- An entry leaves the table. -/
def Cluster.removeEntry (c : Cluster) (r : Resv) : Cluster :=
  { c with resv := seatFirst r.slot (c.resv.filter fun x => x.slot != r.slot) }

/-- The sequencer's state as a routine begins (R147). -/
def seqGroup (cl : Nat) (r : Resv) (entry : Nat) : Group :=
  { Group.idle with
    tid := seqTid cl
    seq := some cl
    name := w64 r.who.tid
    region := r.region
    rank := r.rank
    ngroups := r.ngroups
    launchId := r.launchId
    nbidx := r.nbidx
    vregs := 0
    eff := r.eff
    resident := true
    v := .replicate 128 .zero
    s := initialS [loW r.arg, hiW r.arg, w32 r.who.tid, w32 (r.who.tid / 2 ^ 32), w32 r.n, w32 r.slot]
    armA := { Arm.free with occ := true, mode := 0x00002006#32, pc := w64 entry } }

/-- A routine begins (R147). -/
def State.startRoutine (s : State) (cl : Nat) (r : Resv) : State :=
  let g := seqGroup cl r (s.mem.rd (s.routineAt cl r.n) 8)
  let s1 := s.modCluster cl fun c =>
    { c.removeEntry r with
      running := true, req := r, msigDone := false, ending := false, vr := 128, vc := 128
      scaled := false, clustUsed := false, bound := [], permq := [] }
  { s1 with others := s1.others ++ [g] }

/-! ### Cluster records (R115, R124, R126, R150) -/

/-- The leader unbinds: its bound clusters run their own routines again (R315). -/
def State.unbind (s : State) (cl : Nat) : State :=
  (s.cluster cl).bound.foldl (fun s j =>
    s.modCluster j fun c =>
      { c with
        leader := if c.leader = some cl then none else c.leader
        resv := c.resv.filter fun r => !(r.bind && r.n == cl) }) s

/-- The sequencer and its engines have no routine, and no operation writes a tile. -/
def Cluster.vacate (c : Cluster) : Cluster :=
  { c with
    running := false, ending := false, engine := [], permq := [], walks := List.replicate 8 none, scaled := false
    clustUsed := false, bound := [], tiles := c.tiles.map fun t => { t with busy := false } }

/-- A tile was written last by a routine of a region's subtree (R150). -/
def State.tileOf (s : State) (region : Nat) (t : Tile) : Bool :=
  match t.owner with
  | some o => s.inSubtree o region
  | none => false

/-- The record that a cluster's context goes into: of the requests that satisfy p, when it has one, leads or
follows a routine of one, or holds tiles that satisfy q. A CLUST that waits for its bindings asks again. -/
def State.clusterRecOf (s : State) (region : Nat) (p : Resv → Bool) (q : Nat → Tile → Bool) (cl : Nat) :
    Option ClusterRec :=
  let c := s.cluster cl
  let moved := c.running && p c.req
  let es := c.resv.filter fun r => p r && !r.bind
  let follows : Bool := match c.leader with
    | some l => (s.cluster l).clustUsed && p (s.cluster l).req
    | none => false
  let u : Cluster := if moved then { c with bound := if c.clustUsed then c.bound else [] }
    else { c.vacate with tiles := c.tiles }
  if moved || !es.isEmpty || follows || c.tiles.any (q cl) then
    some ⟨cl, region, if moved then s.thread (seqTid cl) else none, { u with resv := es }⟩
  else none

/-- The clusters' contexts go into cluster records, with the routines and the reservations that satisfy p; the
sequencers are free and grants return (R115, R124). -/
def State.recordClusters (s : State) (region : Nat) (p : Resv → Bool) (q : Nat → Tile → Bool) : State :=
  let xs := (List.range 144).filterMap (s.clusterRecOf region p q)
  let s1 := (xs.filter (·.unit.running)).foldl (fun s x =>
    x.unit.bound.foldl (fun s j => s.modCluster j fun c =>
        { c with tiles := c.tiles.map fun t => { t with busy := false } })
      (((s.unbind x.cl).dropThread (seqTid x.cl)).modCluster x.cl Cluster.vacate)) s
  State.settleGrants { s1 with
    clusters := s1.clusters.map fun c => { c with resv := c.resv.filter fun r => !p r }
    clusterRecs := s1.clusterRecs ++ xs }

/-- The region's last pre-emption has not been resumed by firmware: what lies in the subtree of PRECTL.REGION stays saved
while PRECTL.DONE is set, for the spec does not say how firmware lets a pre-empted subtree resume (R126; DESIGN CHOICE, log
14). -/
def State.leftSaved (s : State) (region : Nat) : Bool := s.prectl.done && s.inSubtree region s.prectl.region

/-- The record has a routine or reservations. -/
def ClusterRec.works (x : ClusterRec) : Bool := x.unit.running || !x.unit.resv.isEmpty

/-- The requests that a record holds. -/
def ClusterRec.requests (x : ClusterRec) : List Resv :=
  (if x.unit.running then [x.unit.req] else []) ++ x.unit.resv

/-- The cluster is gone for good, or as long as its die is out of use (R423, R425). -/
def State.clusterLost (s : State) (cl : Nat) : Bool := (s.cluster cl).leaving || !s.clusterOpen cl

/-- The cluster that restores a record: its own; where that is out of use, the one on which the requester runs, of which
the spec says nothing; a CLUST waits for its own clusters (R126, R423, R425; DESIGN CHOICE, log 14). -/
def State.recHome (s : State) (x : ClusterRec) : Nat :=
  if !s.clusterLost x.cl || !x.unit.bound.isEmpty then x.cl
  else
    match x.requests.findSome? fun r => s.thread r.who.tid with
    | some g => if g.resident then g.loc.cluster else x.cl
    | none => x.cl

/-- A cluster record can be restored: its cluster and those of its CLUST are free and theirs restored, the table
has room, and the pool a grant within the limits of the regions of its routine and reservations, whose skein records have
been imported (R115, R126, R176). -/
def State.recReady (s : State) (x : ClusterRec) : Bool :=
  let cl := s.recHome x
  let c := s.cluster cl
  let others := x.unit.bound.filter (· != x.cl)
  c.seqFree && s.clusterOpen cl && !s.leftSaved x.region && !s.preempting x.region
    && !(x.requests.any fun r => s.importWaits r.region)
    && decide (c.resv.length + x.unit.resv.length ≤ 16)
    && others.all (fun j => (s.cluster j).seqFree && s.clusterOpen j
      && !s.clusterRecs.any fun y => y.cl == j && y.region == x.region)
    && x.requests.all fun r => s.tokensOk (s.capsNow r.region) [cl]

/-- The record that a cluster restores next. -/
def State.recDue (s : State) (cl : Nat) : Option ClusterRec :=
  s.clusterRecs.find? fun x => s.recHome x == cl && s.recReady x

/-- Entries that come back into a table take the indices that are free. -/
def Cluster.reseat (c : Cluster) : List Resv → Cluster
  | [] => c
  | r :: rest => ({ c with resv := c.resv ++ [{ r with slot := c.freeSlot }] }).reseat rest

/-- The cluster with what a record of a region's subtree holds: the tiles, all of them with a routine, the operator
table and counts, and the routine where it left off (R126, R150). -/
def State.restored (s : State) (x : ClusterRec) (c : Cluster) : Cluster :=
  let u := x.unit
  let c1 := Cluster.reseat { c with
    optable := u.optable, vr := u.vr, vc := u.vc
    tiles := (c.tiles.zip u.tiles).map fun (old, new) => if u.running || s.tileOf x.region new then new else old } u.resv
  if u.running then
    { c1 with
      running := true, req := u.req, msigDone := u.msigDone, ending := u.ending, walks := u.walks
      engine := u.engine, permq := u.permq, scaleA := u.scaleA, scaleB := u.scaleB, scaled := u.scaled
      bound := u.bound, clustUsed := u.clustUsed }
  else c1

/-- A sequencer's state on a cluster. -/
def Group.onCluster (g : Group) (cl : Nat) : Group := { g with tid := seqTid cl, seq := some cl }

/-- A cluster record restored (R115, R126). -/
def State.restoreCluster (s : State) (x : ClusterRec) : State :=
  let cl := s.recHome x
  let s1 := x.unit.bound.foldl (fun s j =>
    if j = cl then s else s.modCluster j fun c => { c with leader := some cl }) (s.modCluster cl (s.restored x))
  let s2 := s1.takeGrant x.works cl
  { s2 with
    others := s2.others ++ x.seq.toList.map fun g => g.onCluster cl
    clusterRecs := s2.clusterRecs.erase x }

/-! ### Entries taken (R120, R147, R165) -/

/-- SEQUENCER_TAKE_ENTRY: a cluster record is restored first (R120, R126, R147). -/
def execSequencerTakeEntry (s : State) : Host.Outcome State Fault Refusal :=
  let cl := s.arg 0
  .next (match s.recDue cl with
    | some x => s.restoreCluster x
    | none =>
      match s.nextEntry cl with
      | some r => if (s.cluster cl).seqFree && s.clusterOpen cl && !r.bind then s.startRoutine cl r else s
      | none => s)

/-- CLUST_BIND_TAKE: a bound cluster's sequencer takes the leader's entry (R165, R314). -/
def execClustBindTake (s : State) : Host.Outcome State Fault Refusal :=
  let cl := s.arg 0
  .next (match s.nextEntry cl with
    | some r =>
      if (s.cluster cl).seqFree && s.clusterOpen cl && r.bind then
        s.modCluster cl fun c => { c.removeEntry r with leader := some r.n }
      else s
    | none => s)

/-- MSIG_DELIVERY: the token register takes the value and is full, in the group or its save record; no
effect when the requester is DEAD (R148). -/
def execMsigDelivery (s : State) : Host.Outcome State Fault Refusal :=
  .next (s.complete (fun f => match f with
      | .msig w reg _ x => some (w.tid, reg, x)
      | _ => none)
    fun s (tid, reg, x) => (s.modThread tid fun g => g.fill (.word reg x)).syncRecord tid)

/-! ### What a thread that ends leaves (R249, R253, R391) -/

/-- A reply in flight that a thread's end discards: a load's, a row's, a sequencer's atomic's too. -/
def Group.discards (g : Group) : Flight → Bool
  | .load w _ _ _ | .trd w _ => w.tid == g.tid
  | .atomic w _ _ _ => g.isSeq && w.tid == g.tid
  | .sfu t _ => t == g.tid
  | _ => false

/-- The error that a reply reports. -/
def Flight.err : Flight → Option MCheck
  | .load _ _ e _ | .atomic _ _ e _ => e
  | _ => none

/-- What stands for a reply that is discarded: one whose requests to hosts and peers have not been answered can still
report an error (R391). -/
def Group.discarded (g : Group) (f : Flight) : List Flight :=
  if !g.discards f then [f]
  else if f.far.isEmpty then []
  else [.discarded g.tid g.region g.faultLoc f.far]

/-- Replies still in flight are discarded; an error that one reports, or that is pending, becomes an MCHECK record
(R249, R253, R391). -/
def State.discardReplies (s : State) (g : Group) : State :=
  (((s.flight.filter g.discards).filterMap Flight.err) ++ g.mchecks).foldl
    (fun s m => s.mcheckRecord g.region g.name.toNat g.faultLoc m)
    { s with flight := s.flight.flatMap g.discarded }

/-- The routine of a cluster is gone: its replies in flight, its binding, its walks and permits (R253, R307,
R315). -/
def State.endSeq (s : State) (cl : Nat) : State :=
  let s1 := match s.thread (seqTid cl) with
    | some g => s.discardReplies g
    | none => s
  ((s1.unbind cl).dropThread (seqTid cl)).modCluster cl Cluster.vacate

/-- ROUTINE_END: the routine's operations have completed; the MSIG of R148 is made if none was (R253,
R307, R315). -/
def execRoutineEnd (s : State) : Host.Outcome State Fault Refusal :=
  let cl := s.arg 0
  let c := s.cluster cl
  .next (if c.running && c.ending && s.engineIdle cl && !c.walks.any fun w => (w.map Walk.awaitsDiscard).getD false then
      let s1 := (s.endSeq cl)
      let s2 := if c.msigDone then s1
        else (s1.dropHold c.req.id c.req.who.tid).send (.msig c.req.who c.req.reg cl 0xFFFFFFFF#32)
      s2.settleGrants
    else s)

/-- REQUEST_HOLD_END: R360 holds the arm's read no more; the arm issues it (R360). -/
def execRequestHoldEnd (s : State) : Host.Outcome State Fault Refusal :=
  let armB := s.argB 1
  .next (s.modThread (s.arg 0) fun g =>
    let a := g.arm armB
    if a.occ && a.ws == .held && !g.heldBy armB a.wreg then g.mapArm armB fun a => { a with ws := .ready }
    else g)

/-- An error that the engine of a cluster meets: a trap of its routine; once the routine has exited or trapped, a record
(R364, R391, R392). -/
def State.engineTrap (s : State) (cl : Nat) (t : Trap) : State :=
  match s.thread (seqTid cl) with
  | none => s
  | some g =>
    if (s.cluster cl).ending then
      s.mcheckRecord g.region g.name.toNat 0 ⟨false, t.addr, t.info.toNat, t.detail, s.clock⟩
    else (s.turnTo (seqTid cl) false).trapped t

/-- The engine of a cluster stands still: its routine is being pre-empted (R124). -/
def State.engineStopped (s : State) (cl : Nat) : Bool :=
  (s.cluster cl).running && s.stopsReq (s.cluster cl).req

/-! ### Starting (R151, R309, R311) -/

/-- The tiles that an operation writes or reads in a cluster. -/
def Cluster.opTiles (c : Cluster) (op : EngOp) : List Nat :=
  match op with
  | .mma td _ _ _ _ _ => c.mmaTiles td
  | op => [op.tile]

/-- Two operations share a tile. -/
def Cluster.shares (c : Cluster) (x y : EngOp) : Bool :=
  (c.opTiles x).any fun t => (c.opTiles y).contains t

/-- A TDRAIN of the tile has accepted a row below W that it has not read. -/
def Arm.drains (a : Arm) (cl t w : Nat) : Bool :=
  match a.drain with
  | some d => d.cl == cl && d.tile == t && decide (d.row < d.rows.length) && decide (d.row < w)
  | none => false

/-- An accepted TRD or TDRAIN of a row below W has not read it (R151); a swap has stopped the TDRAIN of a saved group
(R304). -/
def State.readsPending (s : State) (cl t : Nat) : Bool :=
  let w := ((s.cluster cl).tile t).w
  s.flight.any (fun f => match f with
    | .trd _ r => r.cl == cl && r.tile == t && decide (r.row < w)
    | _ => false)
  || s.threads.any fun g => g.resident && (g.armA.drains cl t w || g.armB.drains cl t w)

/-- A queued operation can start behind the ones before it (R151, R309, R311). -/
def State.startable (s : State) (cl : Nat) (before : List EngSlot) (e : EngSlot) : Bool :=
  let c := s.cluster cl
  match e.op with
  | .tstore .. => before.all fun x => x.started || !c.shares x.op e.op
  | op =>
    before.all (fun x => !c.shares x.op op && !(x.op.isMma && op.isMma)) &&
      (c.opClusters cl op).all fun j => (c.opTiles op).all fun t =>
        !((s.cluster j).tile t).busy && !s.readsPending j t

/-- Position of the first operation that can start. -/
def State.startAt (s : State) (cl : Nat) : List EngSlot → List EngSlot → Option (Nat × EngSlot)
  | _, [] => none
  | before, e :: rest =>
    if !e.started && s.startable cl before e then some (before.length, e)
    else s.startAt cl (before ++ [e]) rest

/-- The lowering of a tile's watermark (R150, R151, R304). -/
def Tile.lower (t : Tile) (e : EngSlot) : Tile :=
  { t with
    w := 0, busy := true, owner := some e.region, tag := e.op.tag.getD t.tag, vr := e.vr, vc := e.vc }

/-- A request's hold learns of a lowered tile (R360). -/
def Arm.lowered (a : Arm) (req : Nat) (ts : List Nat) : Arm :=
  { a with holds := a.holds.map fun h => if h.req = req then { h with tiles := ts ++ h.tiles } else h }

/-- An operation starts. -/
def State.startOp (s : State) (cl n : Nat) (e : EngSlot) : State :=
  let c := s.cluster cl
  let ts := c.opTiles e.op
  let s1 := s.modCluster cl fun c => { c with engine := modAt (fun x => { x with started := true }) n c.engine }
  match e.op with
  | .tstore .. => s1
  | op =>
    let s2 := (c.opClusters cl op).foldl (fun s j =>
      ts.foldl (fun s t => s.modTile j t fun x => x.lower e) s) s1
    if op.isMma then
      s2.modThread c.req.who.tid fun g =>
        { g with armA := g.armA.lowered c.req.id ts, armB := g.armB.lowered c.req.id ts }
    else s2

/-- MATRIX_OP_START (R151, R309). -/
def execMatrixOpStart (s : State) : Host.Outcome State Fault Refusal :=
  let cl := s.arg 0
  .next (if s.engineStopped cl then s else
    match s.startAt cl [] (s.cluster cl).engine with
    | some (n, e) => s.startOp cl n e
    | none => s)

/-! ### Walk tiles (R155 to R157, R307) -/

/-- The number of n bytes at an address, as the line that holds them was fetched. -/
def Walk.fetched (w : Walk) (a n : Nat) : Nat :=
  match w.placeOf a with
  | some p =>
    match w.lines.find? fun x => x.1 == p.line with
    | some (_, bs) => ofBytes ((bs.drop (p.offset % 64)).take n)
    | none => 0
  | none => 0

/-- The element of row or column o at stored K-step k: none where padded. -/
def Walk.fetchElem (w : Walk) (o k : Nat) : Option Nat :=
  (w.address o k).map fun a =>
    let x := w.fetched a (elemSize w.ty)
    if w.ty = 0 then x / 2 ^ ((if w.roleB then o else k) % 32) % 2 else x

/-- Walk tile t as its lines were fetched (R156, R307). -/
def Walk.fetchTile (w : Walk) (bound : Bool) (t : Nat) : WalkTile where
  elems := (List.range (w.outer bound)).map fun o => (List.range 32).map fun k => w.fetchElem o (32 * t + k)
  metas := if w.nsp = 0 then [] else
    (List.range (w.outer bound)).map fun o => (w.groups t).map fun g => w.fetched (w.metaAt g o) 8

/-- The addresses of a tile with their places, where the line has not been fetched: each is read once (R156). -/
def Walk.newPlaces (w : Walk) (bound : Bool) (t : Nat) : List (Nat × Place) :=
  (w.tileAddrs bound t).filterMap fun a =>
    match w.placeOf a with
    | some p => if w.lines.any fun x => x.1 == p.line then none else some (a, p)
    | none => none

/-- The lines that a tile still needs. -/
def Walk.newLines (w : Walk) (bound : Bool) (t : Nat) : List Place :=
  ((w.newPlaces bound t).map fun x => x.2.line).eraseDups

/-- Lines are fetched and pinned; a gated memory die wakes for them (R156, R206). -/
def State.fetchLines (s : State) (w : Walk) : List Place → State × Walk
  | [] => (s, w)
  | p :: rest =>
    let s1 := s.wakeFor p
    State.fetchLines { s1 with fresh := s1.fresh + 64 } { w with lines := w.lines ++ [(p, s1.readLine p)] } rest

/-- The first address that meets an error, with the MCHECK it gives (R392, R393). -/
def State.walkErr (s : State) : List (Nat × Place) → Option Trap
  | [] => none
  | (a, p) :: rest =>
    match s.readErr p with
    | some d => some ⟨.mcheck, d, w64 a, 0⟩
    | none => if s.spadBad p then some ⟨.mcheck, 4, w64 a, 0⟩ else s.walkErr rest

/-- A change of a walk slot. -/
def State.setWalk (s : State) (cl n : Nat) (w : Walk) : State :=
  s.modCluster cl fun c => { c with walks := c.walks.set n (some w) }

/-- A TSTORE among the operations has still to write the line of a place (R99). -/
def writesLine (p : Place) (es : List EngSlot) : Bool :=
  es.any fun e => match e.op with
    | .tstore _ _ _ rows => (rows.drop e.step).any fun r => r.any fun b => p.meets 1 b.1 b.2
    | _ => false

/-- A read of a cluster's engine at a place waits: for an engine's write that the read is ordered after (R99,
R100), of its own cluster those before it, for a publish step, the send window, or a memory die (R82, R193, R206). -/
def State.readWaits (s : State) (cl : Nat) (before : List EngSlot) (p : Place) : Bool :=
  s.unitWaits p 64 || writesLine p before ||
    s.clusters.zipIdx.any fun (c, j) => j != cl && writesLine p c.engine

/-- The operations of a cluster's engine before the one that uses a walk slot; all of them when none does yet. -/
def Cluster.beforeUse (c : Cluster) (n : Nat) : List EngSlot := c.engine.takeWhile fun e => !e.op.uses n

/-- Lines that an L2 slice pins at most: 512 KiB (R156). The model takes all of a cluster's walks to one slice
(DESIGN CHOICE, log 49). -/
def pinLimit : Nat := 8192

/-- Lines that a cluster's walks have pinned. -/
def Cluster.pinned (c : Cluster) : Nat := (c.walks.map fun w => match w with
  | some w => w.lines.length
  | none => 0).sum

/-- A walk may fetch its next tile: it holds a permit, has tiles left and lines to pin, and none of its lines waits
(R82, R99, R155, R156, R307). -/
def State.fetchReady (s : State) (cl n : Nat) (w : Walk) : Bool :=
  let c := s.cluster cl
  !s.engineStopped cl && decide (0 < w.permits) && decide (w.data.length < w.tiles) && decide (n < 8) &&
    (let ls := w.newLines c.clustUsed w.data.length
     decide (c.pinned + ls.length ≤ pinLimit) && !s.unitsWait ls 64 && ls.all fun p => !s.readWaits cl (c.beforeUse n) p)

/-- The walk that fetches next: of those that can, a committed one first, then the one least ahead (log 2). -/
def State.nextFetch (s : State) (cl : Nat) : Option Nat :=
  let c := s.cluster cl
  let key (n : Nat) : Nat := match c.walk n with
    | some w => (if w.committed then 0 else 2 ^ 32) + (w.data.length - w.consumed)
    | none => 2 ^ 33
  ((List.range 8).filter fun n => match c.walk n with
    | some w => s.fetchReady cl n w
    | none => false).foldl (fun b n => match b with
      | some m => if key n < key m then some n else some m
      | none => some n) none

/-- The walk engine takes the PERMITs that its queue holds (R121, R155). -/
def Cluster.takePermits (c : Cluster) : Cluster :=
  { c with
    walks := c.walks.zipIdx.map fun (w, n) => w.map fun w => { w with permits := c.granted n w }
    permq := [] }

/-- One permit used and one tile fetched: its new lines are read, and every line is read once (R155, R156, R307). -/
def State.fetchNext (s : State) (cl n : Nat) (w : Walk) : State :=
  let b := (s.cluster cl).clustUsed
  let t := w.data.length
  let (s1, w1) := s.fetchLines w (w.newLines b t)
  let s2 := s1.setWalk cl n { w1 with permits := w1.permits - 1, data := w1.data ++ [w1.fetchTile b t] }
  match s.walkErr (w.newPlaces b t) with
  | some x => s2.engineTrap cl x
  | none => s2

/-- WALK_TILE_FETCH: the engine takes its permits and fetches a tile; an error ends the routine (R155, R156, R307,
R392). The tile is the next in descriptor order, though R157 lets the engine fetch a later one first (DESIGN CHOICE,
log 2). -/
def execWalkTileFetch (s : State) : Host.Outcome State Fault Refusal :=
  let cl := s.arg 0
  let n := s.arg 1
  let s1 := s.modCluster cl Cluster.takePermits
  .next (match (s1.cluster cl).walk n with
    | none => s1
    | some w => if s1.fetchReady cl n w then s1.fetchNext cl n w else s1)

/-- WALK_TILE_DELIVERED: in descriptor order, to every engine that the walk feeds (R157). -/
def execWalkTileDelivered (s : State) : Host.Outcome State Fault Refusal :=
  let cl := s.arg 0
  let n := s.arg 1
  .next (match (s.cluster cl).walk n with
    | none => s
    | some w =>
      if w.delivered < w.data.length then s.setWalk cl n { w with delivered := w.delivered + 1 } else s)

/-! ### Arithmetic (R140, R141, R159 to R163, R405, R411) -/

/-- How an engine operation rounds: RNE, SAT as sampled, the operation's PC (R141, R411). -/
def engCtx (sat : Bool) (pc : Nat) : RCtx := ⟨0, sat, pc, 0⟩

/-- The poisoned value by the accumulator's tag (R162, R405). -/
def poisonOf (tag pc : Nat) : Nat :=
  match tag with
  | 1 => 0x80000000
  | 2 => 0xFFFFFFFF
  | _ => fp32.newNan .domain pc

/-- Where a value is finite: multiplied by two others. -/
def Term.times (t : Term) (m : Nat) (e : Int) : Term :=
  match t with
  | .fin neg x y => .fin neg (x * m) (y + e)
  | t => t

/-- A K-step of plus-times as a term of the slice's exact sum (R141, R160). -/
def prodTerm (f : Fmt) (pc : Nat) : Option Nat × Option Nat → Term
  | (some a, some b) =>
    match f.read a, f.read b with
    | .nan _ _ x, _ => .nan (f.convertNan fp32 x pc)
    | _, .nan _ _ x => .nan (f.convertNan fp32 x pc)
    | va, vb =>
      match mulVals va vb with
      | some (.fin neg m e) => .fin neg m e
      | some (.inf neg) => .inf neg
      | some (.nan _ _ x) => .nan x
      | none => .nan (fp32.newNan .zeroinf pc)
  | _ => .fin false 0 0

/-- Nothing of a unit is computed: every K-step is padded or pruned. -/
def allPadded (ab : List (Option Nat × Option Nat)) : Bool := ab.all fun x => x.1.isNone || x.2.isNone

/-- The rounded sum of a unit under a row scale and a tile scale (R140, R141); 1.0 and 1.0 without. A unit whose
K-steps are all padded or skipped gives +0 under an invalid scale too: no rule says whether the scale touches it
(DESIGN CHOICE, log 7). -/
def unitSum (f : Fmt) (c : RCtx) (rs ts : Nat) (ab : List (Option Nat × Option Nat)) : Nat :=
  if allPadded ab then 0
  else if !validScale rs || !validScale ts then fp32.newNan .scale c.pc
  else
    match fp32.read rs, fp32.read ts with
    | .fin _ m1 e1, .fin _ m2 e2 =>
      fp32.sum c ((ab.map (prodTerm f c.pc)).map fun t => t.times (m1 * m2) (e1 + e2))
    | _, _ => fp32.newNan .scale c.pc

/-- An accumulator that is a NaN keeps it, quieted (R136, R161). -/
def nanAcc (acc : Nat) : Option Nat :=
  match fp32.read acc with
  | .nan _ _ x => some (fp32.quieten x)
  | _ => none

/-- acc ⊕ a unit under floating plus-times. -/
def accPlusTimes (f : Fmt) (c : RCtx) (rs ts acc : Nat) (ab : List (Option Nat × Option Nat)) : Nat :=
  match nanAcc acc with
  | some x => x
  | none => fp32.fadd c acc (unitSum f c rs ts ab)

/-- acc ⊕ a unit of I8 products, wrapped or clamped (R161). -/
def accI8 (sat : Bool) (acc : Nat) (ab : List (Option Nat × Option Nat)) : Nat :=
  let sum := ab.foldl (fun (t : Int) x => match x with
    | (some a, some b) => t + intVal 4 a * intVal 4 b
    | _ => t) 0
  let v := intVal 1 acc + sum
  wrapInt 32 (if sat then clampInt (-(2 ^ 31 - 1)) (2 ^ 31 - 1) v else v)

/-- A value below −0 (R161 max-times). -/
def FVal.negative : FVal → Bool
  | .fin neg m _ => neg && m != 0
  | .inf neg => neg
  | .nan _ _ _ => false

/-- A finite value or an infinity as FP32 bits; every operand format is exact in FP32. -/
def fp32Bits : FVal → Nat
  | .fin neg m e => fp32.round ⟨0, false, 0, 0⟩ neg m e false
  | .inf neg => fp32.inf neg
  | .nan _ _ x => x

/-- a ⊗ b of the pairs whose ⊕ is min or max, for operands that are no NaN (R161). -/
def combineBits (p : Pair) (c : RCtx) (a b : FVal) : Nat :=
  match p with
  | .minMax => fp32.fmax (fp32Bits a) (fp32Bits b)
  | .maxTimes =>
    match mulVals a b with
    | some v => fp32.roundVal c v
    | none => 0
  | _ =>
    match a, b with
    | .inf x, .inf y => if x = y then fp32.inf x else fp32.inf (p == .maxPlus)
    | a, b => fp32.addVals c a b

/-- ⊕ of those pairs. -/
def reduceBits (p : Pair) (x y : Nat) : Nat :=
  match p with
  | .minPlus | .minMax => fp32.fmin x y
  | _ => fp32.fmax x y

/-- The identity of a pair (R159). -/
def Pair.identity : Pair → Nat
  | .minPlus | .minMax => 0x7F800000
  | .maxPlus => 0xFF800000
  | _ => 0

/-- One K-step of such a pair (R160, R161). -/
def semiStep (p : Pair) (f : Fmt) (c : RCtx) (cur : Nat) (x : Option Nat × Option Nat) : Nat :=
  match nanAcc cur with
  | some n => n
  | none =>
    match x with
    | (some a, some b) =>
      match f.read a, f.read b with
      | .nan _ _ n, _ => f.convertNan fp32 n c.pc
      | _, .nan _ _ n => f.convertNan fp32 n c.pc
      | va, vb =>
        if p = .maxTimes ∧ (va.negative || vb.negative) then fp32.newNan .domain c.pc
        else reduceBits p cur (combineBits p c va vb)
    | _ => reduceBits p cur p.identity

/-- acc ⊕ a unit of such a pair. -/
def accSemi (p : Pair) (f : Fmt) (c : RCtx) (acc : Nat) (ab : List (Option Nat × Option Nat)) : Nat :=
  if p = .maxTimes ∧ (fp32.read acc).negative then fp32.newNan .domain c.pc
  else ab.foldl (semiStep p f c) acc

/-- acc ⊕ a unit of or-and. -/
def accOrAnd (acc : Nat) (ab : List (Option Nat × Option Nat)) : Nat :=
  ab.foldl (fun t x => match x with
    | (some a, some b) => t ||| (a &&& b)
    | _ => t) acc

/-- acc ⊕ a unit under an entry word (R159, R161). -/
def accUnit (e : Nat) (c : RCtx) (rs ts acc : Nat) (ab : List (Option Nat × Option Nat)) : Nat :=
  match legalPair e with
  | some .plusTimes =>
    if entType e = 4 then accI8 c.sat acc ab else accPlusTimes (fmtOf (entType e)) c rs ts acc ab
  | some .orAnd => accOrAnd acc ab
  | some p => accSemi p (fmtOf (entType e)) c acc ab
  | none => acc

/-! ### Passes (R141, R162, R309) -/

/-- The kept indices of a metadata word (R162). -/
def metaIdx (n w : Nat) : List Nat := (List.range n).map fun i => bitsOf w (5 * i + 4) (5 * i)

/-- Strictly rising, starting at or above a bound, all below 24. -/
def risingFrom : Nat → List Nat → Bool
  | _, [] => true
  | lo, x :: r => decide (lo ≤ x) && decide (x < 24) && risingFrom (x + 1) r

/-- A metadata word is good (R162). -/
def metaOk (n w : Nat) : Bool := decide (w < 2 ^ (5 * n)) && risingFrom 0 (metaIdx n w)

/-- The element of a dense walk at row or column o and K-step k. -/
def Walk.dense (w : Walk) (o k : Nat) : Option Nat :=
  match w.data.drop (k / 32) with
  | t :: _ => (t.elems.getD o []).getD (k % 32) none
  | [] => none

/-- The metadata word of K-group g of column o. -/
def Walk.metaWord (w : Walk) (g o : Nat) : Nat :=
  let t := g * w.nsp / 32
  match w.data.drop t with
  | x :: _ => (x.metas.getD o []).getD (g - 32 * t / w.nsp) 0
  | [] => 0

/-- The element of walk B at column o and K-step k: none where padded or pruned (R160, R162). -/
def Walk.elemB (w : Walk) (o k : Nat) : Option Nat :=
  if w.nsp = 0 then w.dense o k
  else
    match (metaIdx w.nsp (w.metaWord (k / 24) o)).findIdx? (· == k % 24) with
    | some i => w.dense o (k / 24 * w.nsp + i)
    | none => none

/-- A group of column o that K-steps below k meet has a bad metadata word. -/
def Walk.badMeta (w : Walk) (o k : Nat) : Bool :=
  w.nsp != 0 && w.present o && (List.range ((k + 23) / 24)).any fun g => !metaOk w.nsp (w.metaWord g o)

/-- An MMA-family operation in one cluster and tile: what a unit needs. -/
structure MmaCtx where
  wa : Walk
  wb : Walk
  entry : Nat
  ctx : RCtx
  /-- row of A and column of B of element (0, 0) -/
  row0 : Nat
  col0 : Nat
  rowScales : List W32
  tileScale : W32
  deriving DecidableEq, Repr

/-- An output after the unit of K-steps from k0 on. -/
def MmaCtx.output (m : MmaCtx) (k0 r c acc : Nat) : Nat :=
  let u := m.wb.unit
  if m.wa.poisoned || m.wb.poisoned || m.wb.badMeta (m.col0 + c) (k0 + u) then
    poisonOf (accTag m.entry) m.ctx.pc
  else
    let ab := (List.range u).map fun i =>
      (m.wa.dense (m.row0 + r) (k0 + i), m.wb.elemB (m.col0 + c) (k0 + i))
    accUnit m.entry m.ctx (m.rowScales.getD r 0x3F800000#32).toNat m.tileScale.toNat acc ab

/-- The outputs below the valid counts after a unit (R160, R164). -/
def MmaCtx.run (m : MmaCtx) (k0 vr vc : Nat) (t : Tile) : Tile :=
  (List.range vr).foldl (fun t r =>
    (List.range vc).foldl (fun t c => t.setElem r c (m.output k0 r c (t.elem r c))) t) t

/-- The scales of block β for row block i and column block j, of the arrays in force when the operation issued
(R308). -/
def State.scalesOf (s : State) (cl : Nat) (e : EngSlot) (β i j : Nat) : List W32 × W32 :=
  ((e.rowScaleAt β i).map (s.scaleWord cl e.kept), s.scaleWord cl e.kept (e.tileScaleAt β j))

/-- One unit of an operation in every tile that it writes. -/
def State.mmaUnit (s : State) (cl : Nat) (e : EngSlot) (wa wb : Walk) (td pc : Nat) (entry : W32)
    (useScales : Bool) (k0 : Nat) : State :=
  let c := s.cluster cl
  (c.targets cl).zipIdx.foldl (fun s1 (jc, j) =>
    (c.mmaTiles td).zipIdx.foldl (fun s1 (t, i) =>
      let sc := if useScales && wb.fp8 then s.scalesOf cl e (k0 / 128) i j else ([], 0x3F800000#32)
      let m : MmaCtx := ⟨wa, wb, entry.toNat, engCtx e.sat pc, 128 * i, 128 * j, sc.1, sc.2⟩
      s1.modTile jc t fun x => m.run k0 e.vr e.vc x) s1) s

/-- Tiles of the dense walk A that p passes need (R307). -/
def Walk.needA (wb : Walk) (p : Nat) : Nat := if wb.nsp = 0 then p else p * 24 / wb.nsp

/-- Position and content of the MMA-family operation that runs. -/
def runningMma : Nat → List EngSlot → Option (Nat × EngSlot)
  | _, [] => none
  | n, e :: rest => if e.started && e.op.isMma then some (n, e) else runningMma (n + 1) rest

/-- The watermark of an operation's tiles, and BUSY (R151). -/
def State.raise (s : State) (cl : Nat) (op : EngOp) (w : Nat) (busy : Bool) : State :=
  let c := s.cluster cl
  (c.opClusters cl op).foldl (fun s j =>
    (c.opTiles op).foldl (fun s t => s.modTile j t fun x => { x with w := w, busy := busy }) s) s

/-- The n-th engine operation after one more step. -/
def State.stepOp (s : State) (cl n : Nat) : State :=
  s.modCluster cl fun c => { c with engine := modAt (fun x => { x with step := x.step + 1 }) n c.engine }

/-- The n-th engine operation is done. -/
def State.endOp (s : State) (cl n : Nat) : State :=
  s.modCluster cl fun c => { c with engine := c.engine.eraseIdx n }

/-- With LASTUSE a line that no later pass consumes is discarded (R101, R307). -/
def State.lastUse (s : State) (p : Place) : State :=
  match p with
  | .dev pa => s.discardLines pa 64
  | _ => s

/-- A walk's pins end where no later pass consumes the line; with LASTUSE the line is discarded, once an engine's
write that the discard is ordered after is made (R99, R101, R156, R307). -/
def State.unpin (s : State) (cl n : Nat) : State :=
  let c := s.cluster cl
  match c.walk n with
  | none => s
  | some w =>
    let need := w.neededFrom c.clustUsed w.consumed
    let stays (x : Place × List Byte) : Bool := need.contains x.1 || (w.lastUse && s.engineOwns x.1 64)
    let s1 := s.setWalk cl n { w with lines := w.lines.filter stays }
    if w.lastUse then (w.lines.filter fun x => !stays x).foldl (fun s x => s.lastUse x.1) s1 else s1

/-- The discards that waited for an engine's write (R101). -/
def State.unpinAll (s : State) : State :=
  s.clusters.zipIdx.foldl (fun s (c, cl) =>
    (List.range 8).foldl (fun s n => match c.walk n with
      | some w => if w.lastUse && !w.lines.isEmpty then s.unpin cl n else s
      | none => s) s) s

/-- A damaged tile element that a pass reads (R393). -/
def Tile.badBelow (t : Tile) (vr vc : Nat) : Bool :=
  t.bad.any fun i => decide (i / 128 < vr) && decide (i % 128 < vc)

/-- The places of the scales that an operation reads in a pass, with their addresses; those kept apart (R308). -/
def State.passScales (s : State) (cl : Nat) (e : EngSlot) (td : Nat) (useScales : Bool) (wb : Walk) :
    List (Nat × Place) :=
  (s.passScaleAddrs cl e td useScales wb e.step).filterMap fun a =>
    if e.kept.any fun x => x.1 == a then none else (s.scalePlace cl a).map fun p => (a, p)

/-- A scale that the pass reads waits for the publish step of its page, or behind other accesses at a memory die that its
translation reads (R82, R206, R388). -/
def State.scaleFrozen (s : State) (cl : Nat) (e : EngSlot) (td : Nat) (useScales : Bool) (wb : Walk) : Bool :=
  (s.passScaleAddrs cl e td useScales wb e.step).any fun a => match s.scaleReach cl a with
    | .frozen none => true
    | .frozen (some d) => !(s.mdie d).held.isEmpty
    | _ => false

/-- The memory dies that the translations of the pass's scales read are in D0 (R206). -/
def State.wakeScales (s : State) (cl : Nat) (e : EngSlot) (td : Nat) (useScales : Bool) (wb : Walk) : State :=
  (s.passScaleAddrs cl e td useScales wb e.step).foldl (fun s a => match s.scaleReach cl a with
    | .frozen (some d) => s.wakeDie d
    | _ => s) s

/-- One pass's sums: its walk tiles are consumed and their pins end; a damaged element or scale ends the routine
(R307, R309, R392, R393). -/
def State.passSums (s0 : State) (cl : Nat) (e : EngSlot) (na nb td pc : Nat) (entry : W32) (useScales : Bool)
    (wa wb : Walk) : State :=
  let p := e.step
  let s := s0.wakeScales cl e td useScales wb
  let bad : Bool := ((s.cluster cl).targets cl).any fun j =>
    ((s.cluster cl).mmaTiles td).any fun t => ((s.cluster j).tile t).badBelow e.vr e.vc
  let scales := s.passScales cl e td useScales wb
  let sw := scales.foldl (fun s x => s.wakeFor x.2) s
  let s1 := (wb.passUnits p).foldl (fun s k0 => s.mmaUnit cl e wa wb td pc entry useScales k0) sw
  let s2 := (s1.setWalk cl na { wa with consumed := wb.needA (p + 1) }).setWalk cl nb
    { wb with consumed := p + 1 }
  let s3 := (s2.unpin cl na).unpin cl nb
  match if bad then some ⟨.mcheck, 1, 0, 0⟩ else sw.walkErr scales with
  | some t => s3.engineTrap cl t
  | none => s3

/-- The running operation's next step can be made: its tiles are delivered and its scales do not wait; or all passes
are done and rows retire (R82, R99, R309). -/
def State.passReady (s : State) (cl : Nat) : Bool :=
  let c := s.cluster cl
  match runningMma 0 c.engine with
  | none => false
  | some (n, e) =>
    match e.op with
    | .mma td na nb _ _ useScales =>
      match c.walk na, c.walk nb with
      | some wa, some wb =>
        decide (wb.tiles ≤ e.step) ||
          (decide (wb.needA (e.step + 1) ≤ wa.delivered) && decide (e.step + 1 ≤ wb.delivered) &&
            !s.scaleFrozen cl e td useScales wb &&
            (s.passScales cl e td useScales wb).all fun x => !s.readWaits cl (c.engine.take n) x.2)
      | _, _ => true
    | _ => false

/-- MATRIX_PASS_COMPLETE: a pass of the running operation, once its tiles are delivered; in and after the
last pass rows retire 16 at a time (R151, R309). -/
def execMatrixPassComplete (s : State) : Host.Outcome State Fault Refusal :=
  let cl := s.arg 0
  let c := s.cluster cl
  .next (if s.engineStopped cl || !s.passReady cl then s else
    match runningMma 0 c.engine with
    | none => s
    | some (n, e) =>
      match e.op with
      | .mma td na nb pc entry useScales =>
        match c.walk na, c.walk nb with
        | some wa, some wb =>
          if wb.tiles ≤ e.step then
            let w := 16 * (e.step + 2 - wb.tiles)
            if w < 128 then (s.raise cl e.op w true).stepOp cl n else (s.raise cl e.op 128 false).endOp cl n
          else
            let s1 := s.passSums cl e na nb td pc entry useScales wa wb
            (if e.step + 1 = wb.tiles then s1.raise cl e.op 16 true else s1).stepOp cl n
        | _, _ => s.endOp cl n
      | _ => s)

/-! ### Whole-tile operations (R311, R312) -/

/-- Position and content of the first started operation that satisfies a test. -/
def startedOp (p : EngSlot → Bool) : Nat → List EngSlot → Option (Nat × EngSlot)
  | _, [] => none
  | n, e :: rest => if e.started && p e then some (n, e) else startedOp p (n + 1) rest

/-- The elements of row r that an operation writes. -/
def Tile.rowOf (t : Tile) (e : EngSlot) (r : Nat) : Tile :=
  let w (n : Nat) (f : Nat → Nat) : Tile :=
    (List.range n).foldl (fun t c =>
      { t.setElem r c (f c) with bad := t.bad.filter fun i => i != r * 128 + c }) t
  match e.op with
  | .fill _ _ x => if r < e.vr then w e.vc fun _ => x.toNat else t
  | .tload _ _ m => w 128 fun c => m.rd ((r * 128 + c) * 4) 4
  | _ => t

/-- TILE_ROW_WRITTEN: a row of TZERO, TFILL or TLOAD lands and W rises (R311). -/
def execTileRowWritten (s : State) : Host.Outcome State Fault Refusal :=
  let cl := s.arg 0
  let c := s.cluster cl
  .next (if s.engineStopped cl then s else
    match startedOp (fun e => e.op.tag.isSome) 0 c.engine with
    | none => s
    | some (n, e) =>
      let r := e.step
      let s1 := (c.opClusters cl e.op).foldl (fun s j => s.modTile j e.op.tile fun t => t.rowOf e r) s
      let s2 := s1.raise cl e.op (r + 1) (decide (r + 1 < 128))
      if r + 1 < 128 then s2.stepOp cl n else s2.endOp cl n)

/-- The element that TSTORE stores: a damaged one has a free value (R393, log 21). -/
def Tile.storeElem (t : Tile) (fresh r c : Nat) : Nat :=
  if t.bad.contains (r * 128 + c) then (Config.freeWord (fresh + c)).toNat else t.elem r c

/-- The words of a row stored to its blocks; off counts the bytes already stored. A place that is lost takes none
(R390, R415, R422). -/
def State.storeRow (s : State) (t : Tile) (fresh r : Nat) : Nat → List (Place × Nat) → State
  | _, [] => s
  | off, (p, n) :: rest =>
    ((List.range (n / 4)).foldl (fun s i =>
      (s.wakeFor (p.plus (4 * i))).storeAt (p.plus (4 * i)) 4 (t.storeElem fresh r (off / 4 + i))) s).storeRow
      t fresh r (off + n) rest

/-- The error of a place to which an engine has to write: lost since the write issued (R390, R415, R422). -/
def State.lostAt (s : State) (p : Place) : Option Nat :=
  if p.away || s.fencedAt p || (match p with
    | .removed _ _ => true
    | _ => false) then s.readErr p else none

/-- The first block of a row that a test gives an error, with its offset in the row and the error. -/
def rowLost (err : Place → Option Nat) : Nat → List (Place × Nat) → Option (Nat × Nat)
  | _, [] => none
  | off, (p, n) :: rest =>
    match err p with
    | some d => some (off, d)
    | none => rowLost err (off + n) rest

/-- The words that a row's blocks cover, none in error: lines they cover leave the damaged list (R392). -/
def rowWords (bs : List (Place × Nat)) : List (Place × Option Nat) :=
  bs.flatMap fun b => (List.range (b.2 / 4)).map fun i => (b.1.plus (4 * i), none)

/-- An operation before a TSTORE has still to fetch from a block that a row covers, or to read a scale there: that read
comes first (R100). -/
def State.fetchesFrom (s : State) (cl : Nat) (before : List EngSlot) (bs : List (Place × Nat)) : Bool :=
  let c := s.cluster cl
  before.any fun e =>
    ((List.range 8).any fun n => e.op.uses n && (match c.walk n with
      | some w => decide (w.data.length < w.tiles) &&
          w.places.any fun x => bs.any fun b => x.2.2.meets x.2.1 b.1 b.2
      | none => false))
    || (s.scaleAddrsLeft cl e).any fun a => match s.scalePlace cl a with
      | some p => bs.any fun b => p.meets 4 b.1 b.2
      | none => false

/-- The n-th operation is a TSTORE whose next row lies below W, and nothing that the row covers is read by an
operation before it or waits (R82, R100, R193, R206, R311). -/
def State.tstoreReady (s : State) (cl n : Nat) (e : EngSlot) : Bool :=
  let c := s.cluster cl
  match e.op with
  | .tstore td _ _ rows =>
    let bs := rows.getD e.step []
    decide (e.step < (c.tile td).w) && !s.fetchesFrom cl (c.engine.take n) bs && bs.all fun b => !s.unitWaits b.1 b.2
  | _ => false

/-- The first TSTORE of a cluster that can store a row. -/
def State.nextTstore (s : State) (cl : Nat) : Option (Nat × EngSlot) :=
  ((s.cluster cl).engine.zipIdx.find? fun (e, n) => e.started && s.tstoreReady cl n e).map fun (e, n) => (n, e)

/-- A place to which a write is not made: no access reaches it. -/
def Place.nowhere : Place := .removed 0 0

/-- The n-th operation of a cluster, a TSTORE, stores its next row; a block that err gives an error ends the routine with an
MCHECK, and may not have been written (R311, R390, R391, log 6). -/
def State.tstoreStep (s : State) (cl n : Nat) (e : EngSlot) (err : Place → Option Nat) : State :=
  match e.op with
  | .tstore td addr pitch rows =>
    let bs := rows.getD e.step []
    let stored := if Config.lostWritePerformed s.fresh then bs
      else bs.map fun b => if (err b.1).isSome then (Place.nowhere, b.2) else b
    let s0 := { s with fresh := s.fresh + 128 }
    let s1 := (s0.storeRow ((s.cluster cl).tile td) s.fresh e.step 0 stored).copyDamage (rowWords stored)
    let s2 := (if e.step + 1 < rows.length then s1.stepOp cl n else s1.endOp cl n).unpinAll
    match rowLost err 0 bs with
    | some (o, d) => s2.engineTrap cl ⟨.mcheck, d, w64 (addr + e.step * pitch + o), 0⟩
    | none => s2
  | _ => s

/-- TSTORE_ROW: a row is stored once W passes it; a block that is lost meanwhile gives the routine an MCHECK (R311,
R390, R391). -/
def execTstoreRow (s : State) : Host.Outcome State Fault Refusal :=
  let cl := s.arg 0
  .next (if s.engineStopped cl then s else
    match s.nextTstore cl with
    | none => s
    | some (n, e) => s.tstoreStep cl n e s.lostAt)

/-! ### Rows read by groups (R15, R166, R303, R304) -/

/-- The value of element c of a row, zero where it is damaged (R391, R393). -/
def Tile.readElem (t : Tile) (r c : Nat) : Nat := if t.bad.contains (r * 128 + c) then 0 else t.elem r c

/-- Some element of the row is damaged. -/
def Tile.rowBad (t : Tile) (r : Nat) : Bool := t.bad.any fun i => i / 128 == r

/-- The lanes of the two registers of a TRD (R153). -/
def rowFills (t : Tile) (q : TrdReq) : List Fill :=
  [.lanes q.vd q.mask ((List.range 96).map fun k => w32 (t.readElem q.row k)) t.tag,
   .lanes (q.vd + 1) q.mask
    ((List.range 96).map fun k => if k < 32 then w32 (t.readElem q.row (96 + k)) else 0) t.tag]

/-- The row of a TRD lies below its tile's W. -/
def State.trdReady (s : State) (q : TrdReq) : Bool := decide (q.row < ((s.cluster q.cl).tile q.tile).w)

/-- TRD_SERVE: the oldest request whose row lies below W (R15, R151, R153). -/
def execTrdServe (s : State) : Host.Outcome State Fault Refusal :=
  .next (s.complete (fun f => match f with
      | .trd w q => if s.trdReady q then some (w.tid, q) else none
      | _ => none)
    fun s (tid, q) =>
      let t := (s.cluster q.cl).tile q.tile
      let e : Option MCheck := if t.rowBad q.row then some ⟨q.armB, 0, 0, 1, s.clock⟩ else none
      (s.fills tid (rowFills t q)).pendMcheck tid e)

/-- acc × scale + bias with one rounding (R166). -/
def drainSum (c : RCtx) (tag acc scale bias : Nat) : Nat :=
  match readElem tag acc, fp32.read bias with
  | .nan _ _ x, _ => (fmtOf tag).convertNan fp32 x c.pc
  | _, .nan _ _ x => fp32.quieten x
  | va, vb =>
    match mulVals va (fp32.read scale) with
    | some v => fp32.addVals c v vb
    | none => fp32.newNan .zeroinf c.pc

/-- ACT of an FP32 value (R304): none, relu, tanh. -/
def drainAct (c : RCtx) (act y : Nat) : Nat :=
  match act with
  | 1 => reluElem 6 y
  | 2 => fp32.tanh c y
  | _ => y

/-- An element as TDRAIN stores it (R166, R140). -/
def drainElem (c : RCtx) (d : Drain) (tag acc col : Nat) : Nat :=
  let scale := (d.scales.getD col 0).toNat
  if !validScale scale then scaleNan d.otype c.pc
  else
    let y := drainAct c d.act (drainSum c tag acc scale (d.biases.getD col 0).toNat)
    if d.otype = 6 then y else toElem c 6 d.otype (fp32.read y)

/-- The places of a drain's next row can be stored to (R82, R99, R193, R206). -/
def State.drainClear (s : State) (d : Drain) : Bool :=
  let ps := d.rows.getD d.row []
  !s.unitsWait ps 4 && ps.all fun p => !s.engineOwns p 4

/-- The error of the first element of a drain's next row whose place a test gives one (R390, R391). -/
def Drain.lost (d : Drain) (armB : Bool) (now : W64) (err : Place → Option Nat) : Option MCheck :=
  (d.rows.getD d.row []).zipIdx.findSome? fun (p, c) => (err p).map fun x =>
    ⟨armB, w64 (d.dest + d.row * d.pitch + c * elemSize d.otype), 0, x, now⟩

/-- An arm with a TDRAIN whose next row lies below W: thread, arm, drain. -/
def State.drainReady (s : State) : Option (Nat × Bool × Drain) :=
  s.threads.findSome? fun g =>
    let f (b : Bool) : Option (Nat × Bool × Drain) :=
      let a := g.arm b
      match a.drain with
      | some d =>
        if a.occ && a.ws == .tdrain && decide (d.row < d.rows.length) && g.resident &&
            decide (d.row < ((s.cluster d.cl).tile d.tile).w) && s.drainClear d then some (g.tid, b, d)
        else none
      | none => none
    match f false with
    | some x => some x
    | none => f true

/-- A row of TDRAIN stored to places. -/
def State.drainRow (s : State) (g : Group) (armB : Bool) (d : Drain) (ps : List Place) : State :=
  let t := (s.cluster d.cl).tile d.tile
  let a := g.arm armB
  let c : RCtx := ⟨0, modeSat a.mode, a.pc.toNat, 0⟩
  let z := elemSize d.otype
  let hits : List Hit := ps.map fun p => ⟨0, p, p, none, 0⟩
  (ps.zipIdx.foldl (fun s (p, col) =>
    (s.wakeFor p).storeAt p z (drainElem c d t.tag (t.readElem d.row col) col)) s).clearCovered
    z hits

/-- An arm's TDRAIN stores its next row, transformed; after the last the instruction completes. A place that err gives an
error may not have been written (R166, R390, R391, log 6). -/
def State.drainStep (s : State) (tid : Nat) (armB : Bool) (d : Drain) (err : Place → Option Nat) : State :=
  match s.thread tid with
  | none => s
  | some g =>
    let t := (s.cluster d.cl).tile d.tile
    let e : Option MCheck := if t.rowBad d.row then some ⟨armB, 0, 0, 1, s.clock⟩ else none
    let ps := d.rows.getD d.row []
    let stored := if Config.lostWritePerformed s.fresh then ps
      else ps.map fun p => if (err p).isSome then Place.nowhere else p
    ((((s.drainRow g armB d stored).tick).pendMcheck tid e).pendMcheck tid (d.lost armB s.clock err)).modThread tid fun g =>
      g.mapArm armB fun a =>
        let a1 := { a with drain := some { d with row := d.row + 1 }, waux := w32 (d.row + 1) }
        if d.row + 1 < d.rows.length then a1 else a1.resume

/-- TDRAIN_ROW: one row transformed and stored; after the last the instruction completes (R166). -/
def execTdrainRow (s : State) : Host.Outcome State Fault Refusal :=
  .next (match s.drainReady with
    | none => s
    | some (tid, armB, d) => s.drainStep tid armB d s.lostAt)

end Sys2Proof.Machine
end

