-- ==== Sys2Proof/Machine/Image.lean ====
section
/-!
DEFINITION. What firmware imports of a save image beside the group records: cluster records, barrier slots and skein
records, from device memory or another machine's (R126, R150, R176, R294, R370). The spec says what these records hold and
gives no layout of a cluster record or of a barrier's; the model reads its own (DESIGN CHOICE, log 15).
-/

namespace Sys2Proof.Machine

/-- n bytes at an offset of a record. -/
abbrev Reader := Nat → Nat → Nat

/-- The record at an address of a save image (log 15). -/
def State.reader (s : State) (a : Nat) : Reader := fun o n => s.loadAt ((savePlace a).plus o) n

/-! ### Cluster records (R124, R126, R150) -/

/-- A reservation, 64 bytes: it arrives now, with a number of its own and the values its region has now. -/
def State.readResv (s : State) (f : Reader) (id o : Nat) : Resv where
  id := id
  who := ⟨f o 8, ⟨bitAt (f (o + 0x13) 1) 0, bitAt (f (o + 0x13) 1) 1⟩⟩
  reg := .ofS (f (o + 0x15) 1 == 1) (f (o + 0x14) 1)
  n := f (o + 0x10) 2
  arg := w64 (f (o + 8) 8)
  prio := f (o + 0x12) 1
  arrival := s.clock
  slot := f (o + 0x16) 1
  region := f (o + 0x18) 4
  eff := s.effVals (f (o + 0x18) 4) (f (o + 0x2C) 1 == 1)
  rank := w32 (f (o + 0x1C) 4)
  ngroups := w32 (f (o + 0x20) 4)
  launchId := w32 (f (o + 0x24) 4)
  nbidx := w32 (f (o + 0x28) 4)
  bind := false

/-- A tile: 16 bytes at h, its 64 KiB at b (R150). -/
def readTile (f : Reader) (h b : Nat) : Tile where
  cells := Memory.empty.putBytes 0 ((List.range 65536).map fun i => BitVec.ofNat 8 (f (b + i) 1))
  tag := f (h + 4) 1
  w := f (h + 6) 2
  owner := if f h 4 = 0xFFFFFFFF then none else some (f h 4)
  busy := f (h + 5) 1 == 1
  vr := f (h + 8) 2
  vc := f (h + 10) 2
  bad := []

/-- The registers and the PC of a sequencer: its arm's block, s0 to s47 and their full bits (R45, R149). -/
def readSeq (m : Memory) (k : Nat) (cl : Nat) (r : Resv) : Group :=
  { seqGroup cl r 0 with
    s := readWords m (k + 0x180) 48
    sfull := BitVec.ofNat 64 (m.rd (k + 0x240) 8 % 2 ^ 48 + (2 ^ 16 - 1) * 2 ^ 48)
    armA := readArm m false (k + 0x80) 0 }

/-- The state in which a cluster's sequencer resolves an address: the cluster and the sequencer as the record has them. -/
def State.atRoutine (s : State) (cl : Nat) (c : Cluster) (g : Group) : State :=
  { (s.modCluster cl fun _ => c) with cur := g, others := s.threads }

/-- Tiles of a walk fetched anew, n of them from the first on. -/
def State.refetch (s : State) (bound : Bool) (w : Walk) : Nat → State × Walk
  | 0 => (s, w)
  | k + 1 =>
    let (s1, w1) := s.refetch bound w k
    let (s2, w2) := s1.fetchLines w1 (w1.newLines bound k)
    (s2, { w2 with data := w2.data ++ [w2.fetchTile bound k] })

/-- A walk slot, 128 bytes at o, the second half a copy of its descriptor: the places are resolved and the tiles read
again; none where they cannot be. -/
def State.readWalk (s : State) (p : Place) (bound : Bool) (o : Nat) : Option (State × Option Walk) :=
  let f : Reader := fun o n => s.loadAt (p.plus o) n
  let flags := f o 4
  let d := s.walkDesc (p.plus (o + 64))
  if !bitAt flags 0 then some (s, none)
  else
    match s.walkTensor d with
    | .error _ => none
    | .ok tensor =>
      match s.walkPlaces ((d.walk tensor []).spans bound) with
      | .ok hs [] =>
        let (s1, w) := s.refetch bound (d.walk tensor (hs.map fun h => (h.addr.toNat, h.lane, h.lo))) (f (o + 8) 4)
        some (s1, some { w with
          committed := bitAt flags 1, permits := f (o + 4) 4, delivered := f (o + 0xC) 4, consumed := f (o + 0x10) 4 })
      | _ => none

/-- Walk slots in order. -/
def State.readWalks (s : State) (p : Place) (bound : Bool) : List Nat → Option (State × List (Option Walk))
  | [] => some (s, [])
  | o :: rest =>
    match s.readWalk p bound o with
    | none => none
    | some (s1, w) => (s1.readWalks p bound rest).map fun x => (x.1, w :: x.2)

/-- An engine operation, 64 bytes at o, with the passes or rows that it has done; the blocks of a TSTORE are resolved
again, and a TLOAD's bytes lie in the image. None where they cannot be. -/
def State.readOp (s : State) (f : Reader) (o : Nat) : Option EngSlot :=
  let td := f (o + 4) 1
  let tag := f (o + 7) 1
  let x := f (o + 0x18) 8
  let op : Option EngOp := match f o 1 with
    | 0 => some (.mma td (f (o + 5) 1) (f (o + 6) 1) x (w32 (f (o + 0x14) 4)) (bitAt (f (o + 3) 1) 0))
    | 1 => some (.fill td tag (w32 (f (o + 0x14) 4)))
    | 2 => some (.tload td tag (readTile f 0 x).cells)
    | _ => match s.tileHits .store x (f (o + 0x30) 4) with
      | .ok hs [] => some (.tstore td x (f (o + 0x30) 4) (rowsOf 4096 0 [] (hs.map fun h => (h.lo, h.lane))))
      | _ => none
  op.map fun op =>
    ⟨op, bitAt (f (o + 1) 1) 0, f (o + 0xC) 4, f (o + 8) 2, f (o + 10) 2, bitAt (f (o + 2) 1) 0, f (o + 0x10) 4,
      w64 (f (o + 0x20) 8), w64 (f (o + 0x28) 8), []⟩

/-- A cluster without its walks and operations, as its record at an address has it. -/
def State.readUnit (s : State) (a : Nat) : Cluster :=
  let f := s.reader a
  let flags := f 0 1
  { Cluster.reset with
    running := bitAt flags 0
    msigDone := bitAt flags 1
    ending := bitAt flags 2
    scaled := bitAt flags 3
    clustUsed := bitAt flags 4
    req := s.readResv f s.fresh 0x400
    tiles := (List.range 16).map fun i => readTile f (0x250 + 16 * i) (0x4000 + 65536 * i)
    optable := (List.range 16).map fun i => w32 (f (0x40 + 4 * i) 4)
    resv := (List.range (f 1 1)).map fun i => s.readResv f (s.fresh + 1 + i) (0x440 + 64 * i)
    vr := f 4 2
    vc := f 6 2
    scaleA := w64 (f 0x10 8)
    scaleB := w64 (f 0x18 8)
    bound := (List.range (f 3 1)).map fun i => f (0x20 + i) 1 }

/-- The cluster record at an address of an image, of a region's subtree: the sequencer's routine, tiles, reservations,
walks and engine operations (R124, R126); none where an address of its walks or operations cannot be resolved yet. -/
def State.readCluster (s : State) (root a : Nat) : Option (State × ClusterRec) :=
  let p := savePlace a
  let f := s.reader a
  let cl := f 8 1
  let u := s.readUnit a
  let (m, k) := s.memOf p
  let g := readSeq m k cl u.req
  let s0 := { s with fresh := s.fresh + 17 }
  if !u.running then some (s0, ⟨cl, root, none, u⟩)
  else
    match (s0.atRoutine cl u g).readWalks p u.clustUsed ((List.range 8).map fun i => 0x840 + 128 * i) with
    | none => none
    | some (s1, ws) =>
      match (List.range (f 2 1)).mapM fun i => (s.atRoutine cl u g).readOp f (0xC40 + 64 * i) with
      | none => none
      | some es => some ({ s0 with fresh := s1.fresh }, ⟨cl, root, some g, { u with walks := ws, engine := es }⟩)

/-- The token registers of a thread's requests that the clusters and their records hold (R147, R148). -/
def State.tokensOwed (s : State) (tid : Nat) : List RegId :=
  ((s.clusters.flatMap fun c => (if c.running && !c.msigDone then [c.req] else []) ++ c.resv)
    ++ s.clusterRecs.flatMap fun x => (if x.unit.running && !x.unit.msigDone then [x.unit.req] else []) ++ x.unit.resv).filterMap
    fun r => if r.who.tid = tid then some r.reg else none

/-- A cluster record imported: it is restored as one that this device wrote, and an MSIG of it will fill the token
registers that it names (R126, R148, R370). -/
def State.importCluster (s : State) (root a : Nat) : State :=
  match s.readCluster root a with
  | some (s1, x) =>
    x.requests.foldl (fun s r => s.modThread r.who.tid fun g =>
      if g.full r.reg || g.pend.contains r.reg then g else { g with pend := g.pend ++ [r.reg] })
      { s1 with clusterRecs := s1.clusterRecs ++ [x] }
  | none => s

/-! ### Barrier slots and skein records (R124, R168, R176, R294) -/

/-- The barrier slot and the phases of a saved group, as a record at an address has them (R124, R294). -/
def State.importBars (s : State) (a : Nat) : State :=
  let f := s.reader a
  s.modThread (f 0 8) fun g =>
    if g.resident then g
    else { g with
      bar := ⟨f 8 4, f 0xC 4, f 0x10 4, f 0x14 4, f 0x18 4, f 0x1C 4⟩
      phases := (List.range 24).map fun i => f (0x20 + 4 * i) 4 }

/-- The skein record of an object, 64 bytes at an address, in the skein area; the skein home reads it there when it next
needs it, and the subtrees that it kept from resuming wait for it no more (R168, R169, R176). -/
def State.importSkein (s : State) (oid a : Nat) : State :=
  if s.bases.skeinCount ≤ oid then s
  else
    let p := savePlace a
    let copy (s : State) (i : Nat) : State := s.storeDev (s.skeinAt oid + 8 * i) 8 (s.loadAt (p.plus (8 * i)) 8)
    { (List.range 8).foldl copy s with
      skeins := s.skeins.filter fun r => r.oid != oid
      imports := s.imports.filter fun x => x.2 != oid }

end Sys2Proof.Machine
end

