-- ==== Sys2Proof/Machine/Swap.lean ====
section
/-!
DEFINITION. Groups placed, swapped, resumed, pre-empted and ended: the dispatcher's other events (R36, R43
to R48, R104, R113, R115, R123 to R126, R150, R248, R249, R296, R370, R378 to R382, R422).
-/

namespace Sys2Proof.Machine

/-! ### Units and their swap (R43, R104, R113) -/

/-- The groups swapped with a group: its neighbourhood, its COR launch, or itself (R43). -/
def State.unitOf (s : State) (g : Group) : List Group :=
  s.threads.filter fun m => m.seq.isNone &&
    (m.tid == g.tid || (m.launchId == g.launchId &&
      ((g.info.nbh && m.info.nbh && m.info.lead == g.info.lead) || (g.info.cor && m.info.cor))))

/-- The swap of a unit begins: its names are MIGRATING and its atomic buffers drain. A unit of several groups that
gives way to a higher priority goes whole, its routines with it (R43, R52, R104, R113, R123). -/
def State.startSwap (s : State) (g : Group) (whole : Bool := false) : State :=
  (s.unitOf g).foldl (fun s m =>
    if m.resident && !m.migrating then
      ((s.setName { s.nameEntry m.tid with state := .migrating }).modThread m.tid fun m =>
        { m with migrating := true, evicted := whole && (m.info.cor || m.info.nbh) }).flush m.tid
    else s) s

/-- The thread whose operation is in flight and completes in a drain; a copy stands at a line boundary instead (R124,
R299). -/
def Flight.drains : Flight → Option Nat
  | .load w _ _ _ | .atomic w _ _ _ | .store w _ | .maint w | .ack w _ _ | .joinValue w _ _ | .skeinBind w _ _
  | .scopewAttach w _ _ _ | .scopewDone w _ _ | .takeItem w _ _ _ | .post w _ _ | .trd w _ => some w.tid
  | .sfu t _ | .skeinAlloc t _ _ _ _ _ | .indAlloc t _ _ _ | .hinfo t _ _ | .skeinReply t _
  | .watchInstall t _ _ _ | .watchQuery t _ _ | .unwatch t _ _ _ | .arrive t _ _ _ _ | .drain t
  | .fbread t _ | .coh t _ _ _ _ _ _ | .tlbinv t _ _ _ _ | .halt t _ _ => some t
  | .skeinDrop w _ _ => w.map (·.tid)
  | .redApply c => some c.who.tid
  | .nameOp op => op.who.map (·.tid)
  | _ => none

/-- The operation cannot start, so that a save records it as not started: a TRD whose row does not lie below W, a
name operation that the name home refuses (R45, R62, R124). -/
def State.notStarted (s : State) (f : Flight) : Bool :=
  match f with
  | .trd _ q => !s.trdReady q
  | .nameOp op => s.refused op
  | _ => false

/-- The arm has an instruction that only completes. -/
def Arm.completing (a : Arm) : Bool := a.occ && (a.ws == .arriving || a.finishing)

/-- Nothing of the thread is under way that a drain completes; its LAUNCHes have reached the hub (R98, R104, R124). -/
def State.drainedOf (s : State) (tid : Nat) : Bool :=
  !(s.flight.any fun f => f.drains == some tid && !s.notStarted f) && !(s.plq.any fun x => x.who.tid == tid)
    && !((s.abuf ++ s.redq).any fun c => c.who.tid == tid)
    && (match s.thread tid with
      | some g => !g.armA.completing && !g.armB.completing
      | none => true)

/-- The unit of a group may be swapped: every member resident, none on its way (R43). -/
def State.swappable (s : State) (g : Group) : Bool :=
  (s.unitOf g).all fun m => m.resident && !m.migrating && m.exiting.isNone

/-- Every occupied arm has waited at least a number of cycles (R43). -/
def Group.waitedFor (g : Group) (now : W64) (thr : Nat) : Bool :=
  let f (a : Arm) : Bool := !a.occ || decide (thr ≤ (now - a.since).toNat)
  g.waits && f g.armA && f g.armB

/-- A STAGE group waits in TAKE. -/
def Group.inTake (g : Group) : Bool :=
  g.info.stage && ((g.armA.occ && g.armA.ws == .take) || (g.armB.occ && g.armB.ws == .take))

/-- The threshold swaps the group's unit now (R43). -/
def State.thresholdDue (s : State) (g : Group) : Bool :=
  g.seq.isNone && s.swappable g && (s.unitOf g).all fun m =>
    m.eff.swapthr != 0 && !m.hold && !m.inTake && m.waitedFor s.clock m.eff.swapthr

/-- SWAP_THRESHOLD (R43). -/
def execSwapThreshold (s : State) : Host.Outcome State Fault Refusal :=
  .next (match s.thread (s.arg 0) with
    | some g => if s.thresholdDue g then s.startSwap g else s
    | none => s)

/-- The younger, lower-priority of two groups (R113). -/
def Group.yields (g h : Group) : Bool :=
  decide (h.info.prio < g.info.prio) || (g.info.prio == h.info.prio &&
    (decide (h.launchId.toNat < g.launchId.toNat) ||
      (g.launchId == h.launchId && decide (h.rank.toNat < g.rank.toNat))))

/-- The younger, lower-priority of a list that satisfies a test. -/
def youngest (p : Group → Bool) (gs : List Group) : Option Group :=
  (gs.filter p).foldl (fun v g => match v with
    | none => some g
    | some h => if g.yields h then some g else some h) none

/-- Room and budgets apart, the launch could place its next rank on cores with that of a group: only a slot lacks
there (R113). -/
def State.lacksSlot (s : State) (x : Started) (g : Group) : Bool :=
  let k := x.ask
  let c := (g.loc.die, g.loc.x, g.loc.y)
  let ok (cs : List (Nat × Nat × Nat)) : Bool := cs.contains c && cs.all (s.coreOpen k) && s.coresOk k cs
  (s.saveRoom x.saveBase x.saveSize (recordBytes x.launch.vregs x.launch.spad)).isSome &&
    (if x.launch.nbh then
        (origins k.w k.h).any fun (d, x0, y0) => ok (rectangle k.w k.h d x0 y0)
      else (match s.affDie x x.next with
        | some d => c.1 == d
        | none => true) && ok [c])

/-- The resident group of strictly lower priority that gives way to a launch (R113). -/
def State.victim (s : State) (x : Started) : Option Group :=
  youngest (fun g => g.seq.isNone && g.resident && decide (x.prio < g.info.prio) && s.swappable g && s.lacksSlot x g)
    s.threads

/-! ### Placing (R112, R113) -/

/-- A group whose arms wait, one of them after a YLD, and that is swapped on its own (R43, R248). -/
def Group.yielded (g : Group) : Bool :=
  g.seq.isNone && g.resident && !g.info.cor && !g.info.nbh && g.waits
    && ((g.armA.occ && g.armA.ws == .yld) || (g.armB.occ && g.armB.ws == .yld))

/-- A yielded group in whose slot a rank of its priority or a higher one could stand (R248). -/
def State.yielder (s : State) (x : Started) : Option Group :=
  s.threads.find? fun g => g.yielded && decide (x.prio ≤ g.info.prio) && s.swappable g && s.lacksSlot x g

/-- A launch of the group's priority or a higher one waits for a placement that includes its core (R248). -/
def State.pressed (s : State) (g : Group) : Bool :=
  (s.waiting.any fun l =>
    decide (s.launchPrio l ≤ g.info.prio) && bitAt (s.eff l.region .placeset) g.loc.cluster)
  || s.unplaced.any fun x => decide (x.prio ≤ g.info.prio) && bitAt x.eff.placeset g.loc.cluster

/-- Some group is on its way out already. -/
def State.swapping (s : State) : Bool := s.threads.any (·.migrating)

/-- The first launch that can place a rank does; one that cannot asks a lower-priority group, else a yielded
one, to go (R113, R248). -/
def State.placeFrom (s : State) : List Started → State
  | [] => s
  | x :: rest =>
    match s.placeNext x with
    | some s1 => { s1 with started := s1.started.filter fun y => decide (y.next < y.launch.groups) }
    | none =>
      match s.victim x with
      | some g => if s.swapping then s.placeFrom rest else s.startSwap g true
      | none =>
        match s.yielder x with
        | some g => if s.swapping then s.placeFrom rest else s.startSwap g
        | none => s.placeFrom rest

/-- RANK_PLACE (R113). -/
def execRankPlace (s : State) : Host.Outcome State Fault Refusal := .next (s.placeFrom s.unplaced)

/-! ### Saving (R43, R44, R52, R62, R380) -/

/-- An operation that has not started, as the record holds it (R45): the a operand is the target, the b operand a
signal number, a value, a word or a row. -/
def Flight.recOp : Flight → Option RecOp
  | .trd _ q => some ⟨q.issued.1, q.issued.2, q.armB, 0, w64 q.row, 0, q.mask⟩
  | .nameOp op =>
    let b : W64 := match op.kind with
      | .sig n => w64 n
      | .depo _ v => v.setWidth 64
      | .ngrant v | .nrevoke v => v.setWidth 64
      | _ => 0
    some ⟨op.issued.1, op.issued.2, !op.arms.a, w64 op.target, b, 0, BitVec.allOnes 96⟩
  | _ => none

/-- What of a group's is in flight and has not started goes into its record, in issue order, behind what it has not
reissued yet; so do the posted operations that the name home holds for it, which have taken no effect, the last of them
where the record has no room for all (R45, R62, R104, R124; DEDUCED, log 13). -/
def State.recordOps (s : State) (g : Group) : State × Group :=
  let mine (f : Flight) : Bool := f.drains == some g.tid && s.notStarted f
  let ops := s.hold.filter fun op => op.src == .group g.tid && !op.kind.isJoin
  let room := 16 - g.recs.length - (s.flight.filter mine).length
  let back := ops.drop (ops.length - room)
  ({ s with flight := s.flight.filter fun f => !mine f, hold := s.hold.filter fun op => !back.contains op },
   { g with recs := g.recs ++ (back.map Flight.nameOp ++ s.flight.filter mine).filterMap Flight.recOp })

/-- A record cannot be written: the group stays resident and halted, with a DEVICE fault (R380). -/
def State.saveFails (s : State) (g : Group) : State :=
  ((s.modThread g.tid fun g => { g with migrating := false, evicted := false, preempted := false }).publish g.tid
    g.loc).regionFault (.plain .device g.region g.tid 1 g.saveRec) [g.tid]

/-- A cluster record with damaged tiles marks the requesters whose routines it holds (R381). -/
def State.markDamaged (s : State) (x : ClusterRec) : State :=
  if x.unit.tiles.any fun t => !t.bad.isEmpty then
    x.requests.foldl (fun s r =>
      (s.modThread r.who.tid fun g => { g with damaged := true }).syncRecord r.who.tid) s
  else s

/-- Cluster records written, their damage marked (R124, R381). -/
def State.saveClusters (s : State) (region : Nat) (p : Resv → Bool) (q : Nat → Tile → Bool) : State :=
  let s1 := s.recordClusters region p q
  (s1.clusterRecs.drop s.clusterRecs.length).foldl State.markDamaged s1

/-- The routines of a unit that is swapped out whole, and the tiles that they have left on its clusters, go into cluster
records once its last member is saved (R113, R123, R124). -/
def State.saveUnit (s : State) (g : Group) : State :=
  let u := s.unitOf g
  if !g.evicted || u.any (·.resident) then s
  else
    (u.foldl (fun s m => s.modThread m.tid fun m => { m with evicted := false }) s).saveClusters g.region
      (fun r => u.any fun m => m.tid == r.who.tid)
      (fun cl t => t.owner == some g.region && u.any fun m => m.loc.cluster == cl)

/-- A SWAPOUT that waits for the group has seen it SAVED: it is complete, whatever becomes of the group then (R341). -/
def State.sawSaved (s : State) (tid : Nat) : State :=
  { s with flight := s.flight.map fun f => match f with
      | .swapout t d target => .swapout t d (if target = tid then 0 else target)
      | f => f }

/-- The group's record is written and its slot free; an evicted unit's routines go into cluster records (R43, R45,
R113, R123, R124). -/
def State.saveGroup (s : State) (g : Group) : State :=
  if s.saveLost g.saveRec then s.saveFails g
  else
    let (s0, g0) := s.recordOps g
    let g1 := { g0 with resident := false, migrating := false, damaged := g.damaged || !g.bad.isEmpty }
    let s1 := (s0.modThread g.tid fun _ => g1).writeRecord g1
    let e := s1.nameEntry g.tid
    let s2 := ((s1.setName { e with state := .saved, loc := g.saveRec, pending := 0 }).release g.tid).settleGrants
    (s2.sawSaved g.tid).saveUnit g

/-- The routines of an evicted unit have nothing under way (R123, R124). -/
def State.routinesDrained (s : State) (g : Group) : Bool :=
  !g.evicted || (List.range 144).all fun cl =>
    let c := s.cluster cl
    !(c.running && (s.unitOf g).any fun m => m.tid == c.req.who.tid) || s.drainedOf (seqTid cl)

/-- A copy of the thread is under way; a swap waits for it (R104, R299). -/
def State.copying (s : State) (tid : Nat) : Bool := s.flight.any fun f => match f with
  | .copy t _ => t == tid
  | _ => false

/-- The record of a group that is swapped out can be written: it and the routines that go with it have nothing under way
(R104, R124). -/
def State.saveReady (s : State) (g : Group) : Bool :=
  g.migrating && g.resident && !s.saving g.region && s.drainedOf g.tid && !s.copying g.tid && s.routinesDrained g

/-- SAVE_COMPLETE: the last byte of a swap's record is written (R43, R52, R62). -/
def execSaveComplete (s : State) : Host.Outcome State Fault Refusal :=
  .next (match s.thread (s.arg 0) with
    | some g => if s.saveReady g then s.saveGroup g else s
    | none => s)

/-! ### Resuming (R46, R58, R126, R338, R381, R382) -/

/-- Signals received while saved join the pending bits (R58). -/
def Group.mergePending (g : Group) (p : W32) : Group := { g with sigPend := g.sigPend ||| p }

/-- The parked arms of a thread replay. -/
def Group.replayParked (g : Group) : Group :=
  { g with armA := g.armA.replayParked, armB := g.armB.replayParked }

/-- Waits that have been satisfied meanwhile end: SLEEP, SIGW, YLD; parked arms replay (R14, R58, R248,
R338). -/
def Group.awaken (g : Group) : Group :=
  let g1 := if g.wakePend then
      match g.firstWaiter fun a => a.ws == .sleep with
      | some b => { g with wakePend := false }.mapArm b Arm.resume
      | none => g
    else g
  let g2 := g1.serveSignal.serveSignal
  let f (a : Arm) : Arm :=
    if !a.occ then a
    else if a.ws == .yld then { a with ws := .ready }
    else if a.ws == .parked then a.replayParked
    else a
  { g2 with armA := f g2.armA, armB := f g2.armB }

/-- The clock of an arm's present state begins again. -/
def Arm.restart (a : Arm) (now : W64) : Arm := { a with since := now }

/-- Priority of a placed group as its region and queue now give it (R29, R108). -/
def State.groupPrio (s : State) (g : Group) : Nat :=
  let p := s.eff g.region .prio
  let p1 := match g.info.prioField with
    | some q => maxN q p
    | none => p
  match g.info.hostq with
  | some q => maxN (s.mem.rd (s.sqAt q + 0xE) 1 % 8) p1
  | none => p1

/-- A copy of a group that resumes goes on in a slot of the scheduler that the group now has (R126, R299). -/
def Flight.onScheduler (tid : Nat) (loc : CoreLoc) : Flight → Flight
  | .copy t j => .copy t (if t = tid then { j with core := loc.core, sched := loc.sched } else j)
  | f => f

/-- A saved group is resident again on a core, its name MIGRATING until the new place is published; its state is as it
was saved, what it drains it drains from the new cluster, and a hold that stands on another cluster has ended (R46, R52,
R118, R304, R360, R382). -/
def State.resumeOn (s : State) (g : Group) (win : W64) (loc : CoreLoc) : State :=
  let e := s.nameEntry g.tid
  let s0 := s.setName { e with state := .migrating }
  let arm (a : Arm) : Arm := { a with
    since := s.clock, age := 0, turned := false
    drain := a.drain.map fun d => { d with cl := loc.cluster }
    holds := a.holds.filter fun h => h.cl == loc.cluster }
  let s1 := ({ s0 with flight := s0.flight.map (Flight.onScheduler g.tid loc) } : State).modThread g.tid fun g =>
    let g1 := ({ g with
      resident := true, preempted := false, loc := loc, spwin := win
      eff := s.effVals g.region g.info.det
      info := { g.info with prio := s.groupPrio g }
      armA := arm g.armA, armB := arm g.armB }).mergePending e.pending
    g1.awaken
  (s1.takeGrant g.info.mtx loc.cluster).publish g.tid loc

/-- What the placement of a saved group asks for. -/
def State.askOf (s : State) (g : Group) : Ask :=
  ⟨s.eff g.region .placeset, s.groupPrio g, false, g.info.mtx, s.capsNow g.region, g.vregs, g.spadKiB, g.info.w,
   g.info.h⟩

/-- The members of a unit on the cores given. -/
def State.resumeMembers (s : State) (win : Option W64) : List (Group × (Nat × Nat × Nat)) → State
  | [] => s
  | (g, c) :: rest =>
    match s.freeSlot c with
    | some slot =>
      let loc : CoreLoc := ⟨c.1, c.2.1, c.2.2, slot⟩
      (s.resumeOn g (win.getD (spwinOf loc)) loc).resumeMembers win rest
    | none => s.resumeMembers win rest

/-- The groups of a unit resumed one after the other on ordinary cores; none when one finds no core. -/
def State.resumeEach (s : State) : List Group → Option State
  | [] => some s
  | g :: rest =>
    match s.ordinaryCore (s.askOf g) none with
    | some c => (s.resumeMembers none [(g, c)]).resumeEach rest
    | none => none

/-- The neighbourhoods of a unit resumed one after the other, each whole on a rectangle of its own (R18, R34, R46);
none when one finds no rectangle. -/
def State.resumeNbhs (s : State) (u : List Group) : List Nat → Option State
  | [] => some s
  | lead :: rest =>
    match u.filter fun m => m.info.lead == lead with
    | [] => s.resumeNbhs u rest
    | g :: ms =>
      match s.nbhCores (s.askOf g) with
      | some (c :: cs) =>
        let at_ (m : Group) : Nat × Nat × Nat := (c :: cs).getD m.nbidx.toNat c
        (s.resumeMembers (some (spwinOf ⟨c.1, c.2.1, c.2.2, 0⟩)) ((g :: ms).map fun m => (m, at_ m))).resumeNbhs u rest
      | _ => none

/-- A unit resumed whole (R43, R46). -/
def State.resumeUnit (s : State) (u : List Group) : Option State :=
  if u.any (·.info.nbh) then s.resumeNbhs u (u.map (·.info.lead)).eraseDups else s.resumeEach u

/-- A group with a damaged record is stopped instead, its entry SAVED (R381). -/
def State.stopDamaged (s : State) (g : Group) : State :=
  ((s.modThread g.tid fun g => { g with preempted := false }).regionFault
    (.plain .mcheck g.region g.tid 1 g.saveRec) [g.tid]).syncRecord g.tid

/-- A step of fradb is pending in the group: it does not wait (R358). -/
def State.beingStepped (s : State) (g : Group) : Bool := s.fradb.stepping.any fun x => x.1 == g.tid

/-- The wait of a saved group is satisfied: signals that wait in the name entry count for a SIGW, and a hold of fradb
does not keep a group from the step that it is to make (R46, R58, R355). -/
def State.ready (s : State) (g : Group) : Bool :=
  let g1 := g.mergePending (s.nameEntry g.tid).pending
  ({ g1 with hold := g1.hold && !s.beingStepped g } : Group).dispatchable

/-- The unit of a saved group can be resumed now: a wait in it is satisfied, or a pre-emption saved it, and then a halted
group resumes halted (R46, R126, R382); the skein records of an image are there (R176). -/
def State.resumable (s : State) (g : Group) : Bool :=
  let u := s.unitOf g
  g.seq.isNone && u.all (fun m => !m.resident && !m.migrating && !s.stopped m && !s.importWaits m.region)
    && u.any fun m => m.preempted || s.ready m

/-- GROUP_RESUME (R46, R126, R381). -/
def execGroupResume (s : State) : Host.Outcome State Fault Refusal :=
  .next (match s.thread (s.arg 0) with
    | none => s
    | some g =>
      if !s.resumable g then s
      else
        let u := s.unitOf g
        match u.find? (·.damaged) with
        | some m => s.stopDamaged m
        | none => (s.resumeUnit u).getD s)

/-- YIELD_READY: an arm released by YLD is ready at its continuation PC, unless a launch waits for the
group's place (R42, R248). -/
def execYieldReady (s : State) : Host.Outcome State Fault Refusal :=
  .next (match s.thread (s.arg 0) with
    | some g =>
      if s.pressed g then s
      else s.modThread g.tid fun g =>
        g.mapArm (s.argB 1) fun a => if a.occ && a.ws == .yld then { a with ws := .ready } else a
    | none => s)

/-! ### The end of a group (R69, R249, R296) -/

/-- Operations whose completion EXIT waits for are complete: stores, atomics, name operations with their JOINs,
LAUNCH, POST and copies of either arm, and what may still write the carry share (R175, R249). -/
def State.exitReady (s : State) (g : Group) : Bool :=
  let mine (w : Who) : Bool := w.tid == g.tid
  g.nout == 0 && !(s.plq.any fun q => mine q.who) && !((s.abuf ++ s.redq).any fun c => mine c.who) &&
    !s.joinPending g.tid false && !s.joinPending g.tid true &&
    !(s.hold.any fun op => op.src == .group g.tid) &&
    !(s.flight.any fun f => match f with
      | .store w _ | .atomic w _ _ _ | .maint w | .ack w _ _ | .post w _ _ | .joinValue w _ _ => mine w
      | .copy t _ | .drain t | .arrive t _ _ _ _ | .skeinAlloc t _ _ _ _ _ | .indAlloc t _ _ _ | .skeinReply t _ =>
        t == g.tid
      | .redApply c => mine c.who
      | .skeinDrop w _ _ => (w.map mine).getD false
      | .nameOp op => op.src == .group g.tid
      | _ => false)

/-- Name operations of a group that is lost are not delivered (R422). -/
def State.dropNameOps (s : State) (tid : Nat) : State :=
  { s with
    hold := s.hold.filter fun op => op.src != .group tid
    flight := s.flight.filter fun f => match f with
      | .nameOp op => op.src != .group tid
      | _ => true }

/-- A launch has a group, or ranks still to place. -/
def State.launchLives (s : State) (id : Nat) : Bool :=
  s.threads.any (fun m => m.launchId.toNat == id && m.seq.isNone)
    || s.started.any fun x => x.launch.id == id && decide (x.next < x.launch.groups)

/-- Another launch with groups that STAGE feeds from a queue: its id and region. -/
def State.stageUser (s : State) (q : Nat) : Option (Nat × Nat) :=
  match s.threads.find? fun m => m.seq.isNone && m.info.stage && m.info.stageq == q with
  | some m => some (m.launchId.toNat, m.region)
  | none => (s.started.find? fun x => x.launch.stage && x.launch.stageq == q && decide (x.next < x.launch.groups)).map
      fun x => (x.launch.id, x.launch.region)

/-- A stage queue whose binding launch has no group left is bound by another that it feeds, or unbound (R323). -/
def State.unbindQueue (s : State) (g : Group) : State :=
  if g.info.stage && !s.launchLives g.launchId.toNat then
    s.modStageq g.info.stageq fun x =>
      match x.bound with
      | some (l, _) => if l = g.launchId.toNat then { x with bound := s.stageUser g.info.stageq } else x
      | none => x
  else s

/-- What walks and scales have still to read of a group's part of the scratchpad is read before the part is freed
(R69). -/
def State.readSpad (s : State) (tid : Nat) : State :=
  let part (p : Place) : Bool := match p with
    | .spad t _ => t == tid
    | _ => false
  let s1 := (List.range 144).foldl (fun s cl => s.readEarly cl true part) s
  { s1 with clusterRecs := s1.clusterRecs.map fun x => { x with unit := { x.unit with
      walks := x.unit.walks.map fun w => w.map (s1.fetchEarly x.unit.clustUsed part) } } }

/-- The group leaves the machine: name DEAD, joiners served, barrier removed, its part of every reduction set closed,
resources free. -/
def State.endGroup (s : State) (g : Group) (v : W32) : State :=
  let s1 := ((((s.readSpad g.tid).discardReplies g).dropNameOps g.tid).debugForget g.tid).dropThread g.tid
  let s2 := (s1.dieName g.tid v).wakeBars g (if g.info.nbh then g.nbidx.toNat else 0) none
  let s3 := s2.modStageq g.info.stageq fun x =>
    { x with waiting := x.waiting.filter fun (t, _, _) => !(t == g.tid) }
  ((s3.unbindQueue g).settleGrants).settleSets g.launchId.toNat

/-- The carry share at EXIT: none once HSPLIT or a drop has taken it from the pair, which is then empty (R175). -/
def Group.share (g : Group) : W64 :=
  if g.full (.s 4) && g.full (.s 5) then pairOf (g.val32 (.s 4)) (g.val32 (.s 5)) else w64 nullHandle

/-- GROUP_EXIT_COMPLETE (R61, R115, R175, R249, R296). -/
def execGroupExitComplete (s : State) : Host.Outcome State Fault Refusal :=
  .next (match s.thread (s.arg 0) with
    | none => s
    | some g =>
      match g.exiting with
      | some v =>
        if g.seq.isNone && s.exitReady g then (s.dropQuiet g.region g.share).endGroup g v else s
      | none => s)

/-! ### The doldrums detector (R48, R378, R379) -/

/-- Placed groups of a region itself. -/
def State.placedOf (s : State) (r : Nat) : List Group := s.threads.filter fun g => g.region == r && g.seq.isNone

/-- Every placed group of the region waits, none is stopped by a fault, nothing is queued (R48, R365, R378). A launch
that has started and has ranks to place counts as queued at the hub, of which the spec says nothing (DESIGN CHOICE, log
50). -/
def State.doldrums (s : State) (r : Nat) : Bool :=
  let gs := s.placedOf r
  !gs.isEmpty && !(s.waiting.any fun l => l.region == r)
    && !(s.started.any fun x => x.launch.region == r && decide (x.next < x.launch.groups))
    && gs.all fun g => !g.faulted && g.waits && !s.beingStepped g && (g.resident || !s.ready g)

/-- The cycles that the detector has counted for the region (R48). -/
def State.hangCount (s : State) (r : Nat) : Nat :=
  match s.hangs.find? fun x => x.1 == r with
  | some (_, n, _) => n
  | none => 0

/-- The detector of a region counts from zero again (R48, R378). -/
def State.restartHang (s : State) (r : Nat) : State :=
  { s with hangs := (r, 0, s.clock) :: s.hangs.filter fun x => !(x.1 == r) }

/-- The detectors count the cycles since they last counted, of the regions whose every placed group waits (R48). -/
def State.countHangs (s : State) : State :=
  let regions := ((s.threads.filter (·.seq.isNone)).map (·.region)).eraseDups
  { s with hangs := regions.map fun r =>
      match s.hangs.find? fun x => x.1 == r with
      | some (_, n, seen) => (r, if s.doldrums r then n + (s.clock - seen).toNat else n, s.clock)
      | none => (r, 0, s.clock) }

/-- An arm that has had the turn did not issue: its unit turned it away, it waits for a register or under R360, or for
the page of its instruction (R79, R118, R217, R360). -/
def Arm.triedOnly (a : Arm) : Bool := a.turned || a.ws == .blocked || a.ws == .held || (a.ws == .parked && a.parkFetch)

/-- An arm of a group has had the turn: where it issued, its region's detector counts from zero again (R48, R378). -/
def State.noteIssue (s : State) (tid : Nat) (armB : Bool) : State :=
  match s.thread tid with
  | none => s
  | some g => if g.isSeq || (g.exiting.isNone && (g.arm armB).triedOnly) then s else s.restartHang g.region

/-- The detector of the region has counted 2^HANGLOG cycles (R48). -/
def State.hangExpired (s : State) (r : Nat) : Bool :=
  s.doldrums r && decide (2 ^ s.eff r .hanglog ≤ s.hangCount r)

/-- A region whose count has reached 2^HANGLOG (R48). -/
def State.hangDue (s : State) : Option Nat := (s.hangs.map (·.1)).find? s.hangExpired

/-- One edge: WHY, ITEM, AUX, ON (R379). -/
def State.why (s : State) (g : Group) (b : Bool) : Nat × Nat × Nat × Nat :=
  let a := g.arm b
  let c := s.cluster g.cluster
  let running : Nat × Nat := if c.running then (c.req.n, c.req.who.tid) else (0, 0)
  let asked := s.clusters.flatMap (fun c => c.req :: c.resv) ++ s.clusterRecs.flatMap fun x => x.unit.req :: x.unit.resv
  let token (r : RegId) : Option Resv := asked.find? fun x => x.who.tid == g.tid && x.reg == r && !g.full r
  let rows : List Nat := s.flight.filterMap fun f => match f with
    | .trd w q => if w.tid = g.tid then some q.vd else none
    | _ => none
  if g.halted then (10, 0, 0, 0)
  else
    match a.ws with
    | .sleep => (1, 0, 0, 0)
    | .sigw => (2, a.waux.toNat % 65536, a.waux.toNat / 65536, 0)
    | .take => (4, g.info.stageq, 0, 0)
    | .scopew =>
      let d : RegId := .ofS b a.wreg
      let h := s.skeins.findSome? fun r => (r.waiters.find? fun (_, w, q, _) => w.tid == g.tid && q == d).map
        fun (_, _, _, h) => h.toNat
      (5, a.wreg, 0, h.getD 0)
    | .barrier =>
      (6, a.wreg, a.waux.toNat, match s.barHolder g a.wreg with
        | some h => h.tid
        | none => 0)
    | .held =>
      match a.holds.findSome? fun h => if g.full h.reg then none else token h.reg with
      | some x => (7, a.wreg, x.n, running.2)
      | none => (7, a.wreg, running.1, running.2)
    | .tdrain => (7, a.wreg, running.1, running.2)
    | .rcv => (8, 0, 0, 0)
    | .parked => (9, 0, 0, 0)
    | .blocked =>
      match a.on with
      | some (.v n) => if rows.contains n || rows.contains (n - 1) then (7, n, running.1, running.2) else (11, n, 0, 0)
      | some r =>
        match s.joinedReg g.tid r with
        | some name => (3, r.num, 0, name)
        | none =>
          match token r with
          | some x => (7, r.num, x.n, running.2)
          | none => if g.pend.contains r then (11, r.num, 0, 0) else (0, r.num, 0, 0)
      | none => (0, a.wreg, 0, 0)
    | _ => (11, 0, 0, 0)

/-- Groups inserted in ascending order of name. -/
def insertByName (g : Group) : List Group → List Group
  | [] => [g]
  | h :: rest => if g.tid < h.tid then g :: h :: rest else h :: insertByName g rest

/-- The waiting arms of a region in the order of R379. -/
def State.waiters (s : State) (r : Nat) : List (Group × Bool) :=
  ((s.placedOf r).foldl (fun l g => insertByName g l) []).flatMap fun g =>
    [false, true].filterMap fun b =>
      if (g.arm b).occ && (g.armWaits b || g.halted || g.hold) then some (g, b) else none

/-- An edge at an address. -/
def State.edgeFields (s : State) (o : Nat) (x : Group × Bool) : List HField :=
  let (w, item, aux, on) := s.why x.1 x.2
  [(o, 8, x.1.tid), (o + 8, 1, bitW x.2 1), (o + 9, 1, w), (o + 10, 2, item), (o + 12, 4, aux), (o + 16, 8, on),
   (o + 24, 8, (x.1.arm x.2).pc.toNat)]

/-- The report written at an address (R379). -/
def State.writeReport (s : State) (r a : Nat) : State :=
  let ws := s.waiters r
  let head : List HField :=
    [(0, 4, minN 4096 ws.length), (4, 4, (s.placedOf r).length), (8, 8, s.sample.clock.toNat),
     (0x10, 4, if 4096 < ws.length then 1 else 0)]
  let body := (ws.take 4096).zipIdx.flatMap fun (x, i) => s.edgeFields (64 + 32 * i) x
  { s with mem := writeFields (zeroBytes s.mem a (64 + 32 * minN 4096 ws.length)) a (head ++ body) }

/-- DOLDRUMS_EXPIRY: the report, then a HANG fault that stops no group (R48, R378, R379). -/
def execDoldrumsExpiry (s : State) : Host.Outcome State Fault Refusal :=
  let r := s.arg 0
  .next (if s.hangExpired r then
      let s := s.restartHang r
      match s.reports.find? (fun x => x.1 == r) with
      | some (_, a) => (s.writeReport r a).regionFault (.plain .hang r 0 0 a) []
      | none => s.regionFault (.plain .hang r 0 0 0) []
    else s)

/-! ### Pre-emption (R123 to R126, R299, R368, R434) -/

/-- PRECTL.GO, with the 16 bits of REGION: ignored while BUSY (R123). -/
def execPrectlGo (s : State) : Host.Outcome State Fault Refusal :=
  let r := s.arg 0 % 65536
  .next (if s.prectl.busy then s
    else
      let s1 := { s with prectl := { s.prectl with
        region := r, busy := true, drained := false, queue := s.prectl.queue.filter fun x => !(x == r) } }
      (s1.threads.filter fun g => s1.inSubtree g.region r).foldl (fun s g => s.flush g.tid) s1)

/-- A write of 1 to DONE (R123). -/
def execPrectlClearDone (s : State) : Host.Outcome State Fault Refusal :=
  .next { s with prectl := { s.prectl with done := false } }

/-- A write of 1 to ERR (R123). -/
def execPrectlClearErr (s : State) : Host.Outcome State Fault Refusal :=
  .next { s with prectl := { s.prectl with err := false } }

/-- The resident groups of the subtree under pre-emption. -/
def State.preempted (s : State) : List Group :=
  s.threads.filter fun g => g.seq.isNone && g.resident && s.inSubtree g.region s.prectl.region

/-- The drain of the pre-emption has ended: nothing of the subtree's groups and sequencers is under way (R124). -/
def State.drainEnds (s : State) : Bool :=
  (s.preempted.all fun g => s.drainedOf g.tid && g.exiting.isNone) &&
    (List.range 144).all fun cl =>
      let c := s.cluster cl
      !(c.running && s.preempting c.req.region) || s.drainedOf (seqTid cl)

/-- PREEMPT_DRAIN_END: everything in flight is complete; the names are MIGRATING (R52, R124). -/
def execPreemptDrainEnd (s : State) : Host.Outcome State Fault Refusal :=
  .next (if s.prectl.busy && !s.prectl.drained && s.drainEnds then
      s.preempted.foldl (fun s g =>
        (s.setName { s.nameEntry g.tid with state := .migrating }).modThread g.tid fun g =>
          { g with migrating := true, preempted := true })
        { s with prectl := { s.prectl with drained := true } }
    else s)

/-- The groups of the subtree are saved, then the clusters that run its routines, hold its reservations or its tiles
(R124, R150). -/
def State.saveSubtree (s : State) : State :=
  let root := s.prectl.region
  let s1 := s.preempted.foldl State.saveGroup s
  s1.saveClusters root (fun r => s.inSubtree r.region root) fun _ => s.tileOf root

/-- PREEMPT_DONE: the records are written; ERR when a save did not complete or state was damaged (R124, R125,
R380, R381). -/
def execPreemptDone (s : State) : Host.Outcome State Fault Refusal :=
  .next (if s.prectl.busy && s.prectl.drained then
      let s1 := s.saveSubtree
      let xs := s1.clusterRecs.drop s.clusterRecs.length
      let err := s.preempted.any (fun g => s.saveLost g.saveRec || !g.bad.isEmpty)
        || xs.any fun x => x.unit.tiles.any fun t => !t.bad.isEmpty
      { s1 with prectl := { s1.prectl with busy := false, drained := false, done := true, err := s1.prectl.err || err } }
    else s)

/-! ### Regions ended and imported (R150, R370, R422) -/

/-- The value that joiners of a lost group receive (R422). -/
def lostValue : W32 := 0xFFFFFFFE#32

/-- A name that is not RESIDENT goes there by the transitions of R52, on its way to DEAD: SAVED by way of MIGRATING
(R52; DESIGN CHOICE, log 33). -/
def State.toResident (s : State) (name : Nat) : State :=
  let e := s.nameEntry name
  let s1 := if e.state = .saved then s.setName { e with state := .migrating } else s
  let e1 := s1.nameEntry name
  if e1.state = .migrating then s1.setName { e1 with state := .resident } else s1

/-- The names of ranks still to be placed, of a region's launches, and of its groups lost with a die (R422). -/
def State.unplacedNames (s : State) (r : Nat) : List Nat :=
  ((s.started.filter fun x => x.launch.region == r).flatMap fun x =>
    (List.range (x.launch.groups - x.next)).map fun k => x.first + x.next + k)
  ++ (s.lost.filter fun x => x.2 == r).map (·.1)

/-- A name without a group becomes DEAD: operations held for it complete DEAD, and its joiners are served (R422). -/
def State.endName (s : State) (name : Nat) : State := ((s.toResident name).dieName name lostValue).release name

/-- Stage queues whose binding launch is gone are bound by another that they feed, or unbound (R323). -/
def State.rebindQueues (s : State) : State :=
  { s with stageqs := s.stageqs.zipIdx.map fun (x, q) =>
      match x.bound with
      | some (l, _) => if s.launchLives l then x else { x with bound := s.stageUser q }
      | none => x }

/-- REGION_END: its groups are lost and their joiners served, its launches and cluster records gone, its tiles
released (R150, R422). A released tile is tagged RAW32 as at power-up: R150 does not name its tag there (DESIGN
CHOICE, log 23). -/
def execRegionEnd (s : State) : Host.Outcome State Fault Refusal :=
  let r := s.arg 0
  let gone (s : State) (g : Group) : State := ((s.toResident g.tid).endGroup g lostValue).release g.tid
  let s1 := (s.placedOf r).foldl gone s
  let s2 := (s1.unplacedNames r).foldl State.endName s1
  let tile (t : Tile) : Tile := if t.owner = some r then .reset else t
  .next (State.rebindQueues { s2 with
    waiting := s2.waiting.filter fun l => !(l.region == r)
    started := s2.started.filter fun x => !(x.launch.region == r)
    lost := s2.lost.filter fun x => !(x.2 == r)
    clusters := s2.clusters.map fun c => { c with tiles := c.tiles.map tile }
    clusterRecs := (s2.clusterRecs.filter fun x => x.region != r).map fun x =>
      { x with unit := { x.unit with tiles := x.unit.tiles.map tile } } })

/-- A TAKE in which an imported arm waits stands in its queue's line again (R323). -/
def State.reTake (s : State) (g : Group) (b : Bool) : State :=
  let a := g.arm b
  if a.occ && a.ws == .take then
    s.modStageq g.info.stageq fun x => { x with waiting := x.waiting ++ [(g.tid, b, a.wreg)] }
  else s

/-- A name for which a record may be imported: not serial 0, no group that lives, no rank still to be placed, not
DEAD and not a host's; a group lost with a fenced die is MIGRATING (R49, R52, R422). -/
def State.importable (s : State) (name : Nat) : Bool :=
  let st := (s.nameEntry name).state
  nameSerial name != 0 && !s.alive name && st != .dead && st != .host
    && !s.started.any fun x => decide (x.first + x.next ≤ name) && decide (name < x.first + x.launch.groups)

/-- The group that a record of an image holds, with what the payload says of its launch (log 15), and the tokens that
MSIGs owe it (R148). -/
def State.imageGroup (s : State) : Group :=
  let g := s.importGroup (s.arg 0) (s.arg 1)
  { g with
    pend := g.pend ++ (s.tokensOwed g.tid).filter fun r => !g.full r && !g.pend.contains r
    info := infoOf (s.arg 2) g.info.prio (s.arg 3) (s.arg 4)
      (if bitAt (s.arg 2) 1 then g.tid - g.nbidx.toNat else 0) none }

/-- A group of a STAGE launch may stand at its queue: no launch of another region has bound it (R33, R323). -/
def State.queueOpen (s : State) (g : Group) : Bool :=
  !g.info.stage || (match (s.stageq g.info.stageq).bound with
    | some (_, r) => r == g.region
    | none => true)

/-- The queue of an imported STAGE group is bound by its launch where nothing binds it (R323). -/
def State.bindQueue (s : State) (g : Group) : State :=
  if g.info.stage then
    s.modStageq g.info.stageq fun x =>
      { x with bound := match x.bound with
          | some b => some b
          | none => some (g.launchId.toNat, g.region) }
  else s

/-- A group record imported, with its name entry and the objects whose skein records it waits for (R126, R176, R370,
R422). -/
def State.importRecord (s : State) : State :=
  let g := s.imageGroup
  let e := s.nameEntry g.tid
  if !s.importable g.tid || !s.queueOpen g then s
  else
    let s1 := { s with
      others := s.others ++ [g]
      imports := s.imports ++ (s.ev.drop 8).map fun oid => (s.arg 7, oid)
      lost := s.lost.filter fun x => x.1 != g.tid }
    let e1 : NameEntry := if e.state ≠ .free then { e with state := .saved, loc := s.arg 1 }
      else { (NameEntry.free g.tid) with
        state := .saved, loc := s.arg 1, owner := s.arg 0, gen := (e.gen + 1) % 2 ^ 16 }
    let s2 := [false, true].foldl (fun s b => s.reTake g b) (s1.bindQueue g)
    ((s2.setName e1).release g.tid).settleSets g.launchId.toNat

/-- An image sealed with the key of a slot cannot be imported once an alarm has erased it (R427); slot numbers count
from 1, 0 says that the image is not sealed. -/
def State.sealBroken (s : State) (slot : Nat) : Bool :=
  slot != 0 && (match s.keys[slot - 1]? with
    | some k => k.erased || !k.valid
    | none => true)

/-- SAVE_IMAGE_IMPORT: a record of a save image in device, peer or host memory. Payload: region (the root of the subtree
for a cluster record, the OID for a skein record), the record's address, of a group's launch FLAGS and the shape, which a
record does not hold; what the record is: 0 a group's, 1 a cluster's, 2 a barrier slot's, 3 a skein's; the key slot that
it is sealed with; for a group the root of its subtree and the objects that its handles name (R126, R176, R370, R422,
R427, log 15). -/
def execSaveImageImport (s : State) : Host.Outcome State Fault Refusal :=
  .next (if s.sealBroken (s.arg 6) then s
    else if s.arg 5 = 0 then s.importRecord
    else if s.arg 5 = 1 then s.importCluster (s.arg 0) (s.arg 1)
    else if s.arg 5 = 2 then s.importBars (s.arg 1)
    else if s.arg 5 = 3 then s.importSkein (s.arg 0) (s.arg 1)
    else s)

end Sys2Proof.Machine
end

