-- ==== Sys2Proof/Machine/Watches.lean ====
section
/-!
DEFINITION. Watched ranges: WATCH, UNWATCH, WARM, WSTAT, and the memory dies' windows, budgets and cast-on
launches (R182 to R191, R330, R331, R407 to R409).
-/

namespace Sys2Proof.Machine

/-! ### Entries (R182, R183) -/

/-- The fields of a watch entry. -/
structure WatchEntry where
  base : Nat
  entryPc : Nat
  args : W64
  len : Nat
  region : Nat
  ctrl : Nat
  deriving DecidableEq, Repr

/-- The entry that eight words hold. -/
def watchEntry (ws : List Nat) : WatchEntry :=
  let w (i : Nat) : Nat := ws.getD i 0
  ⟨w 0 + w 1 * 2 ^ 32, w 2 + w 3 * 2 ^ 32, w64 (w 4 + w 5 * 2 ^ 32), w 6 % 2 ^ 19, w 7 % 65536, w 7 / 65536⟩

/-- A field breaks R182. -/
def WatchEntry.bad (e : WatchEntry) : Bool :=
  e.base % 64 != 0 || e.entryPc % 4 != 0 || e.len == 0 || decide (262144 < e.len)
    || decide (bitsOf e.ctrl 4 0 < 6) || decide (24 < bitsOf e.ctrl 4 0) || decide (16 < bitsOf e.ctrl 9 5)
    || decide (bitsOf e.ctrl 11 10 < 2)

/-- The physical pieces of a range, each with its offset from BASE; none when a page of it may not be
watched (R183). -/
def State.watchParts (s : State) (troot : Nat) (e : WatchEntry) :
    List (Nat × Nat) → Option (List (Nat × Nat × Nat))
  | [] => some []
  | (va, n) :: rest =>
    if va / 2 ^ 57 ≠ 0 then none
    else
      match s.walk troot va with
      | .leaf pte _ psize =>
        if pteHost pte || decide (6 ≤ pteHome pte) || decide (2 ≤ pteCoh pte)
            || (s.denied troot pte .load).isSome then none
        else (s.watchParts troot e rest).map fun l =>
          (pteFrame pte + va % pageBytes psize, n, va - e.base) :: l
      | _ => none

/-- Watches installed, and those whose installation is under way. -/
def State.allWatches (s : State) : List Watch :=
  s.watches ++ s.flight.filterMap fun f => match f with
    | .watchInstall _ _ w _ => w
    | _ => none

/-- Two physical pieces share a granule. -/
def overlaps (x y : Nat × Nat × Nat) : Bool := decide (x.1 < y.1 + y.2.1) && decide (y.1 < x.1 + x.2.1)

/-- A memory die homes part of the pieces. -/
def homesPart (d : Nat) (ps : List (Nat × Nat × Nat)) : Bool := ps.any fun p => sectorOf p.1 == d

/-- A watch's part on a die before any write. -/
def WatchDie.fresh (homes : Bool) : WatchDie := ⟨homes, false, 0, 0, [], [], 0, 0, false⟩

/-- The watch to install, or the first status that applies (R183, R330). -/
def State.admitWatch (s : State) (g : Group) (e : WatchEntry) : Except Nat Watch :=
  let all := s.allWatches
  if e.bad then .error 4
  else
    match s.watchParts g.eff.troot e (pieces 260 e.base (e.len * 64)) with
    | none => .error 1
    | some ps =>
      if all.any (fun w => w.parts.any fun x => ps.any (overlaps x)) then .error 2
      else if !s.inSubtree e.region g.region then .error 3
      else if (List.range 6).any (fun d =>
          homesPart d ps && decide (512 ≤ (all.filter fun w => homesPart d w.parts).length)) then .error 5
      else
        match lowestFree (all.map (·.wid)) 65535 1 with
        | none => .error 6
        | some wid =>
          .ok ⟨wid, g.region, e.base, e.entryPc, e.args, e.len, e.region, e.ctrl, ps,
            (List.range 6).map fun d => .fresh (homesPart d ps)⟩

/-- A failure as d receives it (R330). -/
def watchFail (code : Nat) : W32 := w32 (0x80000000 + code)

/-- WATCH (R183, R330, R407). -/
def execWatch (d a : Nat) (ea _eb : Bool) (s : State) : Host.Outcome State Fault Refusal :=
  let r := s.cur.pairAt d
  issue 4 { srcs := s.cur.srcA ea a (s.cur.spregs a), dests := [r] }
    (fun s =>
      let x := s.cur.spval a
      let send (s : State) (w : Option Watch) (st : W32) : Eff :=
        .done ((s.modCur fun g => g.awaiting [r]).send (.watchInstall s.cur.tid r w st))
      if x.toNat % 32 ≠ 0 then .trap s ⟨.misalign, 3, x, 0⟩
      else
        match s.checkLanes ⟨.load, true, 4, 4⟩ ((List.range 8).map fun i => (0, x + w64 (4 * i))) with
        | .trap t => .trap s t
        | .frozen d => .stay (s.waitHome d)
        | .ok hits [] =>
          let s1 := s.touchAll false hits
          let e := watchEntry (hits.map fun h => s1.laneVal h 4)
          let inRange : Bool := decide (e.base ≤ x.toNat) && decide (x.toNat < e.base + e.len * 64)
          let onWatch : Bool := hits.any fun h => match h.lo with
            | .dev pa => s1.watched pa
            | _ => false
          s.met hits
            (if inRange || onWatch then .trap s ⟨.watch, 1, x, 0⟩
             else
              let s2 := s1.pendMcheck s1.cur.tid (s1.laneErr 4 hits)
              match s2.admitWatch s2.cur e with
              | .ok w => send s2 (some w) (w32 w.wid)
              | .error code => send s2 none (watchFail code))
        | .ok _ absent => .park (s.park .load false (absent.take 1))) s

/-- WATCH_INSTALL_COMPLETE: every homing die compares from now on (R183, R330). -/
def execWatchInstallComplete (s : State) : Host.Outcome State Fault Refusal :=
  .next (s.complete (fun f => match f with
      | .watchInstall tid d w st => some (tid, d, w, st)
      | _ => none)
    fun s (tid, d, w, st) =>
      let s1 := match w with
        | some w =>
          let begun : Watch := { w with dies := w.dies.map fun (p : WatchDie) => { p with period := s.clock } }
          { s with watches := s.watches ++ [begun] }
        | none => s
      s1.fills tid [.word d st])

/-! ### Runs (R187) -/

/-- A record inserted by offset. -/
def insertRec (r : WatchRec) : List WatchRec → List WatchRec
  | [] => [r]
  | x :: rest => if r.off < x.off then r :: x :: rest else x :: insertRec r rest

/-- Records in ascending offset. -/
def sortRecs (l : List WatchRec) : List WatchRec := l.foldl (fun acc r => insertRec r acc) []

/-- Runs of up to 96 records, with fuel. -/
def runsOf : Nat → List WatchRec → List (List WatchRec)
  | 0, _ => []
  | k + 1, l => if l.isEmpty then [] else l.take 96 :: runsOf k (l.drop 96)

/-- The cast-on launch of a run (R187). -/
def Watch.castOn (w : Watch) (die : Nat) (run : List WatchRec) : Launch where
  id := 0
  origin := 3
  queue := die
  recAt := none
  entry := w.entryPc
  args := w.args
  carry := w64 nullHandle
  affbase := 0
  affstride := 0
  groups := 1
  region := w.region
  flags := 0
  shapeW := 0
  shapeH := 0
  vregs := 16 * (bitsOf w.ctrl 14 12 + 1)
  lastLanes := run.length
  spad := 0
  starved := false
  since := 0
  wid := w.wid
  words := run

/-- Launches submitted for runs in order. -/
def State.submitRuns (s : State) (w : Watch) (die : Nat) (runs : List (List WatchRec)) : State :=
  runs.foldl (fun s r => s.submit (w.castOn die r)) s

/-- The part of a watch on a die. -/
def Watch.on (w : Watch) (d : Nat) : WatchDie := w.dies.getD d (.fresh false)

/-- A change of a watch's part on a die. -/
def State.modWatchDie (s : State) (wid d : Nat) (f : WatchDie → WatchDie) : State :=
  { s with watches := s.watches.map fun w =>
      if w.wid = wid then { w with dies := modAt f d w.dies } else w }

/-- An installed watch. -/
def State.watch (s : State) (wid : Nat) : Option Watch := s.watches.find? fun w => w.wid == wid

/-- Budget of a watch per period (R190). -/
def Watch.budget (w : Watch) : Nat := 2 ^ bitsOf w.ctrl 9 5

/-- Runs formed within the budget that remains; the rest is held (R190). -/
def State.formRuns (s : State) (w : Watch) (d : Nat) (recs : List WatchRec) : State :=
  let p := w.on d
  let runs := runsOf (recs.length + 1) (sortRecs recs)
  let n := w.budget - p.used
  let rest := (runs.drop n).flatten
  (s.submitRuns w d (runs.take n)).modWatchDie w.wid d fun p =>
    { p with open_ := false, recs := [], held := rest, used := p.used + (runs.take n).length
             opened := if p.held.isEmpty then s.clock else p.opened }

/-- The window of a watch on a die closes (R186, R187, R190). -/
def State.closeWindow (s : State) (d wid : Nat) : State :=
  match s.watch wid with
  | some w => if (w.on d).open_ then s.formRuns w d (w.on d).recs else s
  | none => s

/-- The window has been open for 2^WLOG nanoseconds (R186). -/
def State.windowOver (s : State) (w : Watch) (d : Nat) : Bool :=
  (w.on d).open_ && decide (2 ^ (w.ctrl % 32) ≤ (s.clock - (w.on d).opened).toNat)

/-- A watch runaway on a die is marked and reported once (R408). -/
def State.markRunaway (s : State) (w : Watch) (d : Nat) : State :=
  if (w.on d).runaway then s
  else (s.modWatchDie w.wid d fun p => { p with runaway := true }).regionFault
    (.plain .runaway w.region 0 0 (runawayLoc w.wid d 0 (w.on d).held.length)) []

/-- Nanoseconds of a period (R190). -/
def periodLength : Nat := 2 ^ 20

/-- A watch's period on a die that homes part of it is over (R190). -/
def State.periodOver (s : State) (w : Watch) (d : Nat) : Bool :=
  (w.on d).homes && decide (periodLength ≤ (s.clock - (w.on d).period).toNat)

/-- The window of a watch on a die closes now, and its period there had not ended when the window's time came: a close at
the end of a period belongs to the next one (R186, R190). -/
def State.windowFirst (s : State) (w : Watch) (d : Nat) : Bool :=
  s.windowOver w d && (!s.periodOver w d ||
    decide ((s.clock - (w.on d).period).toNat - periodLength < (s.clock - (w.on d).opened).toNat - 2 ^ (w.ctrl % 32)))

/-- WATCH_WINDOW_CLOSE: payload memory die, watch id: after 2^WLOG nanoseconds (R186, R187). -/
def execWatchWindowClose (s : State) : Host.Outcome State Fault Refusal :=
  .next (match s.watch (s.arg 1) with
    | some w => if s.windowFirst w (s.arg 0) then s.closeWindow (s.arg 0) (s.arg 1) else s
    | none => s)

/-- The next period on the grid that the install or a WARM began: the budget is whole again and held records are formed
first (R190). -/
def State.newPeriod (s : State) (d : Nat) (w : Watch) : State :=
  let s1 := s.modWatchDie w.wid d fun p => { p with used := 0, period := p.period + w64 periodLength }
  match s1.watch w.wid with
  | some w => if (w.on d).held.isEmpty then s1 else s1.formRuns w d (w.on d).held
  | none => s1

/-- A period of a watch ends on a die and the next begins; a watch throttled at the end of 16 consecutive periods is
runaway (R190, R408). -/
def State.turnPeriod (s : State) (d : Nat) (w : Watch) : State :=
  let n := if (w.on d).held.isEmpty then 0 else (w.on d).throttled + 1
  let s1 := s.modWatchDie w.wid d fun p => { p with throttled := n }
  (if 16 ≤ n then s1.markRunaway w d else s1).newPeriod d w

/-- WATCH_PERIOD_START: payload memory die, watch id: after 1,048,576 ns, and after the close of a window whose time came
before (R190, R408). -/
def execWatchPeriodStart (s : State) : Host.Outcome State Fault Refusal :=
  let d := s.arg 0
  .next (match s.watch (s.arg 1) with
    | none => s
    | some w => if s.periodOver w d && !s.windowFirst w d then s.turnPeriod d w else s)

/-- What the time has brought to a watch on a die before a write is merged or a record taken: closes and periods in their
order, with fuel (R186, R190). -/
def State.settleWatch (s : State) (d wid : Nat) : Nat → State
  | 0 => s
  | k + 1 =>
    match s.watch wid with
    | none => s
    | some w =>
      if s.windowFirst w d then (s.closeWindow d wid).settleWatch d wid k
      else if s.periodOver w d then (s.turnPeriod d w).settleWatch d wid k
      else s

/-- The closes and periods that can be due for a watch on a die. -/
def State.watchDues (s : State) (d : Nat) (w : Watch) : Nat := (s.clock - (w.on d).period).toNat / periodLength * 2 + 2

/-- A watch on a die brought up to the present (R186, R190). -/
def State.upToDate (s : State) (d : Nat) (w : Watch) : State := s.settleWatch d w.wid (s.watchDues d w)

/-! ### Writes at the home (R185, R186, R409) -/

/-- MERGE into a list of records (R186). -/
def mergeRec (off : Nat) (old new : W32) : List WatchRec → List WatchRec
  | [] => [⟨off, old, new, 1⟩]
  | r :: rest =>
    if r.off = off then { r with new := new, count := minN (r.count + 1) (2 ^ 32 - 1) } :: rest
    else r :: mergeRec off old new rest

/-- Records that a die holds (R186). -/
def State.recsOn (s : State) (d : Nat) : Nat :=
  (s.watches.map fun w => (w.on d).recs.length + (w.on d).held.length).sum

/-- The watch whose part on a die satisfies a test and began first. -/
def State.oldestOn (s : State) (d : Nat) (p : WatchDie → Bool) : Option Watch :=
  (s.watches.filter fun w => p (w.on d)).foldl (fun m w => match m with
    | none => some w
    | some v => if (w.on d).opened.toNat < (v.on d).opened.toNat then some w else some v) none

/-- A record is made free when the die holds 4,096: the oldest open window closes, else the oldest
throttled one is formed beyond its budget and is runaway (R186, R409). -/
def State.freeRecs (s : State) (d : Nat) : Nat → State
  | 0 => s
  | k + 1 =>
    if s.recsOn d < 4096 then s
    else
      match s.oldestOn d (·.open_) with
      | some w => ((s.upToDate d w).closeWindow d w.wid).freeRecs d k
      | none =>
        match s.oldestOn d fun p => !p.held.isEmpty with
        | some w =>
          let held := (w.on d).held
          let s1 := (s.markRunaway w d).submitRuns w d (runsOf (held.length + 1) (sortRecs held))
          (s1.modWatchDie w.wid d fun p => { p with held := [] }).freeRecs d k
        | none => s

/-- A merge of the offset adds a record (R186, R190). -/
def WatchDie.needsRec (p : WatchDie) (off : Nat) : Bool :=
  !((if p.held.isEmpty then p.recs else p.held).any fun r => r.off == off)

/-- MERGE (R186, R190). -/
def WatchDie.merge (p : WatchDie) (now : W64) (off : Nat) (old new : W32) : WatchDie :=
  if !p.held.isEmpty then { p with held := mergeRec off old new p.held }
  else if p.open_ then { p with recs := mergeRec off old new p.recs }
  else { p with open_ := true, opened := now, recs := mergeRec off old new p.recs }

/-- The watch that a word of device memory belongs to, with the word's offset. -/
def State.watchOf (s : State) (pa : Nat) : Option (Watch × Nat) :=
  s.watches.findSome? fun w => (w.parts.find? fun (a, n, _) => decide (a ≤ pa) && decide (pa < a + n)).map
    fun (a, _, off) => (w, off + (pa - a))

/-- WATCHED_WRITE_AT_HOME: a changed word is merged (R185, R186). -/
def execWatchedWriteAtHome (s : State) : Host.Outcome State Fault Refusal :=
  .next (s.complete (fun f => match f with
      | .watchedWrite pa old new => some (pa, old, new)
      | _ => none)
    fun s (pa, old, new) =>
      if old = new then s
      else
        match s.watchOf pa with
        | none => s
        | some (w0, off) =>
          let d := sectorOf pa
          let s1 := s.upToDate d w0
          match s1.watch w0.wid with
          | none => s1
          | some w =>
            (if (w.on d).needsRec off then s1.freeRecs d 1100 else s1).modWatchDie w.wid d fun p =>
              p.merge s.clock off old new)

/-! ### UNWATCH, WARM, WSTAT (R191, R330, R331) -/

/-- The watch an instruction names, or why it may not (R330). -/
def State.namedWatch (s : State) (wid : Nat) : Except Nat Watch :=
  match s.watch wid with
  | some w => if s.inSubtree s.cur.region w.installer then .ok w else .error 3
  | none => .error 7

/-- The end of a query: d is empty until the reply (R331). -/
def State.query (s : State) (d : RegId) (x : W32) : Eff :=
  .done ((s.modCur fun g => g.awaiting [d]).send (.watchQuery s.cur.tid d x))

/-- The checks that UNWATCH, WARM and WSTAT share. -/
def preWatch (g : Group) (d a : Nat) (ea timing : Bool) : Pre :=
  { timing := timing, srcs := g.srcA ea a (g.sregs a), dests := [g.pairAt d] }

/-- UNWATCH (R191, R331). -/
def execUnwatch (d a : Nat) (ea _eb : Bool) (s : State) : Host.Outcome State Fault Refusal :=
  issue 4 (preWatch s.cur d a ea false)
    (fun s =>
      let r := s.cur.pairAt d
      match s.namedWatch (s.cur.sval a).toNat with
      | .error c => s.query r (watchFail c)
      | .ok w => .done ((s.modCur fun g => g.awaiting [r]).send (.unwatch s.cur.tid r w.wid 0))) s

/-- A watch's windows closed and held records formed, whatever the budget; the watch removed (R191). -/
def State.removeWatch (s : State) (wid : Nat) : State :=
  match s.watch wid with
  | none => s
  | some w =>
    let s1 := (List.range 6).foldl (fun s d =>
      let recs := (w.on d).held ++ (w.on d).recs
      s.submitRuns w d (runsOf (recs.length + 1) (sortRecs recs))) s
    { s1 with watches := s1.watches.filter fun x => !(x.wid == wid) }

/-- UNWATCH_COMPLETE: the last launch is submitted (R191). -/
def execUnwatchComplete (s : State) : Host.Outcome State Fault Refusal :=
  .next (s.complete (fun f => match f with
      | .unwatch tid d wid x => some (tid, d, wid, x)
      | _ => none)
    fun s (tid, d, wid, x) => (s.removeWatch wid).fills tid [.word d x])

/-- WARM on a die: the throttle ends at once, its held records formed whatever the budget, as at UNWATCH, and a new period
begins (R190, R191, R408, log 18). -/
def State.endThrottle (s : State) (w : Watch) (d : Nat) : State :=
  let held := (w.on d).held
  (s.submitRuns w d (runsOf (held.length + 1) (sortRecs held))).modWatchDie w.wid d fun p =>
    { p with held := [], runaway := false, throttled := 0, used := 0, period := s.clock }

/-- WARM: the throttle ends and a new period starts on every homing die (R190, R331, R408). -/
def execWarm (d a : Nat) (ea _eb : Bool) (s : State) : Host.Outcome State Fault Refusal :=
  issue 4 (preWatch s.cur d a ea false)
    (fun s =>
      let r := s.cur.pairAt d
      match s.namedWatch (s.cur.sval a).toNat with
      | .error c => s.query r (watchFail c)
      | .ok w =>
        ((List.range 6).foldl (fun s d =>
          if (w.on d).homes then s.endThrottle w d else s) s).query r 0) s

/-- What WSTAT reads (R331). -/
def Watch.status (w : Watch) : W32 :=
  let held := (w.dies.map fun p => p.held.length).sum
  w32 (1 + bitW (decide (0 < held)) 2 + bitW (w.dies.any (·.runaway)) 4 + satTo 65535 held * 65536)

/-- WSTAT: not under DET (R32, R331). -/
def execWstat (d a : Nat) (ea _eb : Bool) (s : State) : Host.Outcome State Fault Refusal :=
  issue 4 (preWatch s.cur d a ea true)
    (fun s =>
      let r := s.cur.pairAt d
      match s.namedWatch (s.cur.sval a).toNat with
      | .error c => s.query r (watchFail c)
      | .ok w => s.query r w.status) s

/-- WATCH_QUERY_REPLY: d takes the answer (R331). -/
def execWatchQueryReply (s : State) : Host.Outcome State Fault Refusal :=
  .next (s.complete (fun f => match f with
      | .watchQuery tid d x => some (tid, d, x)
      | _ => none)
    fun s (tid, d, x) => s.fills tid [.word d x])

end Sys2Proof.Machine
end

