-- ==== Sys2Proof/Machine/System.lean ====
section
/-!
DEFINITION. SYS: special registers, the return from a trap, translation and coherence services, replay,
the weight store, halting and swapping (R71, R79, R80, R82, R332 to R341, R373, R387, R392, R395, R435).
-/

namespace Sys2Proof.Machine

/-! ### Special registers (R223, R333, R334) -/

/-- Arms parked on a die. -/
def State.parkedOn (s : State) (d : Nat) : Nat :=
  (s.threads.map fun g =>
    if g.die = d then bitW (g.armA.occ && g.armA.ws == .parked) 1 + bitW (g.armB.occ && g.armB.ws == .parked) 1
    else 0).sum

/-- FBSTAT of a die (R334). -/
def State.fbstat (s : State) (d : Nat) : W32 :=
  fbstatWord (s.die d).faults.length (s.die d).drop (s.parkedOn d)

/-- Nanoseconds since a die's present bank began to refresh: the clock's cycles at 1.0 GHz (R71, R394, log 6). -/
def State.refreshed (s : State) (d : Nat) : Nat := (s.clock - (s.die d).bankAt).toNat

/-- WSREF of a die: each bank refreshes for 1,000 ns of the clock, whether or not WEIGHT_BANK_REFRESH has noted it
(R71). -/
def State.wsref (s : State) (d : Nat) : W32 :=
  let t := s.refreshed d
  w32 (((s.die d).bank + t / 1000) % 32 + t % 1000 * 32)

/-- STKBASE (R68). -/
def stkbase : W64 := 0xFE80000000000000#64

/-- The value of a 64-bit special register; a sequencer's SPWIN and STKBASE read 0 (R333). -/
def Group.sreg64 (g : Group) (now : W64) (b : Nat) : W64 :=
  match b with
  | 1 => g.name
  | 7 => now
  | 9 => g.tpc
  | 10 => g.taddr
  | 12 => g.spwin
  | 13 => if g.isSeq then 0 else stkbase
  | _ => g.eff.seed

/-- The value of a 32-bit special register. -/
def State.sreg32 (s : State) (b : Nat) : W32 :=
  let g := s.cur
  match b with
  | 0 => g.me.mode
  | 2 => g.rank
  | 3 => g.ngroups
  | 4 => g.nbidx
  | 5 => w32 g.region
  | 6 => g.launchId
  | 8 => g.tcause
  | 11 => g.tinfo
  | 15 => g.armsOf g.sel
  | 16 => g.dstkp
  | 17 => s.wsref g.die
  | _ => s.fbstat g.die

/-- SRD (R32, R333). -/
def execSrd (a b : Nat) (s : State) : Host.Outcome State Fault Refusal :=
  let r := s.cur.pairAt a
  issue 4 { seqOk := true, priv := if b = 18 then 2 else 0, timing := b == 7 || b == 17 || b == 18
            dests := if sregWide b then [r, r.next] else [r] }
    (fun s =>
      if b = 15 ∧ s.cur.eff.det ∧ s.cur.nout ≠ 0 then .stay s.stall
      else if b = 7 then
        let s1 := s.sample
        .done (s1.modCur fun g => g.putPair r s1.clock)
      else if sregWide b then .done (s.modCur fun g => g.putPair r (g.sreg64 0 b))
      else .done (s.modCur fun g => g.put32 r (s.sreg32 b))) s

/-- Arm b's stack lowered to a depth: the records above it are gone, the top four of the rest are in the core, an error
in one of them refilled being kept with it; a depth above the present one changes nothing (R333, R373). -/
def State.lowerStack (s : State) (b : Bool) (n : Nat) : State :=
  let a := s.cur.arm b
  if a.depth < n then s
  else
    let stk := ((s.stackOf s.cur b).drop (a.depth - n)).take 4
    s.modCur fun g => { g.mapArm b fun a => { a with dstk := stk, deep := n - 4 } with
      bad := (g.bad.filter fun x => !(x.1 == 6 && x.2.2 == armNum b && decide (n ≤ x.2.1)))
        ++ s.refillMarks g b (n - 4) (minN n a.deep) }

/-- SWR of DSTKP (R333). -/
def swrDstkp (x : Nat) (s : State) : Eff :=
  if s.cur.isSeq then .done s else .done ((s.lowerStack false (x % 65536)).lowerStack true (x / 65536))

/-- SWR (R333, R334). -/
def execSwr (a b : Nat) (s : State) : Host.Outcome State Fault Refusal :=
  issue 4 { seqOk := true, priv := if b = 18 then 2 else 0
            srcs := blocking (if sregWide b then s.cur.spregs a else s.cur.sregs a) }
    (fun s =>
      let x := s.cur.sval a
      let x64 := s.cur.spval a
      match b with
      | 0 => .done (s.modCur fun g => g.mapMe fun m => { m with mode := modeSwr m.mode x g.isSeq })
      | 8 => .done (s.modCur fun g => { g with tcause := tcauseSwr g.tcause x })
      | 9 => .done (s.modCur fun g => { g with tpc := x64 })
      | 10 => .done (s.modCur fun g => { g with taddr := x64 })
      | 11 => .done (s.modCur fun g => { g with tinfo := x })
      | 15 => .done (s.modCur fun g => { g with nerr := ((w32 g.nerr) &&& ~~~(x >>> (8 : Nat))).toNat % 256 })
      | 16 => swrDstkp x.toNat s
      | 18 =>
        .done (s.modDie s.cur.die fun d => { d with drop := d.drop && !bitAt x.toNat 4 })
      | _ => .trap s (s.illegal 0x11)) s

/-- TRAPRET (R335). -/
def execTrapret (s : State) : Host.Outcome State Fault Refusal :=
  issue 4 {}
    (fun s =>
      if !tcauseInh s.cur.tcause then .trap s (s.illegal 0x0E)
      else if tcauseArm s.cur.tcause = s.cur.sel then .jump s.returnTrap
      else .done s.returnTrap) s

/-! ### Translations (R336) -/

/-- The instruction's operation is under way and completes it. -/
def State.underWay (s : State) (f : Flight) : Eff := .stay ((s.waitAs .arriving 0 0).send f)

/-- The arm whose operation has completed goes on. -/
def State.operationDone (s : State) (tid : Nat) (armB : Bool) : State :=
  s.modThread tid fun g => g.mapArm armB fun a => if a.occ && a.ws == .arriving then a.resume else a

/-- TLBINV (R336). -/
def execTlbinv (a b c : Nat) (s : State) : Host.Outcome State Fault Refusal :=
  issue 4 { priv := 1, srcs := blocking ((if c = 0 then s.cur.spregs a else []) ++
      (if c ≤ 1 then s.cur.spregs b else [])) }
    (fun s =>
      if s.cur.me.replay then .done s
      else s.underWay (.tlbinv s.cur.tid s.cur.sel c (s.cur.spval a).toNat (s.cur.spval b).toNat)) s

/-- TLBINV_COMPLETE: no TLB supplies a translation of the set any more (R336). -/
def execTlbinvComplete (s : State) : Host.Outcome State Fault Refusal :=
  .next (s.complete (fun f => match f with
      | .tlbinv tid armB c va troot => some (tid, armB, c, va, troot)
      | _ => none)
    fun s (tid, armB, c, va, troot) =>
      (s.untranslate fun e => c == 2 || (e.troot == troot &&
        (c == 1 || va / pageBytes e.psize == e.base / pageBytes e.psize))).operationDone tid armB)

/-! ### The fault buffer and replay (R79, R80, R337, R338, R435) -/

/-- The eight words of a fault-buffer entry (R337). -/
def Miss.words (m : Miss) : List Nat :=
  words64 m.va ++ words64 m.troot ++
    [m.region % 65536 + (1 + bitW m.isW 2 + bitW m.isX 4 + bitW m.isSeq 8) * 2 ^ 16 + m.psize % 256 * 2 ^ 24,
     satTo 65535 m.npark] ++ words64 m.first

/-- FBREAD: the oldest entry of the die's buffer, or zeros (R337). -/
def execFbread (a : Nat) (s : State) : Host.Outcome State Fault Refusal :=
  let rs := s.cur.sblock a 8
  issue 4 { priv := 1, dests := rs }
    (fun s =>
      let g := s.cur
      let (ws, rest) : List Nat × List Miss := match (s.die g.die).faults with
        | m :: r => (m.words, r)
        | [] => (List.replicate 8 0, [])
      .done (((s.modDie g.die fun d => { d with faults := rest }).modCur fun g => g.awaiting rs).send
        (.fbread g.tid (blockFills g.sel a (ws.map w32))))) s

/-- FBREAD_REPLY (R337). -/
def execFbreadReply (s : State) : Host.Outcome State Fault Refusal :=
  .next (s.complete (fun f => match f with
      | .fbread tid fs => some (tid, fs)
      | _ => none)
    fun s (tid, fs) => s.fills tid fs)

/-- The parked arms of every thread that satisfies a test replay; the record of a saved one says so (R45, R338). -/
def State.replayWhere (s : State) (p : Group → Bool) : State :=
  (s.threads.filter fun g => p g && !g.resident).foldl (fun s g => s.syncRecord g.tid) { s with
    cur := if p s.cur then s.cur.replayParked else s.cur
    others := s.others.map fun g => if p g then g.replayParked else g }

/-- The thread is the group of a name, or a sequencer that runs its request (R338). -/
def State.servesName (s : State) (name : Nat) (g : Group) : Bool :=
  match g.seq with
  | some cl => (s.cluster cl).req.who.tid == name
  | none => g.tid == name

/-- REPLAY of the threads that satisfy p: no effect where none of them has a parked arm (R338, R428). -/
def State.replayOf (s : State) (p : Group → Bool) : Eff :=
  if s.threads.any fun g => p g && (g.armA.parked || g.armB.parked) then .done (s.replayWhere p) else .idle s

/-- REPLAY of a named group (R80, R338). -/
def execReplay (a : Nat) (s : State) : Host.Outcome State Fault Refusal :=
  issue 4 { priv := 1, srcs := blocking (s.cur.spregs a) }
    (fun s => s.replayOf (s.servesName (s.cur.spval a).toNat)) s

/-- REPLAY of the issuing die (R79, R80, R338). -/
def execReplayDie (s : State) : Host.Outcome State Fault Refusal :=
  issue 4 { priv := 1 } (fun s => s.replayOf fun g => g.die == s.cur.die) s

/-! ### Coherence changes (R82, R184, R339, R389, R392) -/

/-- The page of a physical range holds a granule that is watched, or whose watch is being installed (R184). -/
def State.pageWatched (s : State) (p : Place) (n : Nat) : Bool :=
  match p with
  | .dev pa => s.allWatches.any fun w => w.parts.any fun (a, l, _) => decide (a < pa + n) && decide (pa < a + l)
  | _ => false

/-- A new PTE word breaks R75 for a page size and COH, or sets another bit (R339). -/
def badFrame (word psize coh : Nat) : Bool :=
  word % 4096 != 0 || pteKey word != 0 || (leafBad (word + coh * 2 + 1) psize).isSome

/-- The page of VA under TROOT frozen, to be published with a word; or the status why not (R82, R339). -/
def State.changeCoh (s : State) (d : RegId) (va troot coh : Nat) (word : Option Nat) : Eff :=
  let status (x : W32) : Eff := .done (s.modCur fun g => g.put32 d x)
  match s.walk troot va with
  | .leaf pte pteAt psize =>
    let n := pageBytes psize
    let old := leafPlace pte psize (va / n * n)
    if pteCoh pte = 3 then .stay s.stall
    else if s.pageWatched old n then status 2
    else
      let keep := pte - pteCoh pte * 2
      let publish : Option (Nat × Option Place) := match word with
        | none => some (keep + coh * 2, none)
        | some w =>
          if badFrame w psize coh then none
          else
            let new := keep - pteFrame pte - pteHome pte * 2 ^ 48 - bitW (pteHost pte) 32 + w + coh * 2
            some (new, some (leafPlace new psize (va / n * n)))
      match publish with
      | none => status 3
      | some (x, new) =>
        let s1 := s.storeDev pteAt 8 (pte ||| 6)
        .done (((s1.untranslate fun e => e.pteAt == pteAt).modCur fun g => g.awaiting [d]).send
          (.coh s.cur.tid d pteAt x old n new))
  | _ => status 1

/-- SETCOH (R339). -/
def execSetcoh (a b c : Nat) (s : State) : Host.Outcome State Fault Refusal :=
  let r := s.cur.pairAt b
  issue 4 { priv := 1, srcs := blocking (s.cur.sblock a 4), dests := [r] }
    (fun s => s.changeCoh r (s.cur.spval a).toNat (s.cur.spval (a + 2)).toNat c none) s

/-- MIGRATE (R339). -/
def execMigrate (a b c : Nat) (s : State) : Host.Outcome State Fault Refusal :=
  let r := s.cur.pairAt b
  issue 4 { priv := 1, srcs := blocking (s.cur.sblock a 6), dests := [r] }
    (fun s => s.changeCoh r (s.cur.spval a).toNat (s.cur.spval (a + 2)).toNat c
      (some (s.cur.spval (a + 4)).toNat)) s

/-- The listed cells in the n addresses from a, moved to start at b. -/
def cellsIn (m : Memory) (a n b : Nat) : List Host.Cell :=
  m.cells.filterMap fun c => if a ≤ c.1 ∧ c.1 < a + n then some (b + (c.1 - a), c.2) else none

/-- n addresses from a hold nothing but what the cells say. -/
def Memory.overwrite (m : Memory) (a n : Nat) (cs : List Host.Cell) : Memory :=
  cs.foldl (fun m c => m.put c.1 c.2) ⟨m.cells.filter fun c => !(decide (a ≤ c.1) && decide (c.1 < a + n))⟩

/-- The damaged lines of a page of n bytes. -/
def State.damagedIn (s : State) (a n : Nat) : List Nat :=
  (s.mdie (sectorOf a)).damaged.filter fun l => decide (a ≤ l) && decide (l < a + n)

/-- A copied page is whole but where the old one was damaged: those lines enter the list of the new home, and what the
list held of the new frame has been overwritten (R392). -/
def State.moveDamage (s : State) (old new : Place) (n : Nat) : State :=
  match new with
  | .dev b =>
    let s1 := (s.damagedIn b n).foldl State.clearDamage s
    match old with
    | .dev a => (s.damagedIn a n).foldl (fun s l => s.damageLine (b + (l - a))) s1
    | _ => s1
  | _ => s

/-- A contribution follows its page (R144, R389). -/
def Contrib.movePlace (f : Place → Place) (c : Contrib) : Contrib := { c with place := f c.place }

/-- What an operation in flight has still to access follows a page: it reissues with the new translation (R82). -/
def Flight.movePlace (f : Place → Place) : Flight → Flight
  | .redApply c => .redApply (c.movePlace f)
  | .wsload t b d o v ps => .wsload t b d o v (ps.map fun p => (f p.1, p.2))
  | .copy t j => .copy t { j with todo := j.todo.map fun w => { w with src := f w.src, dst := f w.dst } }
  | x => x

/-- What an engine has still to access follows a page. -/
def Cluster.movePlace (f : Place → Place) (c : Cluster) : Cluster :=
  let walk (w : Walk) : Walk := { w with
    places := w.places.map fun p => (p.1, p.2.1, f p.2.2)
    lines := w.lines.map fun l => (f l.1, l.2) }
  let op (e : EngSlot) : EngSlot := match e.op with
    | .tstore td a n rows => { e with op := .tstore td a n (rows.map fun r => r.map fun b => (f b.1, b.2)) }
    | _ => e
  { c with walks := c.walks.map fun w => w.map walk, engine := c.engine.map op }

/-- What a TDRAIN has still to write follows a page. -/
def Arm.movePlace (f : Place → Place) (a : Arm) : Arm :=
  { a with drain := a.drain.map fun d => { d with rows := d.rows.map fun r => r.map f } }

/-- What a group has still to access follows a page. -/
def Group.movePlace (f : Place → Place) (g : Group) : Group :=
  { g with armA := g.armA.movePlace f, armB := g.armB.movePlace f }

/-- Every access that a page's old home has refused is made in its new frame (R82, R389); FIN and the place of a launch
record stay the physical addresses that HBIND and LAUNCH found (R177, R322). -/
def State.movePlaces (s : State) (f : Place → Place) : State :=
  { s with
    cur := s.cur.movePlace f
    others := s.others.map (Group.movePlace f)
    clusters := s.clusters.map (Cluster.movePlace f)
    clusterRecs := s.clusterRecs.map fun x => { x with unit := x.unit.movePlace f }
    flight := s.flight.map (Flight.movePlace f)
    abuf := s.abuf.map (Contrib.movePlace f)
    redq := s.redq.map (Contrib.movePlace f)
    rsets := s.rsets.map (Contrib.movePlace f) }

/-- Requests of hosts and peers that wait for a frame of n bytes wait for the new one (R389). -/
def State.moveRequests (s : State) (old new : Place) (n : Nat) : State :=
  { s with
    mdies := s.mdies.map fun d => { d with held := d.held.map (Held.move old new n) }
    dies := s.dies.map fun d => { d with latch := d.latch.map (HostReq.move old new n) } }

/-- A page copied to its new frame (R82). -/
def State.movePage (s : State) (old new : Place) (n : Nat) : State :=
  let (m, a) := s.memOf old
  let (_, b) := s.memOf new
  let cs := cellsIn m a n b
  let s1 := s.setMemOf new ((s.memOf new).1.overwrite b n cs)
  ((s1.moveDamage old new n).movePlaces (Place.moved old new n)).moveRequests old new n

/-- Cached copies of a page's lines are written back: LPDDR holds what memory reads (R82). -/
def State.settlePage (s : State) (p : Place) (n : Nat) : State :=
  match p with
  | .dev pa => { s with dirty := s.dirty.filter fun e => !(decide (pa ≤ e.1) && decide (e.1 < pa + n)) }
  | _ => s

/-- COH_CHANGE_PUBLISH: cached copies written back, the page moved, then the new word; the status is OK (R82, R339). -/
def execCohChangePublish (s : State) : Host.Outcome State Fault Refusal :=
  .next (s.complete (fun f => match f with
      | .coh tid d pteAt pte old n new => some (tid, d, pteAt, pte, old, n, new)
      | _ => none)
    fun s (tid, d, pteAt, pte, old, n, new) =>
      let s1 := s.settlePage old n
      let s2 := match new with
        | some p => (s1.movePage old p n).settlePage p n
        | none => s1
      let s3 := ((s2.storeDev pteAt 8 pte).untranslate fun e => e.pteAt == pteAt).fills tid [.word d 0]
      match old with
      | .dev a => if (s3.mdie (sectorOf a)).power.state = 0 then s3.replayHeld (sectorOf a) else s3
      | _ => s3)

/-! ### The weight store (R71, R340, R395) -/

/-- The pieces of a source that have a place, with their lengths. -/
def sourceParts (hits : List Hit) (ps : List (Nat × Nat)) : List (Place × Nat) :=
  (hits.zip ps).map fun (h, p) => (h.lo, p.2)

/-- WSLOAD (R340). -/
def execWsload (a c : Nat) (s : State) : Host.Outcome State Fault Refusal :=
  issue 4 { priv := 1, srcs := blocking (s.cur.sblock a 4) }
    (fun s =>
      let g := s.cur
      let src := g.spval a
      let off := (g.sval (a + 2)).toNat
      let len := (g.sval (a + 3)).toNat
      if g.me.replay && g.me.ws == .ready && g.me.park == 0 then .done s
      else if off % 256 ≠ 0 then .trap s ⟨.misalign, 4, w64 off, 0⟩
      else if len % 256 ≠ 0 then .trap s ⟨.misalign, 4, w64 len, 0⟩
      else if len = 0 ∨ 2 ^ 28 < off + len then .trap s (s.illegal 0x0F)
      else if src.toNat / 2 ^ 57 = 127 then .trap s ⟨.aperture, 2, src, 0⟩
      else
        let ps := pieces 4200 src.toNat len
        match s.checkLanes ⟨.load, true, 1, 1⟩ (ps.map fun p => (0, w64 p.1)) with
        | .trap t => .trap s t
        | .frozen d => .stay (s.waitHome d)
        | .ok hits [] =>
          s.met hits
            (.stay ((((s.touchAll false hits).modCur fun g => g.mapMe fun a => { a with park := 0 }).waitAs .wsload 0 0).send
              (.wsload g.tid g.sel c off src (sourceParts hits ps))))
        | .ok _ absent => .park (s.park .load false (absent.take 1))) s

/-- Only groups of the issuer's launch, and no routine, are on the target die (R340). -/
def State.dieQuiet (s : State) (launch : W32) (die : Nat) : Bool :=
  let on (d : Nat) : Bool := d == die || die == 15
  !(s.threads.any fun g => g.seq.isNone && g.resident && on g.loc.die && g.launchId != launch)
    && !(s.clusters.zipIdx.any fun (c, cl) => c.running && on (cl / 24))

/-- Bytes of the pieces copied into a die's weight store. -/
def State.loadWeights (s : State) (die : Nat) : Nat → List (Place × Nat) → State
  | _, [] => s
  | off, (p, n) :: rest =>
    let (m, a) := s.memOf p
    let b := weightKey die off
    ({ s with weights := s.weights.overwrite b n (cellsIn m a n b) }).loadWeights die (off + n) rest

/-- Every stripe of a bank lies in one of the ranges (R395). -/
def bankCovered (b : Nat) (rs : List (Nat × Nat × Nat)) : Bool :=
  (List.range 32768).all fun i =>
    let o := i * 8192 + b * 256
    rs.any fun (x, off, len) => x == b && decide (off ≤ o) && decide (o + 256 ≤ off + len)

/-- Damaged banks that a WSLOAD has now rewritten whole are whole again (R395). -/
def Die.repair (d : Die) (off len : Nat) : Die :=
  let bad := (List.range 32).filter fun b => d.badBanks.getLsbD b
  if bad.isEmpty then d
  else
    let fx := d.fixed ++ bad.map fun b => (b, off, len)
    bad.foldl (fun d b =>
      if bankCovered b fx then
        { d with badBanks := setBit d.badBanks b false, fixed := d.fixed.filter fun x => x.1 != b } else d)
      { d with fixed := fx }

/-- Where the lines that n bytes from an address meet begin among them. -/
def lineStarts (a n : Nat) : List Nat :=
  (List.range ((a % 64 + n + 63) / 64)).map fun i => if i = 0 then a else (a / 64 + i) * 64

/-- Words in error that a WSLOAD has rewritten are whole again (R395). -/
def Die.rewrite (d : Die) (off len : Nat) : Die :=
  { d.repair off len with badWords := d.badWords.filter fun w => !(decide (off ≤ w) && decide (w < off + len)) }

/-- The first line in error of a source, by the address of its first byte consumed, and the DETAIL (R372, R392). -/
def State.partsErr (s : State) : Nat → List (Place × Nat) → Option (Nat × Nat)
  | _, [] => none
  | a, (p, n) :: rest =>
    match (lineStarts a n).findSome? fun x => (s.readErr (p.plus (x - a))).map fun d => (x, d) with
    | some e => some e
    | none => s.partsErr (a + n) rest

/-- A WSLOAD whose target dies are quiet: thread, arm, die, offset, source, pieces (R340). -/
def State.wsloadReady (s : State) : Flight → Option (Nat × Bool × Nat × Nat × W64 × List (Place × Nat))
  | .wsload tid armB die off src parts =>
    match s.thread tid with
    | some g => if s.dieQuiet g.launchId die then some (tid, armB, die, off, src, parts) else none
    | none => some (tid, armB, die, off, src, parts)
  | _ => none

/-- The copy of a WSLOAD is made and the arm goes on; e is the first error of its source (R340, R391, R395). -/
def State.loadStore (s : State) (e : Option (Nat × Nat)) : Nat × Bool × Nat × Nat × W64 × List (Place × Nat) → State
  | (tid, armB, die, off, _, parts) =>
    let len := (parts.map (·.2)).sum
    let s1 := (if die = 15 then List.range 6 else [die]).foldl (fun s d =>
      (s.loadWeights d off parts).modDie d fun x => x.rewrite off len) s
    let since : W64 := match s.thread tid with
      | some g => (g.arm armB).since
      | none => s.clock
    (s1.pendMcheck tid (e.map fun e => ⟨armB, w64 e.1, 0, e.2, since⟩)).modThread tid fun g => g.mapArm armB Arm.resume

/-- WSLOAD_COMPLETE: once the target dies are quiet the copy is made and the arm goes on (R340, R395). -/
def execWsloadComplete (s : State) : Host.Outcome State Fault Refusal :=
  .next (s.complete s.wsloadReady fun s x => s.loadStore (s.partsErr x.2.2.2.2.1.toNat x.2.2.2.2.2) x)

/-! ### Halting and swapping (R341) -/

/-- HALT with c = 0: the group stops and its atomic buffers drain, and its record says so if it is saved; the instruction
completes once it has stopped, its own group after it (R45, R98, R341). -/
def execHalt (a : Nat) (s : State) : Host.Outcome State Fault Refusal :=
  issue 4 { priv := 1, srcs := blocking (s.cur.spregs a) }
    (fun s =>
      if s.cur.me.replay then .done s
      else
        let name := (s.cur.spval a).toNat
        match s.groupOf name with
        | some t =>
          let s1 := ((s.modThread name fun t => { t with halted := true }).syncRecord name).flush name
          if t.migrating then .idle s
          else if name = s.cur.tid then .done s1
          else s1.underWay (.halt s.cur.tid s.cur.sel name)
        | none => .idle s) s

/-- HALT with c = 1 (R341, R365). -/
def execHaltRelease (a : Nat) (s : State) : Host.Outcome State Fault Refusal :=
  issue 4 { priv := 1, srcs := blocking (s.cur.spregs a) }
    (fun s =>
      let name := (s.cur.spval a).toNat
      match s.groupOf name with
      | some t =>
        if t.migrating then .idle s
        else .done ((s.modThread name fun t => { t with halted := false, faulted := false }).syncRecord name)
      | none => .idle s) s

/-- SWAPOUT: the status follows (R341). -/
def execSwapout (a b : Nat) (s : State) : Host.Outcome State Fault Refusal :=
  let r := s.cur.pairAt b
  issue 4 { priv := 1, srcs := blocking (s.cur.spregs a), dests := [r] }
    (fun s =>
      let name := (s.cur.spval a).toNat
      match s.groupOf name with
      | some t =>
        if t.resident && !t.migrating then
          .done ((s.modCur fun g => g.awaiting [r]).send (.swapout s.cur.tid r name))
        else .done (s.modCur fun g => g.put32 r 1)
      | none => .done (s.modCur fun g => g.put32 r 1)) s

/-- A HALT or SWAPOUT whose next action can be taken: a SWAPOUT names 0 once its group has been SAVED. -/
def State.haltReady (s : State) : Flight → Bool
  | .halt _ _ t => s.drainedOf t
  | .swapout _ _ t =>
    match s.groupOf t with
    | none => true
    | some g => s.swappable g && !s.stopped g
  | _ => false

/-- HALT_STOPPED: a HALT completes, or a SWAPOUT starts its swap or is answered (R341). -/
def execHaltStopped (s : State) : Host.Outcome State Fault Refusal :=
  .next (s.complete (fun f => if s.haltReady f then some f else none)
    fun s f =>
      match f with
      | .halt tid armB _ => s.operationDone tid armB
      | .swapout tid d t =>
        match s.groupOf t with
        | none => (s.fills tid [.word d (if t = 0 then 0 else 1)]).syncRecord tid
        | some g => (s.startSwap g).send f
      | _ => s)

end Sys2Proof.Machine
end

