-- ==== Sys2Proof/Machine/Repair.lean ====
section
/-!
DEFINITION. Uncorrectable errors, power states, heat, fencing, spares and the security alarm (R111,
R203 to R207, R369, R389 to R395, R421 to R427).
-/

namespace Sys2Proof.Machine

/-! ### Memory and registers (R391 to R393) -/

/-- MEMORY_UNCORRECTABLE: payload address; 1 when the line was cached clean; 1 when nothing consumed it; or an offset in
the weight store and fourth 1 + its die (R369, R392, R395). -/
def execMemoryUncorrectable (s : State) : Host.Outcome State Fault Refusal :=
  let line := s.arg 0 / 64 * 64
  .next (if s.arg 3 ≠ 0 then
      s.modDie (s.arg 3 - 1) fun d => { d with badWords := (s.arg 0 / 4 * 4) :: d.badWords }
    else if s.argB 1 then s
    else if s.argB 2 && !s.damageFull line then
      ((s.damageLine line).note .scrub (sectorOf line) line).charge (s.mappers (pageHolds line)) line
    else s.damageLine line)

/-- REGISTER_UNCORRECTABLE: payload thread, kind (0 s of A or shared, 3 s of B, 1 v lane, 2 p, 4 scratchpad
word, 5 tag; 6 a tile element of cluster thread), number, lane (R393). -/
def execRegisterUncorrectable (s : State) : Host.Outcome State Fault Refusal :=
  let kind := s.arg 1
  let n := s.arg 2
  let lane := s.arg 3
  let tile (t : Tile) : Tile := { t with bad := lane :: t.bad }
  .next (if kind = 6 then s.modCluster (s.arg 0) fun c => { c with tiles := modAt tile n c.tiles }
    else s.modThread (s.arg 0) fun g => { g with bad := (kind, n, lane) :: g.bad })

/-! ### Responses of hosts and peers (R389 to R391) -/

/-- A lane of a fill is zero (R391). -/
def Fill.zeroLane (lane : Nat) : Fill → Fill
  | .word r _ => .word r 0
  | .lanes n m xs tag => .lanes n m (xs.set lane 0) tag
  | .part n m xs tag => .part n m (xs.set lane 0) tag

/-- The lower lane of two errors stands (R391). -/
def joinErr (e : Option MCheck) (m : MCheck) : Option MCheck :=
  match e with
  | some x => if x.lane ≤ m.lane then some x else some m
  | none => some m

/-- The thread of an operation in flight that has requests at hosts and peers. -/
def Flight.issuer : Flight → Option Nat
  | .load w _ _ _ | .atomic w _ _ _ | .store w _ => some w.tid
  | .copy t _ | .discarded t _ _ _ => some t
  | _ => none

/-- A request's error. -/
def Far.error (x : Far) (detail : Nat) : MCheck := ⟨x.armB, x.addr, x.lane, detail, x.issued⟩

/-- The operation's request has failed with a DETAIL: its lanes read zero, its error is known (R391, R439). -/
def Flight.fail (f : Flight) (x : Far) (detail : Nat) : Flight :=
  let m := x.error detail
  let zero (f : Fill) : Fill := (x.lane :: x.also).foldl (fun f k => f.zeroLane k) f
  match f with
  | .load t fs e far => .load t (fs.map zero) (joinErr e m) (far.filter fun y => y != x)
  | .atomic t fs e far => .atomic t (fs.map zero) (joinErr e m) (far.filter fun y => y != x)
  | .copy t j => .copy t { j with err := joinErr j.err m, far := j.far.filter fun y => y != x }
  | .store t far => .store t (far.filter fun y => y != x)
  | .discarded t r l far => .discarded t r l (far.filter fun y => y != x)
  | f => f

/-- A failed request that writes may not have been performed (R390, log 6). -/
def State.undo (s : State) (x : Far) : State :=
  let s1 := if Config.lostWritePerformed s.fresh then s
    else
      match x.place with
      | .peer q pa => { s with peerMem := s.peerMem.wr (peerKey q pa) x.size x.old }
      | .host _ pa => { s with hostMem := s.hostMem.wr pa x.size x.old }
      | _ => s
  s1.tick

/-- The requests of one operation that satisfy a test fail; its writes to a place may be undone where they all do (R389,
R390, R391). -/
def State.failOp (s : State) (p : Far → Bool) (detail : Nat) (f : Flight) : State :=
  let gone := f.far.filter p
  let s1 : State := { s with flight := s.flight ++ [gone.foldl (fun f x => f.fail x detail) f] }
  let alone := gone.filter fun x => f.far.all fun y => y.place != x.place || p y
  match f with
  | .store w _ => alone.foldl State.undo (gone.foldl (fun s x => s.pendMcheck w.tid (some (x.error detail))) s1)
  | .atomic _ _ _ _ => alone.foldl State.undo s1
  | .discarded t r l _ => gone.foldl (fun s x => s.mcheckRecord r t l (x.error detail)) s1
  | _ => s1

/-- Every outstanding request that satisfies a test fails, the newest write undone first (R390, R415). -/
def State.failRequests (s : State) (p : Nat → Far → Bool) (detail : Nat) : State :=
  let s1 := s.flight.reverse.foldl (fun s f => s.failOp (p (f.issuer.getD 0)) detail f)
    { s with flight := [] }
  { s1 with flight := s1.flight.reverse }

/-- Contributions on their way to hosts and peers that satisfy a test fail: none is made there (R389, R391). -/
def State.failReds (s : State) (p : Contrib → Bool) (detail : Nat) : State :=
  let gone (f : Flight) : Option Contrib := match f with
    | .redApply c => if c.place.away && p c then some c else none
    | _ => none
  (s.flight.filterMap gone).foldl (fun s c =>
    (s.pendMcheck c.who.tid (some ⟨c.who.arms.b && !c.who.arms.a, c.addr, c.lane, detail, c.issued⟩)).settleSets c.launch)
    { s with flight := s.flight.filter fun f => (gone f).isNone }

/-- A test of places that gives those of hosts and peers an error. -/
def awayErr (detail : Nat) (p : Place) : Option Nat := if p.away then some detail else none

/-- The access that an arm makes at issue to an address in a host's or a peer's memory, its fetch or a read of its
instruction, is answered with an error (R389). -/
def State.issueFails (s : State) (tid : Nat) (armB : Bool) (a : W64) (detail : Nat) : State :=
  match s.thread tid with
  | none => s
  | some g =>
    match s.readable g.eff.troot a.toNat with
    | some p =>
      if p.away && s.canIssue g armB then (s.turnTo tid armB).trapped ⟨.mcheck, detail, a, 0⟩ else s
    | none => s

/-- The next walk tile of a slot reads a host's or a peer's memory, which answers with an error (R389, R391). -/
def State.walkFails (s : State) (cl n detail : Nat) : State :=
  match (s.cluster cl).walk n with
  | none => s
  | some w =>
    match (w.newPlaces (s.cluster cl).clustUsed w.data.length).find? fun x => x.2.away with
    | some (a, _) =>
      if s.fetchReady cl n w then (s.fetchNext cl n w).engineTrap cl ⟨.mcheck, detail, w64 a, 0⟩ else s
    | none => s

/-- The next row of a cluster's TSTORE meets an error response (R389, R391). -/
def State.tstoreFails (s : State) (cl detail : Nat) : State :=
  match s.nextTstore cl with
  | some (n, e) => if s.engineStopped cl then s else s.tstoreStep cl n e (awayErr detail)
  | none => s

/-- The next row of a TDRAIN meets an error response (R389, R391). -/
def State.drainFails (s : State) (detail : Nat) : State :=
  match s.drainReady with
  | some (tid, armB, d) => s.drainStep tid armB d (awayErr detail)
  | none => s

/-- The address of the first piece of a source that lies in a host's or a peer's memory. -/
def awayPart : Nat → List (Place × Nat) → Option Nat
  | _, [] => none
  | a, (p, n) :: rest => if p.away then some a else awayPart (a + n) rest

/-- A WSLOAD's source meets an error response (R389, R391). -/
def State.wsloadFails (s : State) (detail : Nat) : State :=
  s.complete s.wsloadReady fun s x =>
    s.loadStore ((awayPart x.2.2.2.2.1.toNat x.2.2.2.2.2).map fun a => (a, detail)) x

/-- REMOTE_ERROR_RESPONSE: an error response, or none for 100 ms, to an access to a host or a peer. Payload thread, arm,
address, lane, 1 when the peer's request was lost, and what made the access: 0 an operation in flight, RED among them; 1 an
arm at issue; 2 a TSTORE row of a cluster; 3 a TDRAIN row; 4 a walk tile of a cluster, its slot second; 5 a WSLOAD (R389,
R391). -/
def execRemoteErrorResponse (s : State) : Host.Outcome State Fault Refusal :=
  let at_ (t : Nat) (b : Bool) (a : W64) (lanes : List Nat) : Bool :=
    t == s.arg 0 && b == s.argB 1 && a == w64 (s.arg 2) && lanes.contains (s.arg 3)
  let detail := if s.argB 4 then 2 else 3
  .next (match s.arg 5 with
    | 0 => (s.failRequests (fun t x => at_ t x.armB x.addr (x.lane :: x.also)) detail).failReds
        (fun c => at_ c.who.tid (c.who.arms.b && !c.who.arms.a) c.addr [c.lane]) detail
    | 1 => s.issueFails (s.arg 0) (s.argB 1) (w64 (s.arg 2)) detail
    | 2 => s.tstoreFails (s.arg 0) detail
    | 3 => s.drainFails detail
    | 4 => s.walkFails (s.arg 0) (s.arg 1) detail
    | _ => s.wsloadFails detail)

/-! ### The weight store (R71, R394, R395) -/

/-- WEIGHT_BANK_REFRESH: once the bank's microsecond is over the next bank's begins (R71). -/
def execWeightBankRefresh (s : State) : Host.Outcome State Fault Refusal :=
  .next (if 1000 ≤ s.refreshed (s.arg 0) then
      s.modDie (s.arg 0) fun d => { d with bank := (d.bank + 1) % 32, bankAt := d.bankAt + 1000 }
    else s)

/-- WEIGHT_REFRESH_FAIL: payload die, bank; the whole bank is damaged (R395). -/
def execWeightRefreshFail (s : State) : Host.Outcome State Fault Refusal :=
  let b := s.arg 1 % 32
  .next ((s.modDie (s.arg 0) fun d =>
    { d with badBanks := setBit d.badBanks b true, fixed := d.fixed.filter fun x => !(x.1 == b) }).note
      .refreshFail (s.arg 0) b)

/-! ### Power states (R111, R203, R206, R425) -/

/-- Clusters of a compute die. -/
def dieClusters (d : Nat) : List Nat := (List.range 24).map (· + 24 * d)

/-- Resident groups of a die. -/
def State.groupsOn (s : State) (d : Nat) : List Group :=
  s.threads.filter fun g => g.seq.isNone && g.resident && g.loc.die == d

/-- No group, routine or engine operation on the compute die (R203). -/
def State.dieIdle (s : State) (d : Nat) : Bool :=
  (s.groupsOn d).isEmpty &&
    (dieClusters d).all fun cl => !(s.cluster cl).running && (s.cluster cl).engine.isEmpty

/-- Every tile of the die is released (R203). -/
def State.tilesFree (s : State) (d : Nat) : Bool :=
  (dieClusters d).all fun cl => (s.cluster cl).tiles.all fun t => t.owner.isNone

/-- What leaves with the power of a compute die: everything but what names it (R150, R203, R206). -/
def State.wipeDie (s : State) (d : Nat) : State :=
  let s1 := (dieClusters d).foldl (fun s cl =>
    s.modCluster cl fun c => { Cluster.reset with retired := c.retired, retiring := c.retiring }) s
  let s2 := s1.modDie d fun x => { Die.reset with
    power := x.power, latch := x.latch, fenced := x.fenced, excluded := x.excluded, spares := x.spares
    bankAt := s.clock }
  { s2.untranslate (fun e => e.die == d) with
    weights := s2.weights.overwrite (weightKey d 0) (2 ^ 28) [] }

/-- State that a compute die may enter: D2 only with every tile released (R203); D1 for one excluded by
heat (R425). -/
def State.dieTarget (s : State) (d : Nat) : Nat :=
  let x := s.die d
  if x.power.req = 2 ∧ s.tilesFree d then 2
  else if x.power.req ≠ 0 ∨ x.excluded then 1 else 0

/-- The place lies in a sector. -/
def Place.inSector (d : Nat) : Place → Bool
  | .dev pa => sectorOf pa == d
  | _ => false

/-- An operation in flight has still to access a sector. -/
def Flight.accesses (d : Nat) : Flight → Bool
  | .redApply c => c.place.inSector d
  | .coh _ _ pteAt _ old _ new => sectorOf pteAt == d || old.inSector d || (new.map (Place.inSector d)).getD false
  | .wsload _ _ _ _ _ ps => ps.any fun p => p.1.inSector d
  | .copy _ j => j.todo.any fun w => w.src.inSector d || w.dst.inSector d
  | .watchedWrite pa _ _ => sectorOf pa == d
  | _ => false

/-- An engine operation has still to store to a sector, or a walk with a permit to read there. -/
def Cluster.accesses (c : Cluster) (d : Nat) : Bool :=
  (c.engine.any fun e => match e.op with
    | .tstore _ _ _ rows => (rows.drop e.step).any fun r => r.any fun b => b.1.inSector d
    | _ => false)
  || c.walks.any fun w => match w with
    | some w => decide (0 < w.permits) && w.places.any fun x => x.2.2.inSector d
    | none => false

/-- No access to a memory die's sector is pending: in flight, in an atomic buffer, of an engine or a TDRAIN, or held
(R203). -/
def State.mdieIdle (s : State) (d : Nat) : Bool :=
  let drains (a : Arm) : Bool := match a.drain with
    | some x => (x.rows.drop x.row).any fun r => r.any (Place.inSector d)
    | none => false
  (s.mdie d).held.isEmpty && !(s.flight.any (Flight.accesses d)) && !((s.abuf ++ s.redq).any fun c => c.place.inSector d)
    && !(s.clusters.any fun c => c.accesses d) && !s.threads.any fun g => drains g.armA || drains g.armB

/-- Lines of a sector written back (R203). -/
def State.writeBack (s : State) (d : Nat) : State :=
  { s with dirty := s.dirty.filter fun e => !(sectorOf e.1 == d) }

/-- DIE_POWER_DOWN: payload die, 1 for a memory die (R203, R206). -/
def execDiePowerDown (s : State) : Host.Outcome State Fault Refusal :=
  let d := s.arg 0
  .next (if s.argB 1 then
      let x := (s.mdie d).power
      if x.state < x.req ∧ s.mdieIdle d then
        let s1 := s.modMdie d fun m => { m with power := { m.power with state := m.power.req } }
        if x.req = 2 then s1.writeBack d else s1
      else s
    else
      let t := s.dieTarget d
      if (s.die d).power.state < t ∧ s.dieIdle d then
        let s1 := s.modDie d fun x => { x with power := { x.power with state := t } }
        if t = 2 then s1.wipeDie d else s1
      else s)

/-- DIE_WAKE_COMPLETE: payload die, 1 for a memory die: a die asked back to D0, or one that a request woke;
its requests replay in order. At a memory die in D0 those replay that waited for an engine's write (R99, R111, R206). -/
def execDieWakeComplete (s : State) : Host.Outcome State Fault Refusal :=
  let d := s.arg 0
  .next (if s.argB 1 then
      s.wakeMemory d
    else
      let x := s.die d
      if x.power.state = 0 ∨ (x.latch.isEmpty && (x.power.req != 0 || x.excluded)) then s
      else (s.modDie d fun x => { x with power := { x.power with state := 0 } }).replayLatch d)

/-- A management register's writer is the owner (R198); the head is a payload. -/
def State.fromOwner (s : State) (head : Nat) : Bool := head == s.owner

/-- DIEPWR_REQ: payload die, 1 for a memory die, REQ, head; 3 is reserved and reads as 0 (R205, R206). -/
def execDiepwrReq (s : State) : Host.Outcome State Fault Refusal :=
  let r := if s.arg 2 % 4 = 3 then 0 else s.arg 2 % 4
  let f (p : Power) : Power := { p with req := r }
  .next (if !s.fromOwner (s.arg 3) then s
    else if s.argB 1 then s.modMdie (s.arg 0) fun x => { x with power := f x.power }
    else s.modDie (s.arg 0) fun x => { x with power := f x.power })

/-! ### Heat (R204, R205, R414, R425, R426) -/

/-- Power of a die. -/
def State.power (s : State) (d : Nat) (isMem : Bool) : Power :=
  if isMem then (s.mdie d).power else (s.die d).power

/-- A change of a die's power. -/
def State.modPower (s : State) (d : Nat) (isMem : Bool) (f : Power → Power) : State :=
  if isMem then s.modMdie d fun x => { x with power := f x.power }
  else s.modDie d fun x => { x with power := f x.power }

/-- Number of a die in an event: memory dies from 16 on (as LOC, R422). -/
def dieNumber (d : Nat) (isMem : Bool) : Nat := if isMem then 16 + d else d

/-- A throttle is requested: it waits for the width changes in progress, and one requested already for those of its own
request (R205, R414). -/
def State.throttle (s : State) (d : Nat) (isMem : Bool) : State :=
  let ws := (List.range 24).filter fun p => (s.link p).changing
  if ws.isEmpty then
    (s.modPower d isMem fun p => { p with throt := true, wants := none }).note .throttle (dieNumber d isMem) 0
  else s.modPower d isMem fun p => if p.throt || p.wants.isSome then p else { p with wants := some ws }

/-- THERMAL_THROTTLE: payload die, 1 for a memory die, temperature (R204). -/
def execThermalThrottle (s : State) : Host.Outcome State Fault Refusal :=
  let t := s.arg 2
  .next (if (s.power (s.arg 0) (s.argB 1)).tempEmerg ≤ t then
      (s.modPower (s.arg 0) (s.argB 1) fun p => { p with temp := t }).throttle (s.arg 0) (s.argB 1)
    else s)

/-- THERMAL_UNTHROTTLE: payload die, 1 for a memory die, temperature: full speed, and open to placement again
(R204, R425). -/
def execThermalUnthrottle (s : State) : Host.Outcome State Fault Refusal :=
  let d := s.arg 0
  let t := s.arg 2
  .next (if t + 5 < (s.power d (s.argB 1)).tempEmerg then
      let s1 := s.modPower d (s.argB 1) fun p => { p with throt := false, wants := none, temp := t }
      let s2 := if s.argB 1 then s1 else s1.modDie d fun x => { x with excluded := false }
      s2.note .unthrottle (dieNumber d (s.argB 1)) 0
    else s)

/-- The region whose routine runs on a cluster, or has it bound by CLUST (R165). -/
def State.routineOn (s : State) (cl : Nat) : Option Nat :=
  let c := s.cluster cl
  if c.running then some c.req.region
  else c.leader.map fun l => (s.cluster l).req.region

/-- Regions with a group or a routine on the clusters that satisfy a test. -/
def State.regionsOn (s : State) (p : Nat → Bool) : List Nat :=
  ((s.threads.filter fun g => g.seq.isNone && g.resident && p g.loc.cluster).map (·.region)
    ++ ((List.range 144).filter p).filterMap s.routineOn).eraseDups

/-- Regions join the queue of pre-emptions (R123, R368). -/
def State.preemptLater (s : State) (rs : List Nat) : State :=
  { s with prectl := { s.prectl with queue := s.prectl.queue ++ rs.filter fun r => !s.prectl.queue.contains r } }

/-- THERMAL_EMERGENCY: payload die, temperature: the die's regions are pre-empted, the die goes to D1 when
they are, and takes no new work (R425). -/
def execThermalEmergency (s : State) : Host.Outcome State Fault Refusal :=
  let d := s.arg 0
  .next (if (s.die d).power.tempEmerg + 10 ≤ s.arg 1 then
      ((s.preemptLater (s.regionsOn fun cl => cl / 24 == d)).modDie d fun x =>
        { x with excluded := true, power := { x.power with temp := s.arg 1 } }).note .emergency d 0
    else s)

/-! ### Fencing (R421, R422) -/

/-- The thread that an operation in flight belongs to. -/
def Flight.owner (f : Flight) : Option Nat :=
  match f with
  | .msig w _ _ _ => some w.tid
  | .wsload t _ _ _ _ _ => some t
  | .swapout t _ _ | .copy t _ => some t
  | f => f.drains

/-- A group is lost with its core: its entry holds operations as a MIGRATING one (R422). -/
def State.loseGroup (s : State) (g : Group) : State :=
  let s1 := (s.debugForget g.tid).dropThread g.tid
  { s1 with
    lost := s1.lost ++ [(g.tid, g.region)]
    flight := s1.flight.filter fun f => !(f.owner == some g.tid)
    abuf := s1.abuf.filter fun c => !(c.who.tid == g.tid)
    redq := s1.redq.filter fun c => !(c.who.tid == g.tid)
    plq := s1.plq.filter fun q => !(q.who.tid == g.tid) }.setName { s1.nameEntry g.tid with state := .migrating }

/-- Members on other dies of the neighbourhoods that a die's groups belong to (R422). -/
def State.straddlers (s : State) (d : Nat) : List Nat :=
  ((s.groupsOn d).flatMap fun g => if g.info.nbh then
      (s.threads.filter fun m => m.seq.isNone && m.info.nbh && m.launchId == g.launchId && m.info.lead == g.info.lead
        && m.loc.die != d).map (·.tid)
    else []).eraseDups

/-- A compute die is fenced (R422): its groups, routines and tiles are lost, the regions charged. -/
def State.fenceDie (s : State) (d : Nat) : State :=
  if (s.die d).fenced then s
  else
    let rs := s.regionsOn fun cl => cl / 24 == d
    let stops := s.straddlers d
    let gs := s.groupsOn d
    let s1 := gs.foldl State.loseGroup s
    let s2 := (dieClusters d).foldl (fun s cl =>
      { s.dropThread (seqTid cl) with flight := s.flight.filter fun f => !(f.owner == some (seqTid cl)) }) s1
    let free (c : Cluster) : Cluster :=
      { c with
        leader := c.leader.filter fun l => !(l / 24 == d)
        bound := c.bound.filter fun b => !(b / 24 == d) }
    let s3 := (s2.wipeDie d).modDie d fun x => { x with fenced := true }
    let s4 := { s3 with clusters := s3.clusters.map free }.note .fence d 0
    rs.foldl (fun s r =>
      s.regionFault (.plain .device r 0
        ((stops.filter fun t => (s.thread t).any fun g => g.region == r).length) d)
        (stops.filter fun t => (s.thread t).any fun g => g.region == r)) s4

/-- A watch loses the part of it on a memory die (R422). -/
def Watch.without (w : Watch) (d : Nat) : Watch :=
  { w with
    parts := w.parts.filter fun (a, _, _) => !(sectorOf a == d)
    dies := modAt (fun _ => ⟨false, false, 0, 0, [], [], 0, 0, false⟩) d w.dies }

/-- A memory die is fenced (R422): its watches and reduction sets are lost, the regions charged. -/
def State.fenceMdie (s : State) (d : Nat) : State :=
  if (s.mdie d).fenced then s
  else
    let owners := (s.watches.filter fun w => w.parts.any fun (a, _, _) => sectorOf a == d).map (·.region)
    let rs := (owners ++ s.mappers fun a _ => sectorOf a == d).eraseDups
    let s1 := { s with
      watches := s.watches.map fun (w : Watch) => w.without d
      rsets := s.rsets.filter fun c => !(c.home == d) }
    ((s1.modMdie d fun x => { x with fenced := true }).note .fence (16 + d) 0).charge rs (0x10 + d)

/-- THERMAL_TRIP: at 125 °C the power is gone and the die is as fenced (R425). -/
def execThermalTrip (s : State) : Host.Outcome State Fault Refusal :=
  .next (((s.note .trip (s.arg 0) 0).modDie (s.arg 0) fun x => { x with power := { x.power with temp := 125 } }).fenceDie
    (s.arg 0))

/-- The hottest compute die that no throttle has been requested for; of dies as hot the lowest (R426, log 38). -/
def State.hottest (s : State) : Option Nat :=
  ((List.range 6).filter fun d => !(s.die d).power.throt && (s.die d).power.wants.isNone && !(s.die d).fenced).foldl
    (fun b d => match b with
      | some c => if (s.die c).power.temp < (s.die d).power.temp then some d else some c
      | none => some d) none

/-- Compute dies throttled, hottest first, n of them (R426). -/
def State.throttleHot (s : State) : Nat → State
  | 0 => s
  | n + 1 =>
    match s.hottest with
    | some d => (s.throttle d false).throttleHot n
    | none => s

/-- POWER_OVER_CAP: payload the new TOKCAP, and how many compute dies it takes until the power is below the cap (R115,
R426). -/
def execPowerOverCap (s : State) : Host.Outcome State Fault Refusal :=
  let cap := if s.arg 0 < s.tokcap then s.arg 0 else s.tokcap
  .next (({ s with tokcap := cap } : State).throttleHot (s.arg 1))

/-- DIE_LINK_FAIL: payload die, 1 for a memory die (R421). -/
def execDieLinkFail (s : State) : Host.Outcome State Fault Refusal :=
  .next (if s.argB 1 then s.fenceMdie (s.arg 0) else s.fenceDie (s.arg 0))

/-- DIE_SELF_FENCE: payload die, 1 for a memory die (R421). -/
def execDieSelfFence (s : State) : Host.Outcome State Fault Refusal :=
  .next (if s.argB 1 then s.fenceMdie (s.arg 0) else s.fenceDie (s.arg 0))

/-! ### Spares (R423, R424) -/

/-- A spare in a cluster's place, without a record of it: as at power-up, with the reservations of groups that are
saved (R150, R423). -/
def Cluster.spare (c : Cluster) : Cluster := { Cluster.reset with resv := c.resv }

/-- The cluster has groups or a routine. -/
def State.clusterBusy (s : State) (cl : Nat) : Bool := !(s.regionsOn fun c => c == cl).isEmpty

/-- CLUSTER_RETIRE: payload cluster: its regions are pre-empted; when they have gone a spare takes its place,
or it stays retired (R423). -/
def execClusterRetire (s : State) : Host.Outcome State Fault Refusal :=
  let cl := s.arg 0
  let d := cl / 24
  .next (if s.clusterBusy cl then
      (s.preemptLater (s.regionsOn fun c => c == cl)).modCluster cl fun c => { c with retiring := true }
    else if (s.die d).spares = 0 then
      (s.modCluster cl fun c => { c with retired := true, retiring := false }).note .clusterLost d cl
    else (s.modCluster cl Cluster.spare).modDie d fun x => { x with spares := x.spares - 1 })

/-- CHANNEL_RETIRE: payload memory die, channel, then the lines that could not be copied (R424). -/
def execChannelRetire (s : State) : Host.Outcome State Fault Refusal :=
  let d := s.arg 0
  let ch := s.arg 1
  let inChannel (a n : Nat) : Bool :=
    sectorOf a == d && (List.range (n / 64)).any fun i => Config.channelOf (a / 64 + i) == ch
  .next (if (s.mdie d).spares = 0 then
      (s.note .channelLost d ch).charge (s.mappers inChannel) (0x10 + d)
    else
      (s.ev.drop 2).foldl (fun s l => s.damageLine (l / 64 * 64))
        (s.modMdie d fun x => { x with spares := x.spares - 1 }))

/-! ### The security alarm (R427) -/

/-- The alarm zeroes the slot's key. -/
def KeySlot.alarmed (k : KeySlot) : KeySlot := if k.erase then { k with valid := false, erased := true } else k

/-- SECURITY_ALARM: payload the source, 1 to 4 (R427). -/
def execSecurityAlarm (s : State) : Host.Outcome State Fault Refusal :=
  let owners := ((s.keys.filter (·.erase)).map (·.owner)).eraseDups
  let s1 := { s with
    debugCut := true, alarm := true, identity := false
    fradb := { s.fradb with attached := [], intakeHold := false, stepping := [], stopping := [], refused := [], passing := [] }
    keys := s.keys.map KeySlot.alarmed }
  let stops (r : Nat) : List Nat :=
    if owners.contains r then (s.threads.filter fun g => g.seq.isNone && g.region == r && !g.halted).map (·.tid) else []
  .next ((regionsWhere fun _ => true).foldl (fun s r =>
      s.regionFault (.plain .alarm r 0 (stops r).length (s1.arg 0)) (stops r))
    (s1.note .alarm 255 (s.arg 0)))

end Sys2Proof.Machine
end

