-- ==== Sys2Proof/Machine/Links.lean ====
section
/-!
DEFINITION. Porruter links, peers and hosts, the CXL heads, the registers with no row of their own, and the
firmware complexes (R5, R25, R192 to R202, R413 to R420, R437).
-/

namespace Sys2Proof.Machine

/-! ### Links (R194, R195, R413 to R416) -/

/-- A change of a port. -/
def State.modLink (s : State) (p : Nat) (f : Link → Link) : State := { s with links := modAt f p s.links }

/-- A request goes to a peer. -/
def Far.toPeer (x : Far) (q : Nat) : Bool :=
  match x.place with
  | .peer n _ => n == q
  | _ => false

/-- A place found in a peer's memory before the peer was lost. -/
def Place.lost (q : Nat) : Place → Place
  | .peer n pa => if n == q then .removed q pa else .peer n pa
  | p => p

/-- A peer is lost or changed: its translations leave every die, an access that would have used one or has still to be
made at a place found before fails, and its outstanding requests fail REMOTEGONE (R195, R390). -/
def State.peerLost (s : State) (q : Nat) : State :=
  let hit (e : TlbEntry) : Bool := !pteHost e.pte && pteHome e.pte == 0x80 + q
  let s1 := s.untranslate hit
  (({ s1 with gone := s.tlb.filter hit ++ s.gone }).failRequests (fun _ x => x.toPeer q) 2).movePlaces (Place.lost q)

/-- A request goes to the memory of a host tray. -/
def State.toTray (s : State) (h : Nat) (x : Far) : Bool :=
  match x.place with
  | .host p _ => (s.link p).peer.isNone && (s.link p).host == h
  | _ => false

/-- Outstanding requests to a host that no port reaches fail REMOTEERR (R415). -/
def State.trayLost (s : State) (h : Nat) : State :=
  if s.trayUp h then s else s.failRequests (fun _ x => s.toTray h x) 3

/-- Peers whose mask holds the port and that no port of their mask reaches now. -/
def State.peersCut (s : State) (p : Nat) : List Nat :=
  (List.range 128).filter fun q => (s.peer q).valid && (s.peer q).ports.getLsbD p && !s.peerUp q

/-- A port goes down (R195, R413, R415). -/
def State.portDown (s : State) (p : Nat) : State :=
  if !(s.link p).up then s
  else
    let s1 := (s.modLink p fun l => { l with up := false, downev := true }).note .portDown 255 p
    let s2 := (s1.peersCut p).foldl State.peerLost s1
    if (s.link p).peer.isNone then s2.trayLost (s.link p).host else s2

/-- The four ports of an optical engine: R207 gives no mapping, and engine e holding ports 4e to 4e + 3 is the model's
DESIGN CHOICE (log 35). -/
def enginePorts (e : Nat) : List Nat := (List.range 4).map (· + 4 * e)

/-- A port's optical engine has been replaced: the links of its four ports were down meanwhile, and their lanes are
whole (R207). -/
def State.opticsReplaced (s : State) (e : Nat) : State :=
  (enginePorts e).foldl (fun s p =>
    (s.portDown p).modLink p fun l => { l with width := 0, spare := false, failed := 0, changing := false }) s

/-- LINK_TRAINING: payload port, far end (a peer id, or 128 + a host tray), its INCARN, 1 when the port's optical engine
has been replaced; a host that was lost behind it is there again (R192, R194, R195, R207, log 35). -/
def execLinkTraining (s0 : State) : Host.Outcome State Fault Refusal :=
  let p := s0.arg 0
  let s := if s0.argB 3 then s0.opticsReplaced (p / 4) else s0
  let far := s.arg 1
  let l (x : Link) : Link :=
    { x with
      up := true, retries := 0, replays := 0
      peer := if far < 128 then some far else none
      host := if far < 128 then 0 else far - 128 }
  let s1 : State := { s.modLink p l with lostHosts := s.lostHosts.filter fun h => !(128 + h == far) }
  .next (if far < 128 ∧ (s1.peer far).incarn ≠ s.arg 2 then
      { s1 with peers := modAt (fun e => { e with incarn := s.arg 2 }) far s1.peers }.peerLost far
    else s1)

/-- FLIT_CRC_ERROR: payload port, 1 when the flit was replayed before, the flits replayed from it on, 0 for the flit
alone: they are replayed in order; at the eighth replay of one flit the port goes down (R413, R414). -/
def execFlitCrcError (s : State) : Host.Outcome State Fault Refusal :=
  let p := s.arg 0
  let n := if s.argB 1 then (s.link p).replays + 1 else 1
  let s1 := s.modLink p fun l => { l with retries := satTo 65535 (l.retries + Nat.max 1 (s.arg 2)), replays := n }
  .next (if n < 8 then s1 else s1.portDown p)

/-- LINK_ACK_TIMEOUT (R413). -/
def execLinkAckTimeout (s : State) : Host.Outcome State Fault Refusal := .next (s.portDown (s.arg 0))

/-- A lane is retired: the spare takes its place, then the width halves (R414). -/
def Link.retire (l : Link) : Link :=
  if !l.spare then { l with spare := true, failed := l.failed + 1 }
  else { l with failed := l.failed + 1, width := satTo 3 (l.width + 1), widthev := true, changing := true }

/-- LANE_RETIRE: a port with no lane left goes down (R414). -/
def execLaneRetire (s : State) : Host.Outcome State Fault Refusal :=
  let p := s.arg 0
  .next (if (s.link p).spare ∧ (s.link p).width = 3 then s.portDown p else s.modLink p Link.retire)

/-- A throttle that waits for a port's change waits for it no more (R205). -/
def Power.widthDone (p : Nat) (x : Power) : Power :=
  match x.wants with
  | some ws =>
    let rest := ws.filter fun q => !(q == p)
    if rest.isEmpty then { x with throt := true, wants := none } else { x with wants := some rest }
  | none => x

/-- WIDTH_CHANGE_COMPLETE: throttles that waited for it apply; both are logged (R205, R414). -/
def execWidthChangeComplete (s : State) : Host.Outcome State Fault Refusal :=
  let p := s.arg 0
  let waited (x : Power) : Bool := x.wants == some [p]
  .next (if !(s.link p).changing then s
    else
      let s1 := (s.modLink p fun l => { l with changing := false }).note .widthChange 255 p
      let s2 := { s1 with
        dies := s1.dies.map fun d => { d with power := d.power.widthDone p }
        mdies := s1.mdies.map fun d => { d with power := d.power.widthDone p } }
      ((List.range 12).filter fun n => waited (s.power (n % 6) (6 ≤ n))).foldl
        (fun s n => s.note .throttle (dieNumber (n % 6) (6 ≤ n)) 0) s2)

/-- Firmware unbinds a port once a complex is active (R398, R416, R418). -/
def State.unbindSoon (s : State) (id : Nat) : State :=
  if s.served then (s.commit [3, id]).unbindPort id else s.keepRequest .portUnbind [id]

/-- HOST_LOSS: payload host tray, 1 when the CXL link of its head is down, whose ports then stay as they are; without
that, every port that faces it has been down for 100 ms (R398, R415, R416). -/
def execHostLoss (s : State) : Host.Outcome State Fault Refusal :=
  let h := s.arg 0
  .next (if s.argB 1 || !s.trayUp h then
      let s1 := { s with lostHosts := if s.argB 1 then h :: s.lostHosts.erase h else s.lostHosts }.trayLost h
      (s1.ports.filter fun p => p.host == h).foldl (fun s p => s.unbindSoon p.id) s1
    else s)

/-! ### The heads (R198, R417) -/

/-- HOWN_ADOPT: payload head, the EPOCH presented (R198, R417). -/
def execHownAdopt (s : State) : Host.Outcome State Fault Refusal :=
  let h := s.arg 0 % 2
  let e := s.arg 1 % 65536
  let put (f : Hown → Hown) : List Hown := modAt (fun x => f { x with epoch := e }) h s.howns
  .next (if e = s.epoch % 65536 then
      let hs := put id
      ({ s with
        owner := h
        epoch := s.epoch + 1
        howns := hs.zipIdx.map fun (x, i) => { x with owned := i == h } } : State).handover
    else { s with howns := put fun x => { x with stale := true } })

/-- HOWN_CLEAR_STALE: payload head (R198). -/
def execHownClearStale (s : State) : Host.Outcome State Fault Refusal :=
  .next { s with howns := modAt (fun x => { x with stale := false }) (s.arg 0 % 2) s.howns }

/-! ### Registers with no row of their own (R5); their numbers are the model's (log 27) -/

/-- KSPOL written: the key slot of a number (R427). -/
def KeySlot.write (k : KeySlot) (slot v : Nat) : KeySlot where
  owner := bitsOf v 15 0
  valid := bitAt v 16
  erase := bitAt v 17 || slot == 0
  erased := k.erased && !bitAt v 18

/-- A peer-table entry written: VALID in bit 0, DID in 12:1, port mask in 36:13 (R194). -/
def Peer.write (e : Peer) (v : Nat) : Peer where
  valid := bitAt v 0
  did := bitsOf v 12 1
  ports := BitVec.ofNat 24 (bitsOf v 36 13)
  incarn := e.incarn

/-- A base register of a number. -/
def Bases.write (b : Bases) (n v : Nat) : Bases :=
  match n with
  | 0 => { b with sq := v }
  | 1 => { b with db := v }
  | 2 => { b with rcb := v }
  | 3 => { b with ns := v }
  | 4 => { b with skein := v }
  | 5 => { b with jpool := v }
  | 6 => { b with rt := v }
  | 7 => { b with skeinCount := v }
  | 8 => { b with wl := v }
  | 9 => { b with stackPool := v }
  | _ => { b with handover := v }

/-- A name port bound: REGION in 15:0, the host's tray in 31:16 (R64). -/
def State.bindPort (s : State) (id v : Nat) : State :=
  { s with ports := s.ports.filter (fun x => !(x.id == id)) ++ [⟨id, bitsOf v 15 0, bitsOf v 31 16, 0, 0, []⟩] }

/-- A report area kept for a region, or none for 0 (R379). -/
def State.keepReport (s : State) (r a : Nat) : State :=
  let rest := s.reports.filter fun x => !(x.1 == r)
  { s with reports := if a = 0 then rest else (r, a) :: rest }

/-- Base registers set: another base of the submission queues enables them anew, so T is HEAD there (R107, R197). -/
def State.writeBase (s : State) (n v : Nat) : State :=
  let b := s.bases.write n v
  { s with bases := b, queueTails := if b.sq = s.bases.sq then s.queueTails else [] }.handover

/-- The oldest response leaves a mailbox (R196, log 28). -/
def State.takeResponse (s : State) (n : Nat) : State :=
  match s.spdm.find? fun x => x.1 == n with
  | some x => { s with spdm := s.spdm.erase x }
  | none => s

/-- A register's RW fields take the value, its W1C fields are cleared by ones (R5). -/
def State.writeReg (s : State) (reg v : Nat) : State :=
  let n := reg % 256
  match reg / 256 with
  | 0 =>
    s.modLink n fun l => { l with downev := l.downev && !bitAt v 4, widthev := l.widthev && !bitAt v 5 }
  | 1 =>
    let f (p : Power) : Power := { p with tempEmerg := bitsOf v 23 16 }
    if n < 16 then s.modDie n fun x => { x with power := f x.power }
    else s.modMdie (n - 16) fun x => { x with power := f x.power }
  | 2 => { s with howns := modAt (fun x => { x with epoch := bitsOf v 31 16 }) (n % 2) s.howns }
  | 3 =>
    { s with
      keys := modAt (fun k => k.write n v) n s.keys
      identity := s.identity || (n == 0 && bitAt v 16) }
  | 4 => { s with tokcap := v }
  | 5 => s.writeBase n v
  | 6 => { s with did := v % 4096 }
  | 7 =>
    let e := s.peer n
    let s1 := { s with peers := modAt (fun e => e.write v) n s.peers }
    if e.did = (e.write v).did then s1 else s1.peerLost n
  | 8 =>
    { s with prectl := { s.prectl with
      region := if s.prectl.busy then s.prectl.region else v % 65536
      done := s.prectl.done && !bitAt v 18, err := s.prectl.err && !bitAt v 19 } }
  | 9 => s.takeResponse n
  | k => if k < 256 then s else if k < 512 then s.bindPort (reg - 0x10000) v else s.keepReport (reg - 0x20000) v

/-- A head may write a register: its HOWN, its own mailbox, and as the owner the management registers (R196, R198). -/
def State.mayWriteReg (s : State) (head reg : Nat) : Bool :=
  match reg / 256 with
  | 2 => true
  | 9 => head == reg % 256
  | _ => s.fromOwner head

/-- REGISTER_WRITE: payload register, value, head; the other head's writes to management registers are
discarded (R5, R198). -/
def execRegisterWrite (s : State) : Host.Outcome State Fault Refusal :=
  .next (if s.mayWriteReg (s.arg 2) (s.arg 0) then s.writeReg (s.arg 0) (s.arg 1) else s)

/-! ### What a head reads (R196) -/

/-- LINKSTAT of a port (R414). -/
def Link.word (l : Link) : Nat :=
  bitW l.up 1 + satTo 3 l.width * 2 + bitW l.spare 8 + bitW l.downev 16 + bitW l.widthev 32 + satTo 65535 l.retries * 256

/-- DIEPWR of a die (R205). -/
def Power.word (p : Power) : Nat :=
  p.state % 4 + p.req % 4 * 4 + bitW p.throt 16 + p.temp % 256 * 256 + p.tempEmerg % 256 * 65536

/-- HOWN of a head; ADOPT is write-only (R198). -/
def Hown.word (h : Hown) : Nat := bitW h.owned 2 + bitW h.stale 4 + h.epoch % 65536 * 65536

/-- KSPOL of a slot (R427). -/
def KeySlot.word (k : KeySlot) : Nat :=
  k.owner % 65536 + bitW k.valid 65536 + bitW k.erase 131072 + bitW k.erased 262144

/-- PRECTL; GO is write-only (R123). -/
def Prectl.word (p : Prectl) : Nat := p.region % 65536 + bitW p.busy 131072 + bitW p.done 262144 + bitW p.err 524288

/-- A base register by its number. -/
def Bases.read (b : Bases) (n : Nat) : Nat :=
  match n with
  | 0 => b.sq
  | 1 => b.db
  | 2 => b.rcb
  | 3 => b.ns
  | 4 => b.skein
  | 5 => b.jpool
  | 6 => b.rt
  | 7 => b.skeinCount
  | 8 => b.wl
  | 9 => b.stackPool
  | _ => b.handover

/-- A peer-table entry as it is written, with INCARN in 52:37 (R194). -/
def Peer.word (e : Peer) : Nat := bitW e.valid 1 + e.did % 4096 * 2 + e.ports.toNat * 2 ^ 13 + e.incarn % 65536 * 2 ^ 37

/-- What a head reads of a register, by the numbers that REGISTER_WRITE takes (R5, R196, log 27). -/
def State.readReg (s : State) (reg : Nat) : Nat :=
  let n := reg % 256
  match reg / 256 with
  | 0 => (s.link n).word
  | 1 => if n < 16 then (s.die n).power.word else (s.mdie (n - 16)).power.word
  | 2 => (s.howns.getD (n % 2) ⟨false, false, 0⟩).word
  | 3 => (s.keys.getD n ⟨0, false, false, false⟩).word
  | 4 => s.tokcap
  | 5 => s.bases.read n
  | 6 => s.did
  | 7 => (s.peer n).word
  | 8 => s.prectl.word
  | _ => 0

/-- What a head reads: 0 its configuration space, which the spec gives no contents; 1 the window onto the 64 KiB of the
handover area; 2 a register; 3 the oldest response in its mailbox (R196, log 28). -/
def State.headRead (s : State) (head space off : Nat) : List Nat :=
  match space with
  | 0 => [Config.configSpace off]
  | 1 => if off < 65536 then [s.mem.rd (s.bases.handover + off) 1] else []
  | 2 => [s.readReg off]
  | _ => ((s.spdm.find? fun x => x.1 == head).map (·.2)).getD []

/-! ### Firmware complexes (R199 to R201, R418 to R420) -/

/-- A change of a complex. -/
def State.modComplex (s : State) (i : Nat) (f : Complex → Complex) : State :=
  { s with complexes := modAt f i s.complexes }

/-- A complex: 0 A, 1 B. -/
def State.complex (s : State) (i : Nat) : Complex := s.complexes.getD i .reset

/-- The active complex. -/
def State.activeComplex (s : State) : Option Nat := [0, 1].find? fun i => (s.complex i).active

/-- The standby complex. -/
def State.standby (s : State) : Option Nat := [0, 1].find? fun i => (s.complex i).up && !(s.complex i).active

/-- One bit of the CRC-32 of IEEE 802.3 (R199, log 10). -/
def crcBit (c : W32) : W32 := if c.getLsbD 0 then (c >>> (1 : Nat)) ^^^ 0xEDB88320#32 else c >>> (1 : Nat)

/-- n bits of it. -/
def crcBits : Nat → W32 → W32
  | 0, c => c
  | n + 1, c => crcBits n (crcBit c)

/-- CRC-32 of bytes. -/
def crc32 (bs : List Nat) : W32 :=
  ~~~(bs.foldl (fun c b => crcBits 8 (c ^^^ w32 b)) 0xFFFFFFFF#32)

/-- CRC of the first twelve bytes of a marker record: MSEQ, SLOT and reserved bytes, which are zero (R199). -/
def markerCrc (mseq : W32) (slot : Nat) : W32 :=
  crc32 ([0, 8, 16, 24].map (fun k => mseq.toNat / 2 ^ k % 256) ++ [slot % 256] ++ List.replicate 7 0)

/-- The record of a sequence number and a slot. -/
def Marker.of (mseq : W32) (slot : Nat) : Marker := ⟨mseq, slot, markerCrc mseq slot⟩

/-- The record's CRC is valid (R199, R200). -/
def Marker.valid (m : Marker) : Bool := m.crc == markerCrc m.mseq m.slot

/-- VERIFY of an image: written whole, and its signature, made with the key whose digest the hub holds, is over its digest
(R199, R200). -/
def Image.verifies (fuse : Nat) (x : Image) : Bool := x.whole && x.key == fuse && x.digest == x.number

/-- The image in a slot. -/
def Complex.image (c : Complex) (slot : Nat) : Image := if slot = 0 then c.slot0 else c.slot1

/-- The image in a slot verifies. -/
def Complex.verifies (fuse : Nat) (c : Complex) (slot : Nat) : Bool := (c.image slot).verifies fuse

/-- Marker 0 has the lower MSEQ. -/
def Complex.lower0 (c : Complex) : Bool := decide (c.mark0.mseq.toNat < c.mark1.mseq.toNat)

/-- BOOT: the slot that runs; none holds the complex in recovery (R200). -/
def Complex.bootSlot (fuse : Nat) (c : Complex) : Option Nat :=
  let ms := (if c.lower0 then [c.mark1, c.mark0] else [c.mark0, c.mark1]).filter Marker.valid
  (ms.map (fun m : Marker => m.slot) ++ [0, 1]).find? (c.verifies fuse)

/-- A report over the management interface: 0 a complex in recovery, 1 both complexes down (R200, R419). -/
def State.report (s : State) (kind : Nat) (data : List Nat) : State := { s with mgmt := s.mgmt ++ [(kind, data)] }

/-- The hub's boot ROM reports that both complexes are down (R419). -/
def State.reportDown (s : State) : State := if s.complexes.any (·.up) then s else s.report 1 []

/-- A complex becomes active: it takes the state table, brings the handover area up to date and resumes the services
(R197, R418, R419). -/
def State.takeOver (s : State) (i : Nat) : State :=
  let s1 := s.modComplex i fun c => { c with active := true, mirror := none }
  let t : StateTable := s.stateTable.getD ⟨(s1.complex i).version, []⟩
  ({ s1 with stateTable := some t } : State).handover.resumeServices

/-- A complex boots: the active one when there is none, else standby with its mirror of the state table; where no slot
verifies it stays in recovery (R199, R200, R418, R419). -/
def State.startComplex (s : State) (i : Nat) : State :=
  if (s.complex i).up then s
  else
    match (s.complex i).bootSlot s.fuse with
    | none => ((s.modComplex i fun c => { c with recovery := true }).note .recovery 255 i).report 0 [i]
    | some slot =>
      let s1 := s.modComplex i fun c =>
        { c with
          up := true, recovery := false, running := slot, version := (c.image slot).version, mirror := s.stateTable }
      if s.activeComplex.isNone then s1.takeOver i else s1

/-- COMPLEX_BOOT: payload complex (R200). -/
def execComplexBoot (s : State) : Host.Outcome State Fault Refusal := .next (s.startComplex (s.arg 0 % 2))

/-- The values that firmware writes into region 0's control block at power-up (R25, log 19). -/
def rcb0 (skein : Nat) : List (RcbField × Nat) :=
  [(.maxcores, 576), (.maxgroups, 9216), (.tokshare, 65535), (.prio, 0), (.fdom, 0), (.memquota, 0xFFFFFFFF),
   (.nsbase, 0), (.nscount, 65535), (.swapthr, 0), (.hanglog, 24), (.det, 0), (.troot, 0x4009000000), (.seed, 0),
   (.hfault, 0), (.hhang, 0), (.hrunaway, 0), (.halarm, 0), (.savebase, 0x4200000000), (.savesize, 0x10000000),
   (.flogbase, 0x400A000000), (.flogsize, 1024), (.placeset, 2 ^ 144 - 1), (.skpool, skein + 0x200000),
   (.skpooln, 32768)]

/-- Region 0's control block as firmware writes it (R25). -/
def State.writeRcb0 (s : State) : State :=
  let fs := (rcb0 s.bases.skein).map fun (f, v) => (f.layout.1, f.layout.2.1, v)
  { s with mem := writeFields (zeroBytes s.mem (s.rcbAt 0) 256) (s.rcbAt 0) fs }

/-- POWER_UP: payload 1 when complex A boots within 2 s. With no state table, region 0's control block is
written, INCARN increases, and A, or else B, becomes active (R25, R194, R419). -/
def execPowerUp (s : State) : Host.Outcome State Fault Refusal :=
  .next (if s.stateTable.isSome then s
    else
      let s1 := { s with incarn := (s.incarn + 1) % 65536 }.writeRcb0
      let s2 := if s.argB 0 then s1.startComplex 0 else s1
      (if s2.activeComplex.isSome then s2 else s2.startComplex 1).reportDown)

/-- A complex is held in reset (R418). -/
def Complex.down (c : Complex) : Complex := { c with up := false, active := false, mirror := none }

/-- FIRMWARE_HEARTBEAT_TIMEOUT: the active complex is held in reset and the standby takes over; with no standby both are
down (R418, R419). -/
def execFirmwareHeartbeatTimeout (s : State) : Host.Outcome State Fault Refusal :=
  .next (match s.activeComplex with
    | some a =>
      let s1 := (s.modComplex a Complex.down).note .complexFailed 255 a
      match s.standby with
      | some b => s1.takeOver b
      | none => s1.reportDown
    | none => s)

/-- The standby's new image is in its inactive slot, and the lower marker names it when it verifies (R200). -/
def Complex.written (fuse : Nat) (c : Complex) (x : Image) : Complex :=
  let slot := 1 - c.running
  let c1 := if slot = 0 then { c with slot0 := x } else { c with slot1 := x }
  if !x.verifies fuse then c1
  else if c.lower0 then { c1 with mark0 := .of (c.mark1.mseq + 1) slot }
  else { c1 with mark1 := .of (c.mark0.mseq + 1) slot }

/-- The complex boots the image it has just taken. -/
def Complex.updated (c : Complex) : Complex :=
  { c with running := 1 - c.running, version := (c.image (1 - c.running)).version }

/-- The active complex a and the standby b change places (R201, R420). -/
def State.swapComplexes (s : State) (a b : Nat) : State :=
  (s.modComplex a fun c => { c with active := false, mirror := s.stateTable }).modComplex b fun c =>
    { c with active := true, mirror := none }

/-- LIVE_UPDATE: payload the new image's state-table version, the digest of the key that signed it, 1 when intake is
quiescent within 20 µs, the image's number, the digest that its signature covers, 1 when the standby fails before the
takeover, after which COMPLEX_BOOT retries it; with no complex active it waits (R201, R418, R420). That the state table
keeps its version when newer firmware takes over is the model's DESIGN CHOICE (log 19). -/
def execLiveUpdate (s : State) : Host.Outcome State Fault Refusal :=
  let x : Image := ⟨s.arg 3, s.arg 0, s.arg 1, s.arg 4, true⟩
  .next (match s.activeComplex, s.standby with
    | some a, some b =>
      let s1 := s.modComplex b fun c => c.written s.fuse x
      if !x.verifies s.fuse then s1
      else
        let s2 := s1.modComplex b Complex.updated
        if s.argB 5 then s2.modComplex b Complex.down
        else if (match s.stateTable with
            | some t => decide (x.version < t.version)
            | none => false) || !s.argB 2 then s2
        else s2.swapComplexes a b
    | some _, none => s
    | none, _ => s.keepRequest .liveUpdate s.ev)

/-! ### SPDM (R202, R427); the message codes are those of SPDM 1.2 (log 28) -/

/-- A request of a mailbox, 0 and 1 the heads', 2 the management interface's, is answered there, 1 in the payload where
it had waited; with no active complex it waits (R196, R202, R418, R419). -/
def State.respond (s : State) (i : Sys2Proof.Instr) (r : List Nat) : Host.Outcome State Fault Refusal :=
  let m := s.arg 0 % 3
  .next (if s.served then
      { s with
        spdm := s.spdm ++ [(m, r)]
        spdmWait := if s.argB 1 then s.spdmWait.erase (m, i) else s.spdmWait }
    else if s.argB 1 then s
    else { s with spdmWait := s.spdmWait ++ [(m, i)] })

/-- ERROR with UnsupportedRequest. -/
def spdmUnsupportedReply : List Nat := [0x7F, 0x07]
/-- ERROR for an identity that an alarm has erased (R427). -/
def spdmNoIdentity : List Nat := [0x7F, 0x05]

/-- An answer that speaks for the identity. -/
def State.identified (s : State) (r : List Nat) : List Nat := if s.identity then r else spdmNoIdentity

/-- SPDM_GET_VERSION. -/
def execSpdmGetVersion (s : State) : Host.Outcome State Fault Refusal := s.respond .spdmGetVersion [0x04, 0x12]

/-- SPDM_GET_CAPABILITIES. -/
def execSpdmGetCapabilities (s : State) : Host.Outcome State Fault Refusal :=
  s.respond .spdmGetCapabilities [0x61, Config.spdmValue 0 0]

/-- SPDM_NEGOTIATE_ALGORITHMS: RSASSA-3072 and SHA-256 only, with the codes of SPDM 1.2. -/
def execSpdmNegotiateAlgorithms (s : State) : Host.Outcome State Fault Refusal :=
  s.respond .spdmNegotiateAlgorithms [0x63, 0x4, 0x1]

/-- SPDM_GET_DIGESTS. -/
def execSpdmGetDigests (s : State) : Host.Outcome State Fault Refusal :=
  s.respond .spdmGetDigests (s.identified [0x01, Config.spdmValue 1 0])

/-- SPDM_GET_CERTIFICATE. -/
def execSpdmGetCertificate (s : State) : Host.Outcome State Fault Refusal :=
  s.respond .spdmGetCertificate (s.identified [0x02, Config.spdmValue 2 0])

/-- SPDM_CHALLENGE: the signature is fresh. -/
def execSpdmChallenge (s : State) : Host.Outcome State Fault Refusal :=
  s.tick.respond .spdmChallenge (s.identified [0x03, Config.spdmValue 3 s.fresh])

/-- A marker record as measured. -/
def Marker.measure (m : Marker) : List Nat := [m.mseq.toNat, m.slot, m.crc.toNat]

/-- A complex as measured: the digest of each slot's image, and its markers. -/
def State.measure (s : State) (i : Nat) : List Nat :=
  let c := s.complex i
  [Config.spdmValue 4 c.slot0.number, Config.spdmValue 4 c.slot1.number] ++ c.mark0.measure ++ c.mark1.measure

/-- SPDM_GET_MEASUREMENTS: slot digests and marker records of both complexes, boot ROM version, digest of the
identity key. -/
def execSpdmGetMeasurements (s : State) : Host.Outcome State Fault Refusal :=
  s.respond .spdmGetMeasurements
    (s.identified (0x60 :: s.measure 0 ++ s.measure 1 ++ [Config.spdmValue 5 0, Config.spdmValue 6 0]))

/-- SPDM_UNSUPPORTED. -/
def execSpdmUnsupported (s : State) : Host.Outcome State Fault Refusal :=
  s.respond .spdmUnsupported spdmUnsupportedReply

/-- REGISTER_SERVICER: payload die, name, head: firmware does it for the management owner and answers when the write is
complete (R198, R437). -/
def execRegisterServicer (s : State) : Host.Outcome State Fault Refusal :=
  .next (if s.fromOwner (s.arg 2) then
      s.service 4 .registerServicer fun s =>
        (s.modDie (s.arg 0) fun d => { d with servicer := s.arg 1 }).report 2 [s.arg 0, s.arg 1]
    else s)

/-! ### Power lost, device reset (R194, R200, R427) -/

/-- What no reset takes: other machines' memory, flash, the key store, the repairs, the free-value counter and
the turns to come. -/
def State.afterReset (s : State) : State :=
  { State.reset with
    hostMem := s.hostMem
    peerMem := s.peerMem
    incarn := s.incarn
    complexes := s.complexes
    fuse := s.fuse
    keys := s.keys
    identity := s.identity
    clusters := s.clusters.map fun c => { Cluster.reset with retired := c.retired, retiring := c.retiring }
    dies := s.dies.map fun d => { Die.reset with spares := d.spares }
    mdies := s.mdies.map fun d => { MDie.reset with spares := d.spares }
    nextLaunchId := s.nextLaunchId
    fresh := s.fresh
    agenda := s.agenda }

/-- An image torn while it was written: what the slot holds then is no image (R200, log 10). -/
def Image.torn (x : Image) (number : Nat) : Image := { x with number := number, whole := false }

/-- A marker torn while it was written fails its CRC (R200); that it holds its old MSEQ and SLOT beside a wrong CRC is the
model's DESIGN CHOICE (log 10). -/
def Marker.torn (m : Marker) : Marker := { m with crc := ~~~(markerCrc m.mseq m.slot) }

/-- A slot or marker that was being written is torn: 1 + 2 × complex + which; 0 none (R200). -/
def Complex.torn (c : Complex) (i slot mark number : Nat) : Complex :=
  { c with
    up := false, active := false, recovery := false, mirror := none
    slot0 := if slot = 1 + 2 * i then c.slot0.torn number else c.slot0
    slot1 := if slot = 2 + 2 * i then c.slot1.torn number else c.slot1
    mark0 := if mark = 1 + 2 * i then c.mark0.torn else c.mark0
    mark1 := if mark = 2 + 2 * i then c.mark1.torn else c.mark1 }

/-- POWER_LOSS: payload the slot and the marker torn (R200). -/
def execPowerLoss (s : State) : Host.Outcome State Fault Refusal :=
  .next { s.afterReset with
    complexes := s.complexes.zipIdx.map fun (c, i) => c.torn i (s.arg 0) (s.arg 1) (2 ^ 32 + s.fresh)
    fresh := s.fresh + 1 }

/-- DEVICE_RESET: INCARN increases and registers take their reset values; memory, the state table and the
latched alarm stay; the handover area follows (R194, R197, R418, R427). -/
def execDeviceReset (s : State) : Host.Outcome State Fault Refusal :=
  .next (State.handover { s.afterReset with
    incarn := (s.incarn + 1) % 65536
    dies := s.afterReset.dies.map fun d => { d with bankAt := s.clock }
    mem := s.mem
    stateTable := s.stateTable
    alarm := s.alarm
    debugCut := s.debugCut
    events := s.events
    epoch := s.epoch
    handoverSeq := s.handoverSeq
    bases := s.bases
    did := s.did
    clock := s.clock })

end Sys2Proof.Machine
end

