-- ==== Sys2Proof/Machine/Debug.lean ====
section
/-!
DEFINITION. The debugger fradb (R355 to R358, R361, R436): its commands and the reports they give.
-/

namespace Sys2Proof.Machine

/-! ### Access -/

/-- No alarm has cut the debug paths (R427). -/
def State.debugOpen (s : State) : Bool := !s.debugCut

/-- fradb may act on a thread: its region is attached (R355, R436). -/
def State.debugs (s : State) (g : Group) : Bool := s.debugOpen && s.fradb.attached.contains g.region

/-- The report of a command. -/
def State.reported (s : State) (r : List Nat) : State := { s with fradb := { s.fradb with report := r } }

/-- Where a region maps an address. -/
def State.regionPlace (s : State) (va r : Nat) : Option Place := s.readable (s.eff r .troot) va

/-- Where the first attached region that maps an address has it (R355). -/
def State.debugPlace (s : State) (va : Nat) : Option Place := s.fradb.attached.findSome? (s.regionPlace va)

/-- The BKPT word (R250). -/
def bkptWord : Nat := (encode .bkpt).headD 0

/-- The thread of a command, when fradb may act on it. -/
def State.debugThread (s : State) (tid : Nat) (k : Group → State) : Host.Outcome State Fault Refusal :=
  .next (match s.thread tid with
    | some g => if s.debugs g then k g else s
    | none => s)

/-! ### Attaching and breakpoints (R355, R357, R436) -/

/-- A breakpoint changed. -/
def State.modBreak (s : State) (addr : Nat) (f : BreakPt → BreakPt) : State :=
  { s with fradb := { s.fradb with breaks := s.fradb.breaks.map fun x => if x.addr = addr then f x else x } }

/-- The BKPT word of a breakpoint over the instruction that a region maps there, the original kept: where another
attached region maps the same place, the original is kept already (R250, R436). -/
def State.breakIn (s : State) (addr r : Nat) : State :=
  match s.breakAt addr, s.regionPlace addr r with
  | some b, some p =>
    let w := match b.words.find? fun x => s.regionPlace addr x.1 == some p with
      | some x => x.2
      | none => w32 (s.loadAt p 4)
    (s.modBreak addr fun x => { x with words := x.words ++ [(r, w)] }).storeAt p 4 bkptWord
  | _, _ => s

/-- FRADB_ATTACH: payload region; the breakpoints that stand stop its arms too (R355, R436). -/
def execFradbAttach (s : State) : Host.Outcome State Fault Refusal :=
  .next (if s.debugOpen && !s.fradb.attached.contains (s.arg 0) then
      s.fradb.breaks.foldl (fun s b => s.breakIn b.addr (s.arg 0))
        { s with fradb := { s.fradb with attached := s.fradb.attached ++ [s.arg 0] } }
    else s)

/-- A breakpoint: a BKPT word over the instruction at an address in every attached region that maps it (R355, R436). -/
def State.setBreak (s : State) (addr hit : Nat) : State :=
  if !s.debugOpen || (s.debugPlace addr).isNone then s
  else
    match s.breakAt addr with
    | some _ => s.modBreak addr fun x => { x with hit := hit, spent := false }
    | none =>
      s.fradb.attached.foldl (fun s r => s.breakIn addr r)
        { s with fradb := { s.fradb with breaks := s.fradb.breaks ++ [⟨addr, [], hit, false⟩] } }

/-- FRADB_BREAK: payload address. -/
def execFradbBreak (s : State) : Host.Outcome State Fault Refusal := .next (s.setBreak (s.arg 0) 0)

/-- FRADB_BREAK_HIT: payload address, k (R357). -/
def execFradbBreakHit (s : State) : Host.Outcome State Fault Refusal := .next (s.setBreak (s.arg 0) (s.arg 1))

/-- The instruction at a breakpoint is restored in every region that has it. -/
def State.clearBreak (s : State) (addr : Nat) : State :=
  match s.breakAt addr with
  | some b =>
    b.words.foldl (fun s x => match s.regionPlace addr x.1 with
        | some p => s.storeAt p 4 x.2.toNat
        | none => s)
      { s with fradb := { s.fradb with breaks := s.fradb.breaks.filter fun x => !(x.addr == addr) } }
  | none => s

/-- FRADB_CONTINUE: payload thread, arm: the instruction restored, the debug hold over (R355, R356). -/
def execFradbContinue (s : State) : Host.Outcome State Fault Refusal :=
  s.debugThread (s.arg 0) fun g =>
    if !g.hold then s
    else
      let s1 := (s.clearBreak (g.arm (s.argB 1)).pc.toNat).modThread g.tid fun g => { g with hold := false }
      let rest (l : List (Nat × Bool)) : List (Nat × Bool) := l.filter fun x => !(x == (g.tid, s.argB 1))
      { s1 with fradb := { s1.fradb with
        stepping := rest s1.fradb.stepping, refused := rest s1.fradb.refused } }.syncRecord g.tid

/-- The list with an arm in it. -/
def withArm (x : Nat × Bool) (l : List (Nat × Bool)) : List (Nat × Bool) := if l.contains x then l else x :: l

/-- FRADB_STEP: payload thread, arm: the arm issues one instruction of its held group (R355, R356, R358). -/
def execFradbStep (s : State) : Host.Outcome State Fault Refusal :=
  s.debugThread (s.arg 0) fun g =>
    if !g.hold then s
    else
      { s with fradb := { s.fradb with
        stepping := withArm (g.tid, s.argB 1) s.fradb.stepping
        passing := withArm (g.tid, s.argB 1) s.fradb.passing } }

/-- Number of a wait in a report. -/
def WState.code : WState → Nat
  | .ready => 0 | .blocked => 1 | .sleep => 2 | .sigw => 3 | .join => 4 | .take => 5 | .scopew => 6
  | .barrier => 7 | .yld => 8 | .rcv => 9 | .parked => 10 | .rflush => 11 | .wsload => 12 | .tdrain => 13
  | .held => 14 | .arriving => 15

/-- What an instruction that is turned away waits for: 1 room in the pending-launch queue, 2 in a stage queue, 3 in the
reservation table, 4 a copy slot, 5 room in the atomic buffer, 6 for an operation to leave the core, 7 earlier
operations, 8 room in the permit queue, 9 in an engine's queue, or its operations, 10 acknowledgements, 11 the other
clusters of a neighbourhood; 0 the home of an access (R45, R47, R82, R109, R121, R206, R290). -/
def State.stallCause (s : State) (g : Group) : Sys2Proof.Instr → Nat
  | .launch .. => 1
  | .post .. => 2
  | .mreq .. => 3
  | .acopy .. | .acopy2d .. => if 8 ≤ s.copiesOut g.loc.core g.loc.sched then 4 else 0
  | .redAdd .. | .redFadd .. | .redMin .. | .redMax .. | .redAnd .. | .redOr .. | .redXor .. => 5
  | .wake .. | .sig .. | .depo .. | .join .. | .ngrant .. | .nrevoke .. | .trd .. => 6
  | .fence .. | .strlScalar .. | .strlVector .. => 7
  | .haddr .. => if s.flight.any fun f => f.skeinOf == some g.tid then 7 else 0
  | .permit .. => 8
  | .mma .. | .mmas .. | .mmaq .. | .tzero .. | .tfill .. | .tload .. | .tstore .. | .twalk .. | .tsync | .msig .. => 9
  | .srd .. => 10
  | .clust => 11
  | _ => if s.redsDraining g.tid then 7 else 0

/-- The instruction at the PC of arm b, as its region maps it. -/
def State.pending (s : State) (g : Group) (b : Bool) : Option Sys2Proof.Instr :=
  match s.wordThrough g.eff.troot (g.arm b).pc.toNat with
  | some w =>
    match decodeWords (match (s.breakAt (g.arm b).pc.toNat).bind fun x => x.original g.region with
        | some x => x.toNat
        | none => w) 0 with
    | .ok i => some i
    | .error _ => none
  | none => none

/-- A RED of arm b waits for room in its atomic buffer (R290). -/
def State.redBarred (s : State) (g : Group) (b : Bool) : Bool :=
  (g.arm b).ws == .arriving && (s.pending g b).any fun i => s.stallCause g i == 5

/-- FRADB_STEP_NOT_READY: payload thread, arm: a step pending whose instruction cannot issue: the arm's wait, its
register, and what the instruction is turned away for (R358). -/
def execFradbStepNotReady (s : State) : Host.Outcome State Fault Refusal :=
  s.debugThread (s.arg 0) fun g =>
    let b := s.argB 1
    let me := (g.tid, b)
    if s.fradb.stepping.contains me && (g.armWaits b || s.redBarred g b || s.fradb.refused.contains me) then
      s.reported [(g.arm b).ws.code, (g.arm b).wreg, ((s.pending g b).map (s.stallCause g)).getD 0]
    else s

/-! ### Reports -/

/-- A register of a thread as reported: full bit, then its words: s 0 to 63 of arm b, v from 64 (with its tag), p from
192, then MODE, PC and ARMS of the arm from 200 (R355). -/
def Group.shown (g : Group) (b : Bool) (n : Nat) : List Nat :=
  if n < 64 then [bitW (g.full (.ofS b n)) 1, (g.val32 (.ofS b n)).toNat]
  else if n < 192 then
    bitW (g.full (.v (n - 64))) 1 :: (g.vreg (n - 64)).tag :: (g.vreg (n - 64)).lanes.toList.map (·.toNat)
  else if n < 200 then [bitW (g.full (.p (n - 192))) 1, (g.pred (n - 192)).toNat]
  else if n = 200 then [1, (g.arm b).mode.toNat]
  else if n = 201 then [1, (g.arm b).pc.toNat]
  else [1, (g.armsOf b).toNat]

/-- FRADB_PRINT: payload thread, register, arm; of a saved group, from its save record (R355). -/
def execFradbPrint (s : State) : Host.Outcome State Fault Refusal :=
  s.debugThread (s.arg 0) fun g =>
    s.reported ((if g.resident || g.isSeq then g else s.readRecord g.region g.saveRec).shown (s.argB 2) (s.arg 1))

/-- FRADB_NAME: payload name: state, LOC, GEN, OWNER, RIGHTS, ALL, GRANTEE, PENDING, EXITVAL, JOINHEAD (R51, R355). -/
def execFradbName (s : State) : Host.Outcome State Fault Refusal :=
  let e := s.nameEntry (s.arg 0)
  .next (if s.debugOpen && s.fradb.attached.contains e.owner then
      s.reported [e.state.code, e.loc, e.gen, e.owner, e.rights, bitW e.all 1, e.grantee, e.pending.toNat,
        e.exitval.toNat, s.joinHead (e.joiners.map Joiner.record)]
    else s)

/-- n doublewords from a place. -/
def State.peek (s : State) (p : Place) (n : Nat) : List Nat :=
  (List.range n).map fun i => s.loadAt (p.plus (8 * i)) 8

/-- FRADB_SAVE: payload name: the doublewords of a SAVED group's record header (R44, R355). -/
def execFradbSave (s : State) : Host.Outcome State Fault Refusal :=
  s.debugThread (s.arg 0) fun g => if g.resident then s else s.reported (s.peek (savePlace g.saveRec) 256)

/-- FRADB_X: payload address, k: the doublewords there; an address that no attached region maps reports
nothing (R355). -/
def execFradbX (s : State) : Host.Outcome State Fault Refusal :=
  let ws := (List.range (s.arg 1)).map fun i => (s.debugPlace (s.arg 0 + 8 * i)).map fun p => s.loadAt p 8
  .next (if s.debugOpen && ws.all (·.isSome) then s.reported (ws.map fun x => x.getD 0) else s)

/-- FRADB_INTAKE_HOLD (R357). -/
def execFradbIntakeHold (s : State) : Host.Outcome State Fault Refusal :=
  .next (if s.debugOpen then { s with fradb := { s.fradb with intakeHold := true } } else s)

/-- FRADB_INTAKE_RELEASE (R357). -/
def execFradbIntakeRelease (s : State) : Host.Outcome State Fault Refusal :=
  .next { s with fradb := { s.fradb with intakeHold := false } }

/-- FRADB_PLQ: payload thread: its core's pending-launch queue, record address and issuing name of each (R357). -/
def execFradbPlq (s : State) : Host.Outcome State Fault Refusal :=
  s.debugThread (s.arg 0) fun g =>
    s.reported ((s.plq.filter fun q => q.core == g.loc.core).flatMap fun q => [q.addr.toNat, q.who.tid])

/-- FRADB_SKEIN: payload OID: the fields of its record in the order of R168 (R357). -/
def execFradbSkein (s : State) : Host.Outcome State Fault Refusal :=
  .next (if s.debugOpen then s.reported ((s.skeinFields (s.skein (s.arg 0))).map fun f => f.2.2) else s)

/-- A tile of a cluster, for as long as the debug paths are open. -/
def State.debugTile (s : State) (cl n : Nat) (k : Tile → State) : Host.Outcome State Fault Refusal :=
  .next (if s.debugOpen then k ((s.cluster cl).tiles.getD n .reset) else s)

/-- FRADB_TILE: payload cluster, tile: tag, W, BUSY, OWNER (65,536 for NONE), VR, VC (R361). -/
def execFradbTile (s : State) : Host.Outcome State Fault Refusal :=
  s.debugTile (s.arg 0) (s.arg 1) fun t => s.reported [t.tag, t.w, bitW t.busy 1, t.owner.getD 65536, t.vr, t.vc]

/-- FRADB_TILE_ROW: payload cluster, tile, row: its elements 0 to 7 (R361). -/
def execFradbTileRow (s : State) : Host.Outcome State Fault Refusal :=
  s.debugTile (s.arg 0) (s.arg 1) fun t =>
    s.reported ((List.range 8).map fun i => t.cells.rd (s.arg 2 % 128 * 512 + 4 * i) 4)

end Sys2Proof.Machine
end

