-- ==== Sys2Proof/Machine/Scalar.lean ====
section
/-!
DEFINITION. Scalar arithmetic, immediates, LIMM and SETM: majors 0x01 to 0x0C (R228 to R239).
-/

namespace Sys2Proof.Machine

/-! ### Arithmetic -/

/-- Shift amount b[4:0] (R231). -/
def shAmt (b : W32) : Nat := b.toNat % 32

/-- SSRA: filling with a[31] (R231). -/
def sra32 (a : W32) (n : Nat) : W32 := a.sshiftRight n

/-- ROR: SH = 0 gives a (R237). -/
def ror32 (a : W32) (n : Nat) : W32 := (a >>> n) ||| (a <<< (32 - n))

/-- SMULH (R232). -/
def mulHigh (a b : W32) : W32 := hiW (a.signExtend 64 * b.signExtend 64)

/-- SMULHU (R232). -/
def mulHighU (a b : W32) : W32 := hiW (a.setWidth 64 * b.setWidth 64)

/-- SDIV: towards zero; b = 0 gives all ones, the overflow gives the most negative number (R232). -/
def divS (a b : W32) : W32 := if b = 0 then 0xFFFFFFFF#32 else a.sdiv b

/-- SDIVU (R232). -/
def divU (a b : W32) : W32 := if b = 0 then 0xFFFFFFFF#32 else a / b

/-- SREM: the sign of a; b = 0 gives a, the overflow gives 0 (R232). -/
def remS (a b : W32) : W32 := if b = 0 then a else a.srem b

/-- SREMU (R232). -/
def remU (a b : W32) : W32 := if b = 0 then a else a % b

/-- SLUI: imm in the top twelve bits, a[19:0] below (R236). -/
def lui (a : W32) (imm : Nat) : W32 := (w32 imm <<< (20 : Nat)) ||| (a &&& 0x000FFFFF#32)

/-! ### Forms -/

/-- Checks of d SX, a S, b S (R224). -/
def preScalar (g : Group) (d a b : Nat) (ea eb : Bool) : Pre :=
  { seqOk := true
    srcs := g.srcA ea a (g.sregs a) ++ g.srcB eb b (g.sregs b)
    dests := [.ofS g.sel d] }

/-- d ← f a b on 32-bit scalars (R228). -/
def scalar2 (f : W32 → W32 → W32) (d a b : Nat) (ea eb : Bool) (s : State) :
    Host.Outcome State Fault Refusal :=
  issue 4 (preScalar s.cur d a b ea eb) (doneG fun g => g.setS d (f (g.sval a) (g.sval b))) s

/-- Checks of d SX, a S. -/
def preScalar1 (g : Group) (d a : Nat) (ea : Bool) : Pre :=
  { seqOk := true, srcs := g.srcA ea a (g.sregs a), dests := [.ofS g.sel d] }

/-- d ← f a on a 32-bit scalar. -/
def scalar1 (f : W32 → W32) (d a : Nat) (ea : Bool) (s : State) :
    Host.Outcome State Fault Refusal :=
  issue 4 (preScalar1 s.cur d a ea) (doneG fun g => g.setS d (f (g.sval a))) s

/-- Checks of d SXP, a SP, and b as given. -/
def prePair (g : Group) (d a b : Nat) (bs : List RegId) (ea eb : Bool) : Pre :=
  { seqOk := true
    srcs := g.srcA ea a (g.spregs a) ++ g.srcB eb b bs
    dests := [.ofS g.sel d, .ofS g.sel (d + 1)] }

/-- d ← f a b on 64-bit pairs (R214, R235). -/
def pair2 (f : W64 → W64 → W64) (d a b : Nat) (ea eb : Bool) (s : State) :
    Host.Outcome State Fault Refusal :=
  issue 4 (prePair s.cur d a b (s.cur.spregs b) ea eb)
    (doneG fun g => g.setSP d (f (g.spval a) (g.spval b))) s

/-- d ← a shifted by scalar b[5:0] (R235). -/
def pairShift (f : W64 → Nat → W64) (d a b : Nat) (ea eb : Bool) (s : State) :
    Host.Outcome State Fault Refusal :=
  issue 4 (prePair s.cur d a b (s.cur.sregs b) ea eb)
    (doneG fun g => g.setSP d (f (g.spval a) ((g.sval b).toNat % 64))) s

/-- Checks of d SX, a S in formats B: the source blocks (R215). -/
def preImm (g : Group) (d a : Nat) : Pre :=
  { seqOk := true, srcs := blocking (g.sregs a), dests := [.ofS g.sel d] }

/-- d ← f a, with the immediate in f (R236). -/
def scalarImm (f : W32 → W32) (d a : Nat) (s : State) : Host.Outcome State Fault Refusal :=
  issue 4 (preImm s.cur d a) (doneG fun g => g.setS d (f (g.sval a))) s

/-! ### Meanings -/

/-- SADD (R231). -/
def execSadd (d a b : Nat) (ea eb : Bool) (s : State) : Host.Outcome State Fault Refusal :=
  scalar2 (fun a b => a + b) d a b ea eb s

/-- SSUB (R231). -/
def execSsub (d a b : Nat) (ea eb : Bool) (s : State) : Host.Outcome State Fault Refusal :=
  scalar2 (fun a b => a - b) d a b ea eb s

/-- SAND (R231). -/
def execSand (d a b : Nat) (ea eb : Bool) (s : State) : Host.Outcome State Fault Refusal :=
  scalar2 (fun a b => a &&& b) d a b ea eb s

/-- SOR (R231). -/
def execSor (d a b : Nat) (ea eb : Bool) (s : State) : Host.Outcome State Fault Refusal :=
  scalar2 (fun a b => a ||| b) d a b ea eb s

/-- SXOR (R231). -/
def execSxor (d a b : Nat) (ea eb : Bool) (s : State) : Host.Outcome State Fault Refusal :=
  scalar2 (fun a b => a ^^^ b) d a b ea eb s

/-- SSHL (R231). -/
def execSshl (d a b : Nat) (ea eb : Bool) (s : State) : Host.Outcome State Fault Refusal :=
  scalar2 (fun a b => a <<< shAmt b) d a b ea eb s

/-- SSHR (R231). -/
def execSshr (d a b : Nat) (ea eb : Bool) (s : State) : Host.Outcome State Fault Refusal :=
  scalar2 (fun a b => a >>> shAmt b) d a b ea eb s

/-- SSRA (R231). -/
def execSsra (d a b : Nat) (ea eb : Bool) (s : State) : Host.Outcome State Fault Refusal :=
  scalar2 (fun a b => sra32 a (shAmt b)) d a b ea eb s

/-- SMUL (R232). -/
def execSmul (d a b : Nat) (ea eb : Bool) (s : State) : Host.Outcome State Fault Refusal :=
  scalar2 (fun a b => a * b) d a b ea eb s

/-- SMULH (R232). -/
def execSmulh (d a b : Nat) (ea eb : Bool) (s : State) : Host.Outcome State Fault Refusal :=
  scalar2 (mulHigh) d a b ea eb s

/-- SMULHU (R232). -/
def execSmulhu (d a b : Nat) (ea eb : Bool) (s : State) : Host.Outcome State Fault Refusal :=
  scalar2 (mulHighU) d a b ea eb s

/-- SDIV (R232). -/
def execSdiv (d a b : Nat) (ea eb : Bool) (s : State) : Host.Outcome State Fault Refusal :=
  scalar2 (divS) d a b ea eb s

/-- SDIVU (R232). -/
def execSdivu (d a b : Nat) (ea eb : Bool) (s : State) : Host.Outcome State Fault Refusal :=
  scalar2 (divU) d a b ea eb s

/-- SREM (R232). -/
def execSrem (d a b : Nat) (ea eb : Bool) (s : State) : Host.Outcome State Fault Refusal :=
  scalar2 (remS) d a b ea eb s

/-- SREMU (R232). -/
def execSremu (d a b : Nat) (ea eb : Bool) (s : State) : Host.Outcome State Fault Refusal :=
  scalar2 (remU) d a b ea eb s

/-- SMIN (R234). -/
def execSmin (d a b : Nat) (ea eb : Bool) (s : State) : Host.Outcome State Fault Refusal :=
  scalar2 (fun a b => if a.slt b then a else b) d a b ea eb s

/-- SMAX (R234). -/
def execSmax (d a b : Nat) (ea eb : Bool) (s : State) : Host.Outcome State Fault Refusal :=
  scalar2 (fun a b => if a.slt b then b else a) d a b ea eb s

/-- SMINU (R234). -/
def execSminu (d a b : Nat) (ea eb : Bool) (s : State) : Host.Outcome State Fault Refusal :=
  scalar2 (fun a b => if a.ult b then a else b) d a b ea eb s

/-- SMAXU (R234). -/
def execSmaxu (d a b : Nat) (ea eb : Bool) (s : State) : Host.Outcome State Fault Refusal :=
  scalar2 (fun a b => if a.ult b then b else a) d a b ea eb s

/-- SSLT (R234). -/
def execSslt (d a b : Nat) (ea eb : Bool) (s : State) : Host.Outcome State Fault Refusal :=
  scalar2 (fun a b => boolW (a.slt b)) d a b ea eb s

/-- SSLTU (R234). -/
def execSsltu (d a b : Nat) (ea eb : Bool) (s : State) : Host.Outcome State Fault Refusal :=
  scalar2 (fun a b => boolW (a.ult b)) d a b ea eb s

/-- SSEQ (R234). -/
def execSseq (d a b : Nat) (ea eb : Bool) (s : State) : Host.Outcome State Fault Refusal :=
  scalar2 (fun a b => boolW (a == b)) d a b ea eb s

/-- SSNE (R234). -/
def execSsne (d a b : Nat) (ea eb : Bool) (s : State) : Host.Outcome State Fault Refusal :=
  scalar2 (fun a b => boolW (a != b)) d a b ea eb s

/-- SSEL: a if the old d is not zero, else b; d is a source that always blocks (R233). -/
def execSsel (d a b : Nat) (ea eb : Bool) (s : State) : Host.Outcome State Fault Refusal :=
  let p := preScalar s.cur d a b ea eb
  issue 4 { p with srcs := blocking [.ofS s.cur.sel d] ++ p.srcs }
    (doneG fun g => g.setS d (if g.sval d = 0 then g.sval b else g.sval a)) s

/-- SCLZ (R235). -/
def execSclz (d a : Nat) (ea _eb : Bool) (s : State) : Host.Outcome State Fault Refusal :=
  scalar1 (fun a => w32 (clz32 a)) d a ea s

/-- SPOPC (R235). -/
def execSpopc (d a : Nat) (ea _eb : Bool) (s : State) : Host.Outcome State Fault Refusal :=
  scalar1 (fun a => w32 (popCount 32 a.toNat)) d a ea s

/-- SADD64 (R235). -/
def execSadd64 (d a b : Nat) (ea eb : Bool) (s : State) : Host.Outcome State Fault Refusal :=
  pair2 (fun a b => a + b) d a b ea eb s

/-- SSUB64 (R235). -/
def execSsub64 (d a b : Nat) (ea eb : Bool) (s : State) : Host.Outcome State Fault Refusal :=
  pair2 (fun a b => a - b) d a b ea eb s

/-- SMUL64 (R235). -/
def execSmul64 (d a b : Nat) (ea eb : Bool) (s : State) : Host.Outcome State Fault Refusal :=
  pair2 (fun a b => a * b) d a b ea eb s

/-- SSHL64 (R235). -/
def execSshl64 (d a b : Nat) (ea eb : Bool) (s : State) : Host.Outcome State Fault Refusal :=
  pairShift (fun a n => a <<< n) d a b ea eb s

/-- SSHR64 (R235). -/
def execSshr64 (d a b : Nat) (ea eb : Bool) (s : State) : Host.Outcome State Fault Refusal :=
  pairShift (fun a n => a >>> n) d a b ea eb s

/-- SEMPTY: 1 when the source's bit shows empty; it never waits and never empties a mailbox register;
ILLEGAL under DET (R13, R32, R59). -/
def execSempty (d a : Nat) (_ea _eb : Bool) (s : State) : Host.Outcome State Fault Refusal :=
  issue 4 { seqOk := true, timing := true, dests := [.ofS s.cur.sel d] }
    (doneG fun g => g.setS d (boolW (!g.full (.ofS g.sel a)))) s

/-- saddi (R236). -/
def execSaddi (d a imm : Nat) (s : State) : Host.Outcome State Fault Refusal :=
  scalarImm (fun a => a + sext12 imm) d a s

/-- sandi (R236). -/
def execSandi (d a imm : Nat) (s : State) : Host.Outcome State Fault Refusal :=
  scalarImm (fun a => a &&& sext12 imm) d a s

/-- sori (R236). -/
def execSori (d a imm : Nat) (s : State) : Host.Outcome State Fault Refusal :=
  scalarImm (fun a => a ||| sext12 imm) d a s

/-- sxori (R236). -/
def execSxori (d a imm : Nat) (s : State) : Host.Outcome State Fault Refusal :=
  scalarImm (fun a => a ^^^ sext12 imm) d a s

/-- sshiShl (R237). -/
def execSshiShl (d a sh : Nat) (s : State) : Host.Outcome State Fault Refusal :=
  scalarImm (fun a => a <<< sh) d a s

/-- sshiShr (R237). -/
def execSshiShr (d a sh : Nat) (s : State) : Host.Outcome State Fault Refusal :=
  scalarImm (fun a => a >>> sh) d a s

/-- sshiSra (R237). -/
def execSshiSra (d a sh : Nat) (s : State) : Host.Outcome State Fault Refusal :=
  scalarImm (fun a => sra32 a sh) d a s

/-- sshiRor (R237). -/
def execSshiRor (d a sh : Nat) (s : State) : Host.Outcome State Fault Refusal :=
  scalarImm (fun a => ror32 a sh) d a s

/-- slui (R236). -/
def execSlui (d a imm : Nat) (s : State) : Host.Outcome State Fault Refusal :=
  scalarImm (fun a => lui a imm) d a s

/-- LIMM: the extension word to d; eight bytes (R208, R238). -/
def execLimm (d value : Nat) (s : State) : Host.Outcome State Fault Refusal :=
  issue 8 { seqOk := true, dests := [.ofS s.cur.sel d] } (doneG fun g => g.setS d (w32 value)) s

/-- SETM: MODE[11:0] of the issuing arm (R239). -/
def execSetm (imm : Nat) (s : State) : Host.Outcome State Fault Refusal :=
  issue 4 { seqOk := true }
    (doneG fun g => g.mapMe fun a => { a with mode := modeSetm a.mode imm }) s

end Sys2Proof.Machine
end

