-- ==== Sys2Proof/Machine/Dispatch.lean ====
section
/-!
DEFINITION. The one dispatch: each row of the opcode table to its meaning.
-/

namespace Sys2Proof.Machine

/-- What an instruction or an event does. -/
def exec (i : Instr) (s : State) : Host.Outcome State Fault Refusal :=
  match i with
  | .sadd d a b ea eb => Sys2Proof.Machine.execSadd d a b ea eb s
  | .ssub d a b ea eb => Sys2Proof.Machine.execSsub d a b ea eb s
  | .sand d a b ea eb => Sys2Proof.Machine.execSand d a b ea eb s
  | .sor d a b ea eb => Sys2Proof.Machine.execSor d a b ea eb s
  | .sxor d a b ea eb => Sys2Proof.Machine.execSxor d a b ea eb s
  | .sshl d a b ea eb => Sys2Proof.Machine.execSshl d a b ea eb s
  | .sshr d a b ea eb => Sys2Proof.Machine.execSshr d a b ea eb s
  | .ssra d a b ea eb => Sys2Proof.Machine.execSsra d a b ea eb s
  | .smul d a b ea eb => Sys2Proof.Machine.execSmul d a b ea eb s
  | .smulh d a b ea eb => Sys2Proof.Machine.execSmulh d a b ea eb s
  | .smulhu d a b ea eb => Sys2Proof.Machine.execSmulhu d a b ea eb s
  | .sdiv d a b ea eb => Sys2Proof.Machine.execSdiv d a b ea eb s
  | .sdivu d a b ea eb => Sys2Proof.Machine.execSdivu d a b ea eb s
  | .srem d a b ea eb => Sys2Proof.Machine.execSrem d a b ea eb s
  | .sremu d a b ea eb => Sys2Proof.Machine.execSremu d a b ea eb s
  | .ssel d a b ea eb => Sys2Proof.Machine.execSsel d a b ea eb s
  | .smin d a b ea eb => Sys2Proof.Machine.execSmin d a b ea eb s
  | .smax d a b ea eb => Sys2Proof.Machine.execSmax d a b ea eb s
  | .sminu d a b ea eb => Sys2Proof.Machine.execSminu d a b ea eb s
  | .smaxu d a b ea eb => Sys2Proof.Machine.execSmaxu d a b ea eb s
  | .sslt d a b ea eb => Sys2Proof.Machine.execSslt d a b ea eb s
  | .ssltu d a b ea eb => Sys2Proof.Machine.execSsltu d a b ea eb s
  | .sseq d a b ea eb => Sys2Proof.Machine.execSseq d a b ea eb s
  | .ssne d a b ea eb => Sys2Proof.Machine.execSsne d a b ea eb s
  | .sclz d a ea eb => Sys2Proof.Machine.execSclz d a ea eb s
  | .spopc d a ea eb => Sys2Proof.Machine.execSpopc d a ea eb s
  | .sadd64 d a b ea eb => Sys2Proof.Machine.execSadd64 d a b ea eb s
  | .ssub64 d a b ea eb => Sys2Proof.Machine.execSsub64 d a b ea eb s
  | .smul64 d a b ea eb => Sys2Proof.Machine.execSmul64 d a b ea eb s
  | .sshl64 d a b ea eb => Sys2Proof.Machine.execSshl64 d a b ea eb s
  | .sshr64 d a b ea eb => Sys2Proof.Machine.execSshr64 d a b ea eb s
  | .sempty d a ea eb => Sys2Proof.Machine.execSempty d a ea eb s
  | .saddi d a imm => Sys2Proof.Machine.execSaddi d a imm s
  | .sandi d a imm => Sys2Proof.Machine.execSandi d a imm s
  | .sori d a imm => Sys2Proof.Machine.execSori d a imm s
  | .sxori d a imm => Sys2Proof.Machine.execSxori d a imm s
  | .sshiShl d a sh => Sys2Proof.Machine.execSshiShl d a sh s
  | .sshiShr d a sh => Sys2Proof.Machine.execSshiShr d a sh s
  | .sshiSra d a sh => Sys2Proof.Machine.execSshiSra d a sh s
  | .sshiRor d a sh => Sys2Proof.Machine.execSshiRor d a sh s
  | .slui d a imm => Sys2Proof.Machine.execSlui d a imm s
  | .limm d value => Sys2Proof.Machine.execLimm d value s
  | .setm imm => Sys2Proof.Machine.execSetm imm s
  | .bra off => Sys2Proof.Machine.execBra off s
  | .call off => Sys2Proof.Machine.execCall off s
  | .beqz x off => Sys2Proof.Machine.execBeqz x off s
  | .bnez x off => Sys2Proof.Machine.execBnez x off s
  | .bltz x off => Sys2Proof.Machine.execBltz x off s
  | .bgez x off => Sys2Proof.Machine.execBgez x off s
  | .bany x off => Sys2Proof.Machine.execBany x off s
  | .ball x off => Sys2Proof.Machine.execBall x off s
  | .bnone x off => Sys2Proof.Machine.execBnone x off s
  | .brd x off => Sys2Proof.Machine.execBrd x off s
  | .brdn x off => Sys2Proof.Machine.execBrdn x off s
  | .divr off => Sys2Proof.Machine.execDivr off s
  | .yld off => Sys2Proof.Machine.execYld off s
  | .jmpr a ea eb => Sys2Proof.Machine.execJmpr a ea eb s
  | .callr a ea eb => Sys2Proof.Machine.execCallr a ea eb s
  | .exit a ea eb => Sys2Proof.Machine.execExit a ea eb s
  | .trap a ea eb => Sys2Proof.Machine.execTrap a ea eb s
  | .vadd d a b ea eb => Sys2Proof.Machine.execVadd d a b ea eb s
  | .vsub d a b ea eb => Sys2Proof.Machine.execVsub d a b ea eb s
  | .vmul d a b ea eb => Sys2Proof.Machine.execVmul d a b ea eb s
  | .vmulh d a b ea eb => Sys2Proof.Machine.execVmulh d a b ea eb s
  | .vmad d a b ea eb => Sys2Proof.Machine.execVmad d a b ea eb s
  | .vmin d a b ea eb => Sys2Proof.Machine.execVmin d a b ea eb s
  | .vmax d a b ea eb => Sys2Proof.Machine.execVmax d a b ea eb s
  | .vabsd d a b ea eb => Sys2Proof.Machine.execVabsd d a b ea eb s
  | .vand d a b ea eb => Sys2Proof.Machine.execVand d a b ea eb s
  | .vor d a b ea eb => Sys2Proof.Machine.execVor d a b ea eb s
  | .vxor d a b ea eb => Sys2Proof.Machine.execVxor d a b ea eb s
  | .vshl d a b ea eb => Sys2Proof.Machine.execVshl d a b ea eb s
  | .vshr d a b ea eb => Sys2Proof.Machine.execVshr d a b ea eb s
  | .vsra d a b ea eb => Sys2Proof.Machine.execVsra d a b ea eb s
  | .vsel d a b ea eb => Sys2Proof.Machine.execVsel d a b ea eb s
  | .vmov d a ea eb => Sys2Proof.Machine.execVmov d a ea eb s
  | .vnot d a ea eb => Sys2Proof.Machine.execVnot d a ea eb s
  | .vneg d a ea eb => Sys2Proof.Machine.execVneg d a ea eb s
  | .vabs d a ea eb => Sys2Proof.Machine.execVabs d a ea eb s
  | .vclz d a ea eb => Sys2Proof.Machine.execVclz d a ea eb s
  | .vpopc d a ea eb => Sys2Proof.Machine.execVpopc d a ea eb s
  | .vbrev d a ea eb => Sys2Proof.Machine.execVbrev d a ea eb s
  | .vlane d ea eb => Sys2Proof.Machine.execVlane d ea eb s
  | .vbcast d a ea eb => Sys2Proof.Machine.execVbcast d a ea eb s
  | .vcmpEq d a b ea eb => Sys2Proof.Machine.execVcmpEq d a b ea eb s
  | .vcmpNe d a b ea eb => Sys2Proof.Machine.execVcmpNe d a b ea eb s
  | .vcmpLt d a b ea eb => Sys2Proof.Machine.execVcmpLt d a b ea eb s
  | .vcmpLe d a b ea eb => Sys2Proof.Machine.execVcmpLe d a b ea eb s
  | .vcmpGt d a b ea eb => Sys2Proof.Machine.execVcmpGt d a b ea eb s
  | .vcmpGe d a b ea eb => Sys2Proof.Machine.execVcmpGe d a b ea eb s
  | .vfcmpEq d a b ea eb => Sys2Proof.Machine.execVfcmpEq d a b ea eb s
  | .vfcmpNe d a b ea eb => Sys2Proof.Machine.execVfcmpNe d a b ea eb s
  | .vfcmpLt d a b ea eb => Sys2Proof.Machine.execVfcmpLt d a b ea eb s
  | .vfcmpLe d a b ea eb => Sys2Proof.Machine.execVfcmpLe d a b ea eb s
  | .vfcmpGt d a b ea eb => Sys2Proof.Machine.execVfcmpGt d a b ea eb s
  | .vfcmpGe d a b ea eb => Sys2Proof.Machine.execVfcmpGe d a b ea eb s
  | .vfcmpUn d a b ea eb => Sys2Proof.Machine.execVfcmpUn d a b ea eb s
  | .vfcmpOr d a b ea eb => Sys2Proof.Machine.execVfcmpOr d a b ea eb s
  | .vfadd d a b ea eb => Sys2Proof.Machine.execVfadd d a b ea eb s
  | .vfsub d a b ea eb => Sys2Proof.Machine.execVfsub d a b ea eb s
  | .vfmul d a b ea eb => Sys2Proof.Machine.execVfmul d a b ea eb s
  | .vfma d a b ea eb => Sys2Proof.Machine.execVfma d a b ea eb s
  | .vfmin d a b ea eb => Sys2Proof.Machine.execVfmin d a b ea eb s
  | .vfmax d a b ea eb => Sys2Proof.Machine.execVfmax d a b ea eb s
  | .vfscale d a b ea eb => Sys2Proof.Machine.execVfscale d a b ea eb s
  | .vdot d a b ea eb => Sys2Proof.Machine.execVdot d a b ea eb s
  | .vrcp d a ea eb => Sys2Proof.Machine.execVrcp d a ea eb s
  | .vrsq d a ea eb => Sys2Proof.Machine.execVrsq d a ea eb s
  | .vsqrt d a ea eb => Sys2Proof.Machine.execVsqrt d a ea eb s
  | .vexp2 d a ea eb => Sys2Proof.Machine.execVexp2 d a ea eb s
  | .vlog2 d a ea eb => Sys2Proof.Machine.execVlog2 d a ea eb s
  | .vsin d a ea eb => Sys2Proof.Machine.execVsin d a ea eb s
  | .vcos d a ea eb => Sys2Proof.Machine.execVcos d a ea eb s
  | .vtanh d a ea eb => Sys2Proof.Machine.execVtanh d a ea eb s
  | .vcvt d a ea eb => Sys2Proof.Machine.execVcvt d a ea eb s
  | .vpack d a b ea eb => Sys2Proof.Machine.execVpack d a b ea eb s
  | .vunpkl d a ea eb => Sys2Proof.Machine.execVunpkl d a ea eb s
  | .vunpkh d a ea eb => Sys2Proof.Machine.execVunpkh d a ea eb s
  | .vqnt d a b ea eb => Sys2Proof.Machine.execVqnt d a b ea eb s
  | .vdqnt d a b ea eb => Sys2Proof.Machine.execVdqnt d a b ea eb s
  | .vfclass d a ea eb => Sys2Proof.Machine.execVfclass d a ea eb s
  | .vrnd d a ea eb => Sys2Proof.Machine.execVrnd d a ea eb s
  | .vshuf d a b ea eb => Sys2Proof.Machine.execVshuf d a b ea eb s
  | .vrot d a b ea eb => Sys2Proof.Machine.execVrot d a b ea eb s
  | .vrdl d a b ea eb => Sys2Proof.Machine.execVrdl d a b ea eb s
  | .vwrl d a b ea eb => Sys2Proof.Machine.execVwrl d a b ea eb s
  | .vred d a ea eb => Sys2Proof.Machine.execVred d a ea eb s
  | .vscan d a ea eb => Sys2Proof.Machine.execVscan d a ea eb s
  | .vballot d a ea eb => Sys2Proof.Machine.execVballot d a ea eb s
  | .vcompact d a b ea eb => Sys2Proof.Machine.execVcompact d a b ea eb s
  | .pand d a b ea eb => Sys2Proof.Machine.execPand d a b ea eb s
  | .por d a b ea eb => Sys2Proof.Machine.execPor d a b ea eb s
  | .pxor d a b ea eb => Sys2Proof.Machine.execPxor d a b ea eb s
  | .pandn d a b ea eb => Sys2Proof.Machine.execPandn d a b ea eb s
  | .pnot d a ea eb => Sys2Proof.Machine.execPnot d a ea eb s
  | .pfroms d a ea eb => Sys2Proof.Machine.execPfroms d a ea eb s
  | .ptos d a ea eb => Sys2Proof.Machine.execPtos d a ea eb s
  | .pmov d a ea eb => Sys2Proof.Machine.execPmov d a ea eb s
  | .expr d a b n ea eb tokens => Sys2Proof.Machine.execExpr d a b n ea eb tokens s
  | .ld d a pol sz off => Sys2Proof.Machine.execLd d a pol sz off s
  | .st d a pol sz off => Sys2Proof.Machine.execSt d a pol sz off s
  | .lds d a pol sz off => Sys2Proof.Machine.execLds d a pol sz off s
  | .sts d a pol sz off => Sys2Proof.Machine.execSts d a pol sz off s
  | .ldb d a pol sz off => Sys2Proof.Machine.execLdb d a pol sz off s
  | .stb d a pol sz off => Sys2Proof.Machine.execStb d a pol sz off s
  | .ldaqScalar d a pol sz off => Sys2Proof.Machine.execLdaqScalar d a pol sz off s
  | .ldaqVector d a pol sz off => Sys2Proof.Machine.execLdaqVector d a pol sz off s
  | .strlScalar d a pol sz off => Sys2Proof.Machine.execStrlScalar d a pol sz off s
  | .strlVector d a pol sz off => Sys2Proof.Machine.execStrlVector d a pol sz off s
  | .atomAdd d a b ea eb => Sys2Proof.Machine.execAtomAdd d a b ea eb s
  | .atomAnd d a b ea eb => Sys2Proof.Machine.execAtomAnd d a b ea eb s
  | .atomOr d a b ea eb => Sys2Proof.Machine.execAtomOr d a b ea eb s
  | .atomXor d a b ea eb => Sys2Proof.Machine.execAtomXor d a b ea eb s
  | .atomMin d a b ea eb => Sys2Proof.Machine.execAtomMin d a b ea eb s
  | .atomMax d a b ea eb => Sys2Proof.Machine.execAtomMax d a b ea eb s
  | .atomXchg d a b ea eb => Sys2Proof.Machine.execAtomXchg d a b ea eb s
  | .atomFadd d a b ea eb => Sys2Proof.Machine.execAtomFadd d a b ea eb s
  | .acasVector d a b ea eb => Sys2Proof.Machine.execAcasVector d a b ea eb s
  | .acasScalar d a b ea eb => Sys2Proof.Machine.execAcasScalar d a b ea eb s
  | .atomsAdd d a b ea eb => Sys2Proof.Machine.execAtomsAdd d a b ea eb s
  | .atomsAnd d a b ea eb => Sys2Proof.Machine.execAtomsAnd d a b ea eb s
  | .atomsOr d a b ea eb => Sys2Proof.Machine.execAtomsOr d a b ea eb s
  | .atomsXor d a b ea eb => Sys2Proof.Machine.execAtomsXor d a b ea eb s
  | .atomsMin d a b ea eb => Sys2Proof.Machine.execAtomsMin d a b ea eb s
  | .atomsMax d a b ea eb => Sys2Proof.Machine.execAtomsMax d a b ea eb s
  | .atomsXchg d a b ea eb => Sys2Proof.Machine.execAtomsXchg d a b ea eb s
  | .atomsFadd d a b ea eb => Sys2Proof.Machine.execAtomsFadd d a b ea eb s
  | .redAdd a b ea eb => Sys2Proof.Machine.execRedAdd a b ea eb s
  | .redFadd a b ea eb => Sys2Proof.Machine.execRedFadd a b ea eb s
  | .redMin a b ea eb => Sys2Proof.Machine.execRedMin a b ea eb s
  | .redMax a b ea eb => Sys2Proof.Machine.execRedMax a b ea eb s
  | .redAnd a b ea eb => Sys2Proof.Machine.execRedAnd a b ea eb s
  | .redOr a b ea eb => Sys2Proof.Machine.execRedOr a b ea eb s
  | .redXor a b ea eb => Sys2Proof.Machine.execRedXor a b ea eb s
  | .pref a b ea eb => Sys2Proof.Machine.execPref a b ea eb s
  | .disc a b ea eb => Sys2Proof.Machine.execDisc a b ea eb s
  | .wbk a b ea eb => Sys2Proof.Machine.execWbk a b ea eb s
  | .inv a b ea eb => Sys2Proof.Machine.execInv a b ea eb s
  | .rflush b ea eb => Sys2Proof.Machine.execRflush b ea eb s
  | .fence eng cum scope pred succ => Sys2Proof.Machine.execFence eng cum scope pred succ s
  | .bari a b ea eb => Sys2Proof.Machine.execBari a b ea eb s
  | .bara a b ea eb => Sys2Proof.Machine.execBara a b ea eb s
  | .barw a b ea eb => Sys2Proof.Machine.execBarw a b ea eb s
  | .barx a b ea eb => Sys2Proof.Machine.execBarx a b ea eb s
  | .barq d a b ea eb => Sys2Proof.Machine.execBarq d a b ea eb s
  | .acopy d a b ea eb => Sys2Proof.Machine.execAcopy d a b ea eb s
  | .acopy2d d a b ea eb => Sys2Proof.Machine.execAcopy2d d a b ea eb s
  | .tagw d a ea eb => Sys2Proof.Machine.execTagw d a ea eb s
  | .mreq d a b ea eb => Sys2Proof.Machine.execMreq d a b ea eb s
  | .trd d a b ea eb => Sys2Proof.Machine.execTrd d a b ea eb s
  | .twr d a b ea eb => Sys2Proof.Machine.execTwr d a b ea eb s
  | .twm d a b ea eb => Sys2Proof.Machine.execTwm d a b ea eb s
  | .tdrain d a b ea eb => Sys2Proof.Machine.execTdrain d a b ea eb s
  | .mma d a b ea eb => Sys2Proof.Machine.execMma d a b ea eb s
  | .mmas d a b ea eb => Sys2Proof.Machine.execMmas d a b ea eb s
  | .mmaq d a b ea eb => Sys2Proof.Machine.execMmaq d a b ea eb s
  | .tzero d ea eb => Sys2Proof.Machine.execTzero d ea eb s
  | .tload d a b ea eb => Sys2Proof.Machine.execTload d a b ea eb s
  | .tstore d a b ea eb => Sys2Proof.Machine.execTstore d a b ea eb s
  | .msig a ea eb => Sys2Proof.Machine.execMsig a ea eb s
  | .twalk a b ea eb => Sys2Proof.Machine.execTwalk a b ea eb s
  | .permit a b ea eb => Sys2Proof.Machine.execPermit a b ea eb s
  | .srdef a b ea eb => Sys2Proof.Machine.execSrdef a b ea eb s
  | .vcnt a b ea eb => Sys2Proof.Machine.execVcnt a b ea eb s
  | .scaleb a b ea eb => Sys2Proof.Machine.execScaleb a b ea eb s
  | .tfill d a ea eb => Sys2Proof.Machine.execTfill d a ea eb s
  | .wake a ea eb => Sys2Proof.Machine.execWake a ea eb s
  | .sig a b ea eb => Sys2Proof.Machine.execSig a b ea eb s
  | .depo d a b ea eb => Sys2Proof.Machine.execDepo d a b ea eb s
  | .join d a ea eb => Sys2Proof.Machine.execJoin d a ea eb s
  | .sigw d a ea eb => Sys2Proof.Machine.execSigw d a ea eb s
  | .ngrant a b ea eb => Sys2Proof.Machine.execNgrant a b ea eb s
  | .nrevoke a b ea eb => Sys2Proof.Machine.execNrevoke a b ea eb s
  | .launch a ea eb => Sys2Proof.Machine.execLaunch a ea eb s
  | .take d ea eb => Sys2Proof.Machine.execTake d ea eb s
  | .post a b ea eb => Sys2Proof.Machine.execPost a b ea eb s
  | .qstat d a ea eb => Sys2Proof.Machine.execQstat d a ea eb s
  | .hnew d a b ea eb => Sys2Proof.Machine.execHnew d a b ea eb s
  | .hsplit d a ea eb => Sys2Proof.Machine.execHsplit d a ea eb s
  | .hdrop a ea eb => Sys2Proof.Machine.execHdrop a ea eb s
  | .hmerge d a ea eb => Sys2Proof.Machine.execHmerge d a ea eb s
  | .hbind a b ea eb => Sys2Proof.Machine.execHbind a b ea eb s
  | .hinfo d a ea eb => Sys2Proof.Machine.execHinfo d a ea eb s
  | .haddr d a b ea eb => Sys2Proof.Machine.execHaddr d a b ea eb s
  | .scopew d a ea eb => Sys2Proof.Machine.execScopew d a ea eb s
  | .watch d a ea eb => Sys2Proof.Machine.execWatch d a ea eb s
  | .unwatch d a ea eb => Sys2Proof.Machine.execUnwatch d a ea eb s
  | .warm d a ea eb => Sys2Proof.Machine.execWarm d a ea eb s
  | .wstat d a ea eb => Sys2Proof.Machine.execWstat d a ea eb s
  | .srd a b => Sys2Proof.Machine.execSrd a b s
  | .swr a b => Sys2Proof.Machine.execSwr a b s
  | .tlbinv a b c => Sys2Proof.Machine.execTlbinv a b c s
  | .fbread a => Sys2Proof.Machine.execFbread a s
  | .replay a => Sys2Proof.Machine.execReplay a s
  | .setcoh a b c => Sys2Proof.Machine.execSetcoh a b c s
  | .migrate a b c => Sys2Proof.Machine.execMigrate a b c s
  | .wsload a c => Sys2Proof.Machine.execWsload a c s
  | .halt a => Sys2Proof.Machine.execHalt a s
  | .haltRelease a => Sys2Proof.Machine.execHaltRelease a s
  | .swapout a b => Sys2Proof.Machine.execSwapout a b s
  | .rcv => Sys2Proof.Machine.execRcv s
  | .ret => Sys2Proof.Machine.execRet s
  | .bkpt => Sys2Proof.Machine.execBkpt s
  | .nop => Sys2Proof.Machine.execNop s
  | .tsync => Sys2Proof.Machine.execTsync s
  | .clust => Sys2Proof.Machine.execClust s
  | .sleep => Sys2Proof.Machine.execSleep s
  | .trapret => Sys2Proof.Machine.execTrapret s
  | .replayDie => Sys2Proof.Machine.execReplayDie s
  | .submissionDoorbell => Sys2Proof.Machine.execSubmissionDoorbell s
  | .intakeRecord => Sys2Proof.Machine.execIntakeRecord s
  | .pendingLaunchDrain => Sys2Proof.Machine.execPendingLaunchDrain s
  | .launchStart => Sys2Proof.Machine.execLaunchStart s
  | .launchStarvation => Sys2Proof.Machine.execLaunchStarvation s
  | .rankPlace => Sys2Proof.Machine.execRankPlace s
  | .swapThreshold => Sys2Proof.Machine.execSwapThreshold s
  | .saveComplete => Sys2Proof.Machine.execSaveComplete s
  | .groupResume => Sys2Proof.Machine.execGroupResume s
  | .yieldReady => Sys2Proof.Machine.execYieldReady s
  | .doldrumsExpiry => Sys2Proof.Machine.execDoldrumsExpiry s
  | .groupExitComplete => Sys2Proof.Machine.execGroupExitComplete s
  | .loadDataReturn => Sys2Proof.Machine.execLoadDataReturn s
  | .atomicReturn => Sys2Proof.Machine.execAtomicReturn s
  | .vsfuComplete => Sys2Proof.Machine.execVsfuComplete s
  | .postedOpAck => Sys2Proof.Machine.execPostedOpAck s
  | .wakeDelivery => Sys2Proof.Machine.execWakeDelivery s
  | .sigDelivery => Sys2Proof.Machine.execSigDelivery s
  | .depoDelivery => Sys2Proof.Machine.execDepoDelivery s
  | .joinDelivery => Sys2Proof.Machine.execJoinDelivery s
  | .ngrantDelivery => Sys2Proof.Machine.execNgrantDelivery s
  | .nrevokeDelivery => Sys2Proof.Machine.execNrevokeDelivery s
  | .joinValueArrival => Sys2Proof.Machine.execJoinValueArrival s
  | .namePortWake => Sys2Proof.Machine.execNamePortWake s
  | .namePortSig => Sys2Proof.Machine.execNamePortSig s
  | .namePortDepo => Sys2Proof.Machine.execNamePortDepo s
  | .namePortJoin => Sys2Proof.Machine.execNamePortJoin s
  | .namePortHexit => Sys2Proof.Machine.execNamePortHexit s
  | .namePortReservedOp => Sys2Proof.Machine.execNamePortReservedOp s
  | .namePortDiscardedWrite => Sys2Proof.Machine.execNamePortDiscardedWrite s
  | .hostNameAlloc => Sys2Proof.Machine.execHostNameAlloc s
  | .nameRelease => Sys2Proof.Machine.execNameRelease s
  | .portUnbind => Sys2Proof.Machine.execPortUnbind s
  | .skeinAlloc => Sys2Proof.Machine.execSkeinAlloc s
  | .indirectionAlloc => Sys2Proof.Machine.execIndirectionAlloc s
  | .skeinDrop => Sys2Proof.Machine.execSkeinDrop s
  | .skeinBind => Sys2Proof.Machine.execSkeinBind s
  | .scopewAttach => Sys2Proof.Machine.execScopewAttach s
  | .skeinReply => Sys2Proof.Machine.execSkeinReply s
  | .scopewComplete => Sys2Proof.Machine.execScopewComplete s
  | .takeItemDelivery => Sys2Proof.Machine.execTakeItemDelivery s
  | .postAccept => Sys2Proof.Machine.execPostAccept s
  | .watchInstallComplete => Sys2Proof.Machine.execWatchInstallComplete s
  | .watchedWriteAtHome => Sys2Proof.Machine.execWatchedWriteAtHome s
  | .watchWindowClose => Sys2Proof.Machine.execWatchWindowClose s
  | .watchPeriodStart => Sys2Proof.Machine.execWatchPeriodStart s
  | .unwatchComplete => Sys2Proof.Machine.execUnwatchComplete s
  | .sequencerTakeEntry => Sys2Proof.Machine.execSequencerTakeEntry s
  | .msigDelivery => Sys2Proof.Machine.execMsigDelivery s
  | .routineEnd => Sys2Proof.Machine.execRoutineEnd s
  | .clustBindTake => Sys2Proof.Machine.execClustBindTake s
  | .matrixOpStart => Sys2Proof.Machine.execMatrixOpStart s
  | .matrixPassComplete => Sys2Proof.Machine.execMatrixPassComplete s
  | .tileRowWritten => Sys2Proof.Machine.execTileRowWritten s
  | .tstoreRow => Sys2Proof.Machine.execTstoreRow s
  | .walkTileFetch => Sys2Proof.Machine.execWalkTileFetch s
  | .walkTileDelivered => Sys2Proof.Machine.execWalkTileDelivered s
  | .trdServe => Sys2Proof.Machine.execTrdServe s
  | .tdrainRow => Sys2Proof.Machine.execTdrainRow s
  | .requestHoldEnd => Sys2Proof.Machine.execRequestHoldEnd s
  | .copyComplete => Sys2Proof.Machine.execCopyComplete s
  | .barrierArrival => Sys2Proof.Machine.execBarrierArrival s
  | .atomicBufferDrain => Sys2Proof.Machine.execAtomicBufferDrain s
  | .redApply => Sys2Proof.Machine.execRedApply s
  | .reductionSetApply => Sys2Proof.Machine.execReductionSetApply s
  | .walkComplete => Sys2Proof.Machine.execWalkComplete s
  | .hostAccess => Sys2Proof.Machine.execHostAccess s
  | .dieWakeComplete => Sys2Proof.Machine.execDieWakeComplete s
  | .diePowerDown => Sys2Proof.Machine.execDiePowerDown s
  | .diepwrReq => Sys2Proof.Machine.execDiepwrReq s
  | .remoteErrorResponse => Sys2Proof.Machine.execRemoteErrorResponse s
  | .mcheckDeliver => Sys2Proof.Machine.execMcheckDeliver s
  | .memoryUncorrectable => Sys2Proof.Machine.execMemoryUncorrectable s
  | .registerUncorrectable => Sys2Proof.Machine.execRegisterUncorrectable s
  | .weightBankRefresh => Sys2Proof.Machine.execWeightBankRefresh s
  | .weightRefreshFail => Sys2Proof.Machine.execWeightRefreshFail s
  | .skeinRecordError => Sys2Proof.Machine.execSkeinRecordError s
  | .nameEntryError => Sys2Proof.Machine.execNameEntryError s
  | .prectlGo => Sys2Proof.Machine.execPrectlGo s
  | .prectlClearDone => Sys2Proof.Machine.execPrectlClearDone s
  | .prectlClearErr => Sys2Proof.Machine.execPrectlClearErr s
  | .preemptDrainEnd => Sys2Proof.Machine.execPreemptDrainEnd s
  | .preemptDone => Sys2Proof.Machine.execPreemptDone s
  | .registerWrite => Sys2Proof.Machine.execRegisterWrite s
  | .hownAdopt => Sys2Proof.Machine.execHownAdopt s
  | .hownClearStale => Sys2Proof.Machine.execHownClearStale s
  | .linkTraining => Sys2Proof.Machine.execLinkTraining s
  | .flitCrcError => Sys2Proof.Machine.execFlitCrcError s
  | .linkAckTimeout => Sys2Proof.Machine.execLinkAckTimeout s
  | .laneRetire => Sys2Proof.Machine.execLaneRetire s
  | .widthChangeComplete => Sys2Proof.Machine.execWidthChangeComplete s
  | .hostLoss => Sys2Proof.Machine.execHostLoss s
  | .firmwareHeartbeatTimeout => Sys2Proof.Machine.execFirmwareHeartbeatTimeout s
  | .liveUpdate => Sys2Proof.Machine.execLiveUpdate s
  | .complexBoot => Sys2Proof.Machine.execComplexBoot s
  | .powerUp => Sys2Proof.Machine.execPowerUp s
  | .spdmGetVersion => Sys2Proof.Machine.execSpdmGetVersion s
  | .spdmGetCapabilities => Sys2Proof.Machine.execSpdmGetCapabilities s
  | .spdmNegotiateAlgorithms => Sys2Proof.Machine.execSpdmNegotiateAlgorithms s
  | .spdmGetDigests => Sys2Proof.Machine.execSpdmGetDigests s
  | .spdmGetCertificate => Sys2Proof.Machine.execSpdmGetCertificate s
  | .spdmChallenge => Sys2Proof.Machine.execSpdmChallenge s
  | .spdmGetMeasurements => Sys2Proof.Machine.execSpdmGetMeasurements s
  | .spdmUnsupported => Sys2Proof.Machine.execSpdmUnsupported s
  | .registerServicer => Sys2Proof.Machine.execRegisterServicer s
  | .regionEnd => Sys2Proof.Machine.execRegionEnd s
  | .thermalThrottle => Sys2Proof.Machine.execThermalThrottle s
  | .thermalUnthrottle => Sys2Proof.Machine.execThermalUnthrottle s
  | .thermalEmergency => Sys2Proof.Machine.execThermalEmergency s
  | .thermalTrip => Sys2Proof.Machine.execThermalTrip s
  | .powerOverCap => Sys2Proof.Machine.execPowerOverCap s
  | .dieLinkFail => Sys2Proof.Machine.execDieLinkFail s
  | .dieSelfFence => Sys2Proof.Machine.execDieSelfFence s
  | .clusterRetire => Sys2Proof.Machine.execClusterRetire s
  | .channelRetire => Sys2Proof.Machine.execChannelRetire s
  | .securityAlarm => Sys2Proof.Machine.execSecurityAlarm s
  | .fradbAttach => Sys2Proof.Machine.execFradbAttach s
  | .fradbBreak => Sys2Proof.Machine.execFradbBreak s
  | .fradbBreakHit => Sys2Proof.Machine.execFradbBreakHit s
  | .fradbContinue => Sys2Proof.Machine.execFradbContinue s
  | .fradbStep => Sys2Proof.Machine.execFradbStep s
  | .fradbStepNotReady => Sys2Proof.Machine.execFradbStepNotReady s
  | .fradbPrint => Sys2Proof.Machine.execFradbPrint s
  | .fradbName => Sys2Proof.Machine.execFradbName s
  | .fradbSave => Sys2Proof.Machine.execFradbSave s
  | .fradbX => Sys2Proof.Machine.execFradbX s
  | .fradbIntakeHold => Sys2Proof.Machine.execFradbIntakeHold s
  | .fradbIntakeRelease => Sys2Proof.Machine.execFradbIntakeRelease s
  | .fradbPlq => Sys2Proof.Machine.execFradbPlq s
  | .fradbSkein => Sys2Proof.Machine.execFradbSkein s
  | .fradbTile => Sys2Proof.Machine.execFradbTile s
  | .fradbTileRow => Sys2Proof.Machine.execFradbTileRow s
  | .reservedEncoding => Sys2Proof.Machine.execReservedEncoding s
  | .saveImageImport => Sys2Proof.Machine.execSaveImageImport s
  | .peerRequest => Sys2Proof.Machine.execPeerRequest s
  | .storePerformed => Sys2Proof.Machine.execStorePerformed s
  | .cacheMaintenanceComplete => Sys2Proof.Machine.execCacheMaintenanceComplete s
  | .cohChangePublish => Sys2Proof.Machine.execCohChangePublish s
  | .fbreadReply => Sys2Proof.Machine.execFbreadReply s
  | .watchQueryReply => Sys2Proof.Machine.execWatchQueryReply s
  | .wsloadComplete => Sys2Proof.Machine.execWsloadComplete s
  | .tlbinvComplete => Sys2Proof.Machine.execTlbinvComplete s
  | .haltStopped => Sys2Proof.Machine.execHaltStopped s
  | .powerLoss => Sys2Proof.Machine.execPowerLoss s
  | .deviceReset => Sys2Proof.Machine.execDeviceReset s

end Sys2Proof.Machine
end

