-- ==== Sys2Proof/Machine/Sched.lean ====
section
/-!
DEFINITION. Which unit moves when no turn is given: the oldest operation in flight that can complete, else
the first unit that has something to do, else an arm (log 2).
-/

namespace Sys2Proof.Machine

/-- The operation can complete now. -/
def State.flightReady (s : State) (f : Flight) : Bool :=
  match f with
  | .trd _ q => s.trdReady q
  | .nameOp op => (s.nextName (fun k => k == op.kind) [] s.flight).isSome
  | .walk d m => s.missOpen d m
  | .redApply c => !s.redWaits c
  | .copy t j => s.copyReady t j
  | .wsload _ _ _ _ _ _ => (s.wsloadReady f).isSome
  | .halt _ _ _ | .swapout _ _ _ => s.haltReady f
  | _ => true

/-- The event of the oldest operation that can complete. -/
def State.readyEvent (s : State) : Option Sys2Proof.Instr :=
  s.flight.findSome? fun f => if s.flightReady f then some f.event else none

/-- An event with its payload. -/
abbrev Unit' := Sys2Proof.Instr × List Nat

/-- The first condition that holds gives its event. -/
def firstOf : List (Bool × Unit') → Option Unit'
  | [] => none
  | (b, u) :: rest => if b then some u else firstOf rest

/-- The walk slots of a cluster that satisfy a test. -/
def Cluster.walkWhere (c : Cluster) (p : Nat → Walk → Bool) : Option Nat :=
  (List.range 8).find? fun n => match c.walk n with
    | some w => p n w
    | none => false

/-- What a cluster has to do. -/
def State.clusterUnit (s : State) (c : Cluster) (cl : Nat) : Option Unit' :=
  let due := s.recDue cl
  if !c.running && c.resv.isEmpty && due.isNone && !c.retiring then none
  else
    let go := !s.engineStopped cl
    let next := if s.clusterOpen cl then (s.nextEntry cl).map (·.bind) else none
    let fetch := s.nextFetch cl
    let deliver := c.walkWhere fun _ w => decide (w.delivered < w.data.length)
    let discards := c.walks.any fun w => (w.map Walk.awaitsDiscard).getD false
    firstOf
      [(c.retiring && !s.clusterBusy cl, (.clusterRetire, [cl])),
       (c.running && c.ending && s.engineIdle cl && !discards, (.routineEnd, [cl])),
       (due.isSome || (c.seqFree && next == some false), (.sequencerTakeEntry, [cl])),
       (c.seqFree && next == some true, (.clustBindTake, [cl])),
       (go && (s.startAt cl [] c.engine).isSome, (.matrixOpStart, [cl])),
       (go && s.passReady cl, (.matrixPassComplete, [cl])),
       (go && (startedOp (fun e => e.op.tag.isSome) 0 c.engine).isSome, (.tileRowWritten, [cl])),
       (go && (s.nextTstore cl).isSome, (.tstoreRow, [cl])),
       (fetch.isSome || !c.permq.isEmpty, (.walkTileFetch, [cl, fetch.getD 0])),
       (deliver.isSome, (.walkTileDelivered, [cl, deliver.getD 0]))]

/-- A held arm whose request holds it no more (R360). -/
def Group.holdOver (g : Group) (b : Bool) : Bool :=
  (g.arm b).occ && (g.arm b).ws == .held && !g.heldBy b (g.arm b).wreg

/-- The unit of a saved group finds cores now. -/
def State.resumesNow (s : State) (g : Group) : Bool :=
  !g.resident && s.resumable g && !s.leftSaved g.region &&
    (let u := s.unitOf g
     u.any (·.damaged) || (s.resumeUnit u).isSome)

/-- What the dispatcher has to do for a group. -/
def State.groupUnit (s : State) (g : Group) : Option Unit' :=
  if g.seq.isSome then none
  else firstOf
    [(g.holdOver false, (.requestHoldEnd, [g.tid, 0])),
     (g.holdOver true, (.requestHoldEnd, [g.tid, 1])),
     (g.exiting.isSome && s.exitReady g, (.groupExitComplete, [g.tid])),
     (s.saveReady g, (.saveComplete, [g.tid])),
     (g.armA.occ && g.armA.ws == .yld && g.resident && !s.pressed g, (.yieldReady, [g.tid, 0])),
     (g.armB.occ && g.armB.ws == .yld && g.resident && !s.pressed g, (.yieldReady, [g.tid, 1])),
     (s.thresholdDue g, (.swapThreshold, [g.tid])),
     (s.resumesNow g, (.groupResume, [g.tid]))]

/-- A queue with a record to read (R106, R107). -/
def State.intakeDue (s : State) (q : Nat) : Bool :=
  decide (q < queueCount) && s.qSize q != 0 && s.qHead q != s.qTail q && !s.listFull

/-- The cores with an entry that the hub may take (R109, R357). -/
def State.plqDue (s : State) : Option Nat :=
  if s.listFull then none
  else s.plq.findSome? fun x =>
    match s.plq.find? fun y => y.core == x.core with
    | some y => if s.plqHeld y then none else some x.core
    | none => none

/-- The launch epoch whose sets are applied next, when none of them waits (R144). -/
def State.setDue (s : State) : Option (Nat × Nat) :=
  s.closed.head?.bind fun x =>
    if s.rsets.any fun c => c.launch == x.1 && c.epoch == x.2 && s.redWaits c then none else some x

/-- A watch and a die of it that satisfy a test. -/
def State.watchDue (s : State) (p : Watch → Nat → Bool) : Option (Nat × Nat) :=
  s.watches.findSome? fun w => ((List.range 6).find? (p w)).map fun d => (d, w.wid)

/-- A die whose bank in refresh has had its microsecond (R71). -/
def State.refreshDue (s : State) : Option Nat := (List.range 6).find? fun d => decide (1000 ≤ s.refreshed d)

/-- What is held at a memory die can go on: an arm's turn, or a request that none of its port is before and that nothing
keeps (R82, R99, R105, R206). -/
def State.heldReady (s : State) (d : Nat) : Bool :=
  let f (x : List Nat × Bool) : Held → List Nat × Bool
    | .arm _ _ => (x.1, true)
    | .req r =>
      let p := keyPort r.key
      (p :: x.1, x.2 || (!x.1.contains p && !s.requestWaits r))
  ((s.mdie d).held.foldl f ([], false)).2

/-- What a die's power has to do: wake for a request, an access, or because it is asked back, or serve what it holds; a
compute die goes down (R111, R203, R206). -/
def State.powerUnit (s : State) (d : Nat) : Option Unit' :=
  let x := s.die d
  let m := s.mdie d
  firstOf
    [(x.power.state != 0 && (!x.latch.isEmpty || (x.power.req == 0 && !x.excluded)), (.dieWakeComplete, [d, 0])),
     (if m.power.state != 0 then !m.held.isEmpty || m.power.req == 0 || m.asked else s.heldReady d,
      (.dieWakeComplete, [d, 1])),
     (decide (x.power.state < s.dieTarget d) && s.dieIdle d, (.diePowerDown, [d, 0]))]

/-- A memory die that goes down, once no arm can issue (R203, R206). -/
def State.sleepUnit (s : State) : Option Unit' :=
  ((List.range 6).find? fun d =>
    let m := s.mdie d
    decide (m.power.state < m.power.req) && s.mdieIdle d).map fun d => (.diePowerDown, [d, 1])

/-- What the hub has to do. -/
def State.hubUnit (s : State) : Option Unit' :=
  let p := s.prectl
  let pair (x : Option (Nat × Nat)) : List Nat := [(x.getD (0, 0)).1, (x.getD (0, 0)).2]
  let q := s.queueTails.find? fun x => s.intakeDue x.1
  let windows := s.watchDue s.windowFirst
  let periods := s.watchDue fun w d => s.periodOver w d && !s.windowFirst w d
  firstOf
    [(!p.busy && !p.queue.isEmpty, (.prectlGo, [p.queue.headD 0])),
     (p.busy && !p.drained && s.drainEnds, (.preemptDrainEnd, [])),
     (p.busy && p.drained, (.preemptDone, [])),
     (s.drainReady.isSome, (.tdrainRow, [])),
     (s.setDue.isSome, (.reductionSetApply, pair s.setDue)),
     (s.refreshDue.isSome, (.weightBankRefresh, [s.refreshDue.getD 0])),
     (windows.isSome, (.watchWindowClose, pair windows)),
     (periods.isSome, (.watchPeriodStart, pair periods)),
     (s.starvedNow.isSome, (.launchStarvation, [s.starvedNow.getD 0])),
     (s.hangDue.isSome, (.doldrumsExpiry, [s.hangDue.getD 0])),
     (s.plqDue.isSome, (.pendingLaunchDrain, [s.plqDue.getD 0])),
     (!s.doorbells.isEmpty && !s.listFull && !s.hostHeld, (.submissionDoorbell, [])),
     (q.isSome, (.intakeRecord, [(q.getD (0, 0)).1])),
     (!s.waiting.isEmpty && decide (s.consider s.ranked ≠ s), (.launchStart, [])),
     (!s.unplaced.isEmpty && decide (s.placeFrom s.unplaced ≠ s), (.rankPlace, []))]

/-- A request that waited for an active complex, answered now (R418, R419). -/
def State.spdmUnit (s : State) : Option Unit' :=
  if s.served then s.spdmWait.head?.map fun x => (x.2, [x.1, 1]) else none

/-- The first unit with something to do. -/
def State.nextUnit (s : State) : Option Unit' :=
  match s.hubUnit, s.spdmUnit with
  | some u, _ | none, some u => some u
  | none, none =>
    match (List.range 6).findSome? s.powerUnit with
    | some u => some u
    | none =>
    match s.threads.findSome? s.groupUnit with
    | some u => some u
    | none => s.clusters.zipIdx.findSome? fun (c, cl) => s.clusterUnit c cl

/-! ### Around a turn -/

/-- A change of the next state. -/
def afterNext (f : State → State) : Host.Outcome State Fault Refusal → Host.Outcome State Fault Refusal
  | .next s => .next (f s)
  | o => o

/-- A cycle begins: the detectors count those before it, and the clock moves on (R48, log 6). -/
def State.tock (s : State) : State := { s.countHangs with clock := s.clock + 1 }

end Sys2Proof.Machine
end

