-- ==== Sys2Proof/Machine/Turns.lean ====
section
/-!
DEFINITION. The choice of the arm that issues when no turn is given, and what an issue does to the ages of its
scheduler's arms and to the doldrums detector (R47, R48, R118, R378; log 2).
-/

namespace Sys2Proof.Machine

/-- The arm was turned away when it had the turn. -/
def State.turnedOf (s : State) (tid : Nat) (b : Bool) : Bool :=
  match s.thread tid with
  | some g => (g.arm b).turned
  | none => false

/-- The unit that the next instruction of arm b needs accepts it: an arm that its unit has turned away is ready again once
the same instruction would not be (R47, R118). -/
def State.accepted (s : State) (g : Group) (b : Bool) : Bool :=
  let stays : Host.Outcome State Fault Refusal → Bool
    | .next t => t.turnedOf g.tid b
    | _ => false
  !(g.arm b).turned || (match s.arm g.tid b with
    | .run i x => !stays (exec i x)
    | .stop x => !x.turnedOf g.tid b
    | _ => true)

/-- Arm b is ready: it is occupied, does not wait, and its unit can accept its instruction (R118). -/
def State.armIsReady (s : State) (g : Group) (b : Bool) : Bool := s.canIssue g b && s.accepted g b

/-- The arms of a thread that satisfy a test. -/
def Group.armsWhere (g : Group) (p : Group → Bool → Bool) : List (Group × Bool) :=
  (if p g false then [(g, false)] else []) ++ (if p g true then [(g, true)] else [])

/-- Of the arms that satisfy a test: the first thread that has one names the scheduler, whose arms R118 chooses among; a
sequencer has its own (log 2). -/
def State.chosen (s : State) (p : Group → Bool → Bool) : Option (Nat × Bool) :=
  (s.rotation.find? fun g => !(g.armsWhere p).isEmpty).bind fun g =>
    (choice (match g.schedKey with
      | some k => (s.rotation.filter fun h => h.schedKey == some k).flatMap fun h => h.armsWhere p
      | none => g.armsWhere p)).map fun x => (x.1.tid, x.2)

/-- The next arm when no turn is given: a ready one, else one that its unit has turned away and that tries again (R47). -/
def State.nextArm (s : State) : Option (Nat × Bool) :=
  match s.chosen s.armIsReady with
  | some x => some x
  | none => s.chosen s.canIssue

/-- AGE of an arm c of a thread once arm b of thread tid has issued, which its unit turned away or not: 0 for that arm and
for one that was not ready, one more for one that was (R118). -/
def State.ageOf (s : State) (tid : Nat) (b away : Bool) (h : Group) (c : Bool) (a : Arm) : Arm :=
  { a with age :=
      if (h.tid = tid ∧ c = b) ∨ !s.armIsReady h c then 0 else if away then a.age else satTo 255 (a.age + 1) }

/-- The ages in a state t to which the turn of arm b of a thread has led from the state s (R118). -/
def State.aged (s : State) (tid : Nat) (b : Bool) (t : State) : State :=
  match (s.thread tid).bind Group.schedKey with
  | none => t
  | some k =>
    let away := t.turnedOf tid b
    let f (g : Group) : Group :=
      match s.thread g.tid with
      | some h =>
        if h.schedKey = some k then
          { g with armA := s.ageOf tid b away h false g.armA, armB := s.ageOf tid b away h true g.armB }
        else g
      | none => g
    { t with cur := f t.cur, others := t.others.map f }

/-- An arm of the state s has issued, which has led to the state t (R48, R118, R378). -/
def State.issued (s : State) (tid : Nat) (b : Bool) (t : State) : State := (s.aged tid b t).noteIssue tid b

/-- A recorded operation of arm b has been reissued, which has led to the state t: the detector knows of it when it has
left the record (R48, R126). -/
def State.issuedAgain (s : State) (tid : Nat) (b : Bool) (t : State) : State :=
  let t1 := s.aged tid b t
  match s.thread tid, t1.thread tid with
  | some g, some h => if h.recs.length < g.recs.length then t1.restartHang g.region else t1
  | _, _ => t1

/-- What the fetch of an arm of the state s leads to. -/
def State.runFetch (s : State) (tid : Nat) (armB : Bool) : Fetch → Host.Outcome State Fault Refusal
  | .run i x => afterNext (s.issued tid armB) (exec i x)
  | .deliver x => exec .mcheckDeliver x
  | .again i x old r => afterNext (fun t => s.issuedAgain tid armB (t.reissued old r i)) (exec i x)
  | .stop x => .next x

end Sys2Proof.Machine
end

