-- ==== Sys2Proof/Machine/Step.lean ====
section
/-!
DEFINITION. One step: the turn at the head of the agenda, else the event of the oldest operation in
flight that can complete, else a unit with something to do, else the next arm, else a memory die that sleeps (log 2);
and the placing of an instruction where the next step fetches it.
-/

namespace Sys2Proof.Machine

/-- A step without the passing of time. -/
def turn (s : State) : Host.Outcome State Fault Refusal :=
  match s.agenda with
  | .event i payload :: rest => exec i { s with agenda := rest, ev := payload }
  | .arm tid armB :: rest =>
    let u : State := { s with agenda := rest }
    u.runFetch tid armB (u.arm tid armB)
  | [] =>
    match s.readyEvent with
    | some i => exec i { s with ev := [] }
    | none =>
      match s.nextUnit with
      | some (i, payload) => exec i { s with ev := payload }
      | none =>
        match s.nextArm with
        | some (tid, armB) => s.runFetch tid armB (s.arm tid armB)
        | none =>
          match s.sleepUnit with
          | some (i, payload) => exec i { s with ev := payload }
          | none => .next s

/-- One step of the machine. -/
def step (s : State) : Host.Outcome State Fault Refusal := turn s.tock

/-- The state with an instruction of nbits bits w where the next step fetches it: a group loaded in
region 0 with a page that holds it, and its arm A first in the agenda (log 1). -/
def State.withFetchWord (s : State) (nbits w : Nat) : State :=
  let s1 := s.boot
  { s1 with
    mem := s1.mem.putBytes bootPc (leBytes 8 (w % 2 ^ nbits))
    agenda := .arm bootTid false :: s1.agenda }

end Sys2Proof.Machine
end

