-- ==== Sys2Proof/Safety.lean ====
section
/-!
DEFINITION. The terms that claims use: the canonical form of the memories, an arm that can perform an
instruction at once, what an instruction that completes leaves as it was.
-/

namespace Sys2Proof.Machine

/-- The memories of the device, the hosts, the peers and the weight stores are in their canonical form. -/
def State.MemoryOk (s : State) : Prop :=
  s.mem.wf = true ∧ s.hostMem.wf = true ∧ s.peerMem.wf = true ∧ s.weights.wf = true

/-- A run is safe while its memories stay canonical. -/
def Safe (s : State) : Prop := s.MemoryOk

/-! ### Registers as claims see them -/

/-- What a register holds. -/
inductive RegVal where
  | word (x : W32)
  | lanes (xs : Vector W32 96) (tag : Nat)
  | mask (m : Mask)
  deriving DecidableEq, Repr

/-- The contents of a register. -/
def Group.value (g : Group) : RegId → RegVal
  | .s n => .word (g.val32 (.s n))
  | .b armB n => .word (g.val32 (.b armB n))
  | .v n => .lanes (g.vreg n).lanes (g.vreg n).tag
  | .p n => .mask (g.pred n)

/-- A register that exists: s0 to s47, s48 to s63 of an arm, v0 to v127, p0 to p7 (R22). -/
def RegId.real : RegId → Bool
  | .s n => decide (n < 48)
  | .b _ n => decide (48 ≤ n) && decide (n < 64)
  | .v n => decide (n < 128)
  | .p n => decide (n < 8)

/-- A register of the mailbox, s32 to s39 (R59). -/
def RegId.mailbox : RegId → Bool
  | .s n => decide (32 ≤ n) && decide (n < 40)
  | _ => false

/-- An arm but for its register bank. -/
def Arm.rest (a : Arm) : Arm := { a with bank := .replicate 16 0, bfull := 0 }

/-- A group but for its registers and its arms: names, launch values, pending bits, the trap frame, the
scratchpad, the barrier slot, and all else. -/
def Group.rest (g : Group) : Group :=
  { g with
    s := .replicate 48 0, sfull := 0, v := .replicate 128 .zero, p := .replicate 8 0, pfull := 0
    armA := .free, armB := .free }

/-! ### Instructions that complete -/

/-- The arm that has the turn can perform an instruction with these sources and destinations at once:
every source is full, no destination has a producer outstanding, the instruction is not being resumed
after a park and owes no destination of one, no register is damaged, and fradb neither steps nor passes a
breakpoint. -/
structure State.Ready (s : State) (srcs dests : List RegId) : Prop where
  fresh : s.cur.me.replay = false
  owesNone : s.cur.me.owes = []
  full : ∀ r ∈ srcs, s.cur.full r = true
  free : ∀ r ∈ dests, r ∉ s.cur.pend
  sound : s.cur.bad = []
  noStep : s.fradb.stepping = []
  noPass : s.fradb.passing = []

/-- The frame of an instruction that writes registers of its group only: from s to t it has read srcs
and written dests, and its arm stands at what after says. Nothing outside the group has changed; no other
register has; a mailbox register that was read is empty; of the group's other state, and of its other
arm, nothing has changed. -/
structure State.Completes (s t : State) (srcs dests : List RegId) (after : Arm → Arm) : Prop where
  elsewhere : t = { s with cur := t.cur }
  group : t.cur.rest = s.cur.rest
  own : t.cur.me.rest = ((after s.cur.me).ready).rest
  other : t.cur.arm (!s.cur.sel) = s.cur.arm (!s.cur.sel)
  value : ∀ r : RegId, r.real = true → r ∉ dests → t.cur.value r = s.cur.value r
  full : ∀ r : RegId, r.real = true → r ∉ dests → ¬ (r ∈ srcs ∧ r.mailbox = true) → t.cur.full r = s.cur.full r
  filled : ∀ r ∈ dests, r.real = true → t.cur.full r = true
  mailed : ∀ r ∈ srcs, r.mailbox = true → r ∉ dests → t.cur.full r = false

/-- The frame of an instruction that has set operations on their way and gone on: from a state b, in which its own
writes are done, to t. The operations are in flight; the destinations are empty with a producer outstanding; a mailbox
register that was read is empty; the arm stands at what after says; nothing else has changed. -/
structure State.Departs (b t : State) (srcs dests : List RegId) (fs : List Flight) (after : Arm → Arm) : Prop where
  elsewhere : t = { b with cur := t.cur, flight := b.flight ++ fs }
  group : t.cur.rest = { b.cur.rest with pend := dests.reverse ++ b.cur.pend }
  own : t.cur.me.rest = ((after b.cur.me).ready).rest
  other : t.cur.arm (!b.cur.sel) = b.cur.arm (!b.cur.sel)
  value : ∀ r : RegId, r.real = true → t.cur.value r = b.cur.value r
  full : ∀ r : RegId, r.real = true → r ∉ dests → ¬ (r ∈ srcs ∧ r.mailbox = true) → t.cur.full r = b.cur.full r
  emptied : ∀ r ∈ dests, r.real = true → t.cur.full r = false
  mailed : ∀ r ∈ srcs, r.mailbox = true → t.cur.full r = false

/-- The group's arm has taken the trap at its instruction (R363). With INH clear and a trap entry s56:s57 that is not
zero: the frame is written, INH set, the arm stands at the entry, ready, and nothing else has changed. -/
def State.TrapEntered (s : State) (o : Host.Outcome State Fault Refusal) (cause : Cause) (detail : Nat) (addr : W64)
    (info : W32) : Prop :=
  let entry : W64 := s.cur.val32 (.b s.cur.sel 57) ++ s.cur.val32 (.b s.cur.sel 56)
  tcauseInh s.cur.tcause = false → entry ≠ 0 → cause ≠ .mcheck →
    o = .next { s with
      cur := { s.cur with
        tpc := s.cur.me.pc, taddr := addr, tinfo := info
        tcause := w32 (cause.code + (if s.cur.sel then 16 else 0) + 32 + detail % 256 * 256)
        armA := if s.cur.sel then s.cur.armA else { s.cur.armA.ready with pc := entry }
        armB := if s.cur.sel then { s.cur.armB.ready with pc := entry } else s.cur.armB } }

end Sys2Proof.Machine
end

