-- ==== Sys2Proof/Certificates/Slice0/Obligations.lean ====
section
/-!
DEFINITION. The statements for the provers. Each docstring names the rules of spec/ it formalises.
-/

open Sys2Proof Sys2Proof.Machine

/-! ### Scalar arithmetic (R228 to R239) -/

/-- The constructors of a two-source scalar instruction. -/
abbrev Sys2Proof.Claims.Mk5 : Type := Nat → Nat → Nat → Bool → Bool → Instr

/-- d ← op a b for the two-source scalar instructions, on signed or unsigned values as R231, R232 and R234 give
them. -/
def Sys2Proof.Claims.scalarTwo : List (Claims.Mk5 × (W32 → W32 → W32)) :=
  [(.sadd, fun a b => a + b),
   (.ssub, fun a b => a - b),
   (.sand, fun a b => a &&& b),
   (.sor, fun a b => a ||| b),
   (.sxor, fun a b => a ^^^ b),
   (.sshl, fun a b => a <<< (b.toNat % 32)),
   (.sshr, fun a b => a >>> (b.toNat % 32)),
   (.ssra, fun a b => BitVec.ofInt 32 (a.toInt / 2 ^ (b.toNat % 32))),
   (.smul, fun a b => BitVec.ofNat 32 (a.toNat * b.toNat)),
   (.smulh, fun a b => BitVec.ofInt 32 (a.toInt * b.toInt / 2 ^ 32)),
   (.smulhu, fun a b => BitVec.ofNat 32 (a.toNat * b.toNat / 2 ^ 32)),
   (.sdiv, fun a b => if b.toInt = 0 then BitVec.allOnes 32 else BitVec.ofInt 32 (a.toInt.tdiv b.toInt)),
   (.sdivu, fun a b => if b.toNat = 0 then BitVec.allOnes 32 else BitVec.ofNat 32 (a.toNat / b.toNat)),
   (.srem, fun a b => if b.toInt = 0 then a else BitVec.ofInt 32 (a.toInt.tmod b.toInt)),
   (.sremu, fun a b => if b.toNat = 0 then a else BitVec.ofNat 32 (a.toNat % b.toNat)),
   (.smin, fun a b => if b.toInt < a.toInt then b else a),
   (.smax, fun a b => if a.toInt < b.toInt then b else a),
   (.sminu, fun a b => if b.toNat < a.toNat then b else a),
   (.smaxu, fun a b => if a.toNat < b.toNat then b else a),
   (.sslt, fun a b => if a.toInt < b.toInt then 1 else 0),
   (.ssltu, fun a b => if a.toNat < b.toNat then 1 else 0),
   (.sseq, fun a b => if a = b then 1 else 0),
   (.ssne, fun a b => if a = b then 0 else 1)]

/-- SADD, SSUB, SAND, SOR, SXOR, SSHL, SSHR, SSRA, SMUL, SMULH, SMULHU, SDIV, SDIVU, SREM, SREMU, SMIN, SMAX, SMINU,
SMAXU, SSLT, SSLTU, SSEQ, SSNE complete in one step with the result of R231, R232 or R234 in d, on every operand;
no other register and nothing else of the machine changes but the pc and mailbox sources (R59). -/
def Sys2Proof.Claims.ScalarTwoSource : Prop :=
  ∀ op ∈ Claims.scalarTwo, ∀ (d a b : Nat) (ea eb : Bool) (s : State),
    (op.1 d a b ea eb).WellFormed →
    s.Ready (s.cur.sregs a ++ s.cur.sregs b) [.ofS s.cur.sel d] →
    ∃ t, exec (op.1 d a b ea eb) s = .next t ∧
      t.cur.val32 (.ofS s.cur.sel d) = op.2 (s.cur.sval a) (s.cur.sval b) ∧
      s.Completes t (s.cur.sregs a ++ s.cur.sregs b) [.ofS s.cur.sel d] fun x => x.next 4

/-- SSEL: d takes a where the old d is not zero, else b; SCLZ counts leading zeros, 32 for zero; SPOPC counts ones;
SEMPTY answers whether a is empty, neither waits for it nor empties it, outside a deterministic launch (R233, R235,
R13, R59, R32). -/
def Sys2Proof.Claims.ScalarSelectCount : Prop :=
  (∀ (d a b : Nat) (ea eb : Bool) (s : State), (Instr.ssel d a b ea eb).WellFormed →
    s.Ready (.ofS s.cur.sel d :: (s.cur.sregs a ++ s.cur.sregs b)) [.ofS s.cur.sel d] →
    ∃ t, exec (.ssel d a b ea eb) s = .next t ∧
      t.cur.val32 (.ofS s.cur.sel d) =
        (if s.cur.val32 (.ofS s.cur.sel d) = 0 then s.cur.sval b else s.cur.sval a) ∧
      s.Completes t (.ofS s.cur.sel d :: (s.cur.sregs a ++ s.cur.sregs b)) [.ofS s.cur.sel d] fun x => x.next 4) ∧
  (∀ (d a : Nat) (ea eb : Bool) (s : State), (Instr.sclz d a ea eb).WellFormed →
    s.Ready (s.cur.sregs a) [.ofS s.cur.sel d] →
    ∃ t, exec (.sclz d a ea eb) s = .next t ∧
      (∃ n ≤ 32, t.cur.val32 (.ofS s.cur.sel d) = w32 n ∧ (∀ i < n, (s.cur.sval a).getLsbD (31 - i) = false) ∧
        (n < 32 → (s.cur.sval a).getLsbD (31 - n) = true)) ∧
      s.Completes t (s.cur.sregs a) [.ofS s.cur.sel d] fun x => x.next 4) ∧
  (∀ (d a : Nat) (ea eb : Bool) (s : State), (Instr.spopc d a ea eb).WellFormed →
    s.Ready (s.cur.sregs a) [.ofS s.cur.sel d] →
    ∃ t, exec (.spopc d a ea eb) s = .next t ∧
      t.cur.val32 (.ofS s.cur.sel d) = w32 ((List.range 32).countP fun i => (s.cur.sval a).getLsbD i) ∧
      s.Completes t (s.cur.sregs a) [.ofS s.cur.sel d] fun x => x.next 4) ∧
  (∀ (d a : Nat) (ea eb : Bool) (s : State), (Instr.sempty d a ea eb).WellFormed →
    s.Ready [] [.ofS s.cur.sel d] → s.cur.eff.det = false →
    ∃ t, exec (.sempty d a ea eb) s = .next t ∧
      t.cur.val32 (.ofS s.cur.sel d) = (if s.cur.full (.ofS s.cur.sel a) = true then 0 else 1) ∧
      s.Completes t [] [.ofS s.cur.sel d] fun x => x.next 4)

/-- Scalar arithmetic, comparison, selection and counting. -/
def Obligations.ScalarArithmetic : Prop := Claims.ScalarTwoSource ∧ Claims.ScalarSelectCount

/-- The pair instructions of R235; the shifts take b[5:0] of a scalar. -/
def Sys2Proof.Claims.scalarPair : List (Claims.Mk5 × Bool × (W64 → W64 → W64)) :=
  [(.sadd64, true, fun a b => a + b),
   (.ssub64, true, fun a b => a - b),
   (.smul64, true, fun a b => BitVec.ofNat 64 (a.toNat * b.toNat)),
   (.sshl64, false, fun a b => a <<< (b.toNat % 64)),
   (.sshr64, false, fun a b => a >>> (b.toNat % 64))]

/-- SADD64, SSUB64, SMUL64, SSHL64, SSHR64 complete with the 64-bit result in the pair d, low word first (R214, R235). -/
def Obligations.ScalarPair : Prop :=
  ∀ op ∈ Claims.scalarPair, ∀ (d a b : Nat) (ea eb : Bool) (s : State),
    (op.1 d a b ea eb).WellFormed →
    let bs := if op.2.1 then s.cur.spregs b else s.cur.sregs b
    let y : W64 := if op.2.1 then s.cur.spval b else (s.cur.sval b).setWidth 64
    let ds := [.ofS s.cur.sel d, .ofS s.cur.sel (d + 1)]
    s.Ready (s.cur.spregs a ++ bs) ds →
    ∃ t, exec (op.1 d a b ea eb) s = .next t ∧
      t.cur.val32 (.ofS s.cur.sel (d + 1)) ++ t.cur.val32 (.ofS s.cur.sel d) = op.2.2 (s.cur.spval a) y ∧
      s.Completes t (s.cur.spregs a ++ bs) ds fun x => x.next 4

/-- The immediate instructions of R236 and R237. -/
def Sys2Proof.Claims.scalarImm : List ((Nat → Nat → Nat → Instr) × (W32 → Nat → W32)) :=
  [(.saddi, fun a i => a + (BitVec.ofNat 12 i).signExtend 32),
   (.sandi, fun a i => a &&& (BitVec.ofNat 12 i).signExtend 32),
   (.sori, fun a i => a ||| (BitVec.ofNat 12 i).signExtend 32),
   (.sxori, fun a i => a ^^^ (BitVec.ofNat 12 i).signExtend 32),
   (.sshiShl, fun a n => a <<< n),
   (.sshiShr, fun a n => a >>> n),
   (.sshiSra, fun a n => BitVec.ofInt 32 (a.toInt / 2 ^ n)),
   (.sshiRor, fun a n => a.rotateRight n),
   (.slui, fun a i => BitVec.ofNat 12 i ++ a.setWidth 20)]

/-- SADDI, SANDI, SORI, SXORI, SSHI_SHL, SSHI_SHR, SSHI_SRA, SSHI_ROR, SLUI complete with the result of R236 or R237;
LIMM puts its extension word into d and the arm goes on eight bytes later (R208, R238); SETM writes MODE[11:0] and
leaves MODE[31:12] (R239). -/
def Obligations.ScalarImmediate : Prop :=
  (∀ op ∈ Claims.scalarImm, ∀ (d a imm : Nat) (s : State), (op.1 d a imm).WellFormed →
    s.Ready (s.cur.sregs a) [.ofS s.cur.sel d] →
    ∃ t, exec (op.1 d a imm) s = .next t ∧
      t.cur.val32 (.ofS s.cur.sel d) = op.2 (s.cur.sval a) imm ∧
      s.Completes t (s.cur.sregs a) [.ofS s.cur.sel d] fun x => x.next 4) ∧
  (∀ (d value : Nat) (s : State), (Instr.limm d value).WellFormed → s.Ready [] [.ofS s.cur.sel d] →
    ∃ t, exec (.limm d value) s = .next t ∧ t.cur.val32 (.ofS s.cur.sel d) = BitVec.ofNat 32 value ∧
      s.Completes t [] [.ofS s.cur.sel d] fun x => x.next 8) ∧
  (∀ (imm : Nat) (s : State), (Instr.setm imm).WellFormed → s.Ready [] [] →
    ∃ t, exec (.setm imm) s = .next t ∧
      s.Completes t [] [] fun x =>
        { x with mode := x.mode.extractLsb' 12 20 ++ BitVec.ofNat 12 imm, pc := x.pc + 4 })

/-! ### Branches, divergence, ends (R240 to R253) -/

/-- A branch offset of n bits: 4 × SEXT(off) (R209). -/
def Sys2Proof.Claims.away (n off : Nat) : W64 := 4 * (BitVec.ofNat n off).signExtend 64

/-- BRA goes on at PC + 4 × SEXT(off); CALL does so after s58:s59 ← PC + 4 in its own bank; NOP only goes on (R240,
R251). -/
def Sys2Proof.Claims.BranchAlways : Prop :=
  (∀ (off : Nat) (s : State), (Instr.bra off).WellFormed → s.Ready [] [] →
    ∃ t, exec (.bra off) s = .next t ∧ s.Completes t [] [] fun x => { x with pc := x.pc + Claims.away 26 off }) ∧
  (∀ (off : Nat) (s : State), (Instr.call off).WellFormed → s.Ready [] [.b s.cur.sel 58, .b s.cur.sel 59] →
    ∃ t, exec (.call off) s = .next t ∧
      t.cur.val32 (.b s.cur.sel 59) ++ t.cur.val32 (.b s.cur.sel 58) = s.cur.me.pc + 4 ∧
      s.Completes t [] [.b s.cur.sel 58, .b s.cur.sel 59] fun x => { x with pc := x.pc + Claims.away 26 off }) ∧
  (∀ s : State, s.Ready [] [] → ∃ t, exec .nop s = .next t ∧ s.Completes t [] [] fun x => { x with pc := x.pc + 4 })

/-- The conditions of BRS on a scalar (R241). -/
def Sys2Proof.Claims.branchScalar : List ((Nat → Nat → Instr) × (W32 → Bool)) :=
  [(.beqz, fun x => x == 0), (.bnez, fun x => x != 0),
   (.bltz, fun x => x.getLsbD 31), (.bgez, fun x => !x.getLsbD 31)]

/-- The conditions of BRS on a predicate and the arm's mask (R241). -/
def Sys2Proof.Claims.branchPred : List ((Nat → Nat → Instr) × (Mask → Mask → Bool)) :=
  [(.bany, fun x m => (x &&& m) != 0), (.ball, fun x m => (x &&& m) == m), (.bnone, fun x m => (x &&& m) == 0)]

/-- The registers of the arm's mask, s61 to s63; a sequencer has none (R219, R253). -/
def Sys2Proof.Claims.maskRegs (g : Group) : List RegId :=
  if g.seq.isSome then [] else [.b g.sel 61, .b g.sel 62, .b g.sel 63]

/-- BEQZ, BNEZ, BLTZ, BGEZ, BANY, BALL, BNONE: taken, the arm goes on at PC + 4 × SEXT(off), else at PC + 4; nothing
else changes (R241). -/
def Sys2Proof.Claims.BranchConditional : Prop :=
  (∀ op ∈ Claims.branchScalar, ∀ (x off : Nat) (s : State), (op.1 x off).WellFormed → s.Ready (s.cur.sregs x) [] →
    ∃ t, exec (op.1 x off) s = .next t ∧ s.Completes t (s.cur.sregs x) [] fun m =>
      { m with pc := m.pc + if op.2 (s.cur.sval x) then Claims.away 16 off else 4 }) ∧
  (∀ op ∈ Claims.branchPred, ∀ (x off : Nat) (s : State), (op.1 x off).WellFormed →
    s.Ready (.p x :: Claims.maskRegs s.cur) [] →
    ∃ t, exec (op.1 x off) s = .next t ∧ s.Completes t (.p x :: Claims.maskRegs s.cur) [] fun m =>
      { m with pc := m.pc + if op.2 (s.cur.pred x) s.cur.mask then Claims.away 16 off else 4 })

/-- Uniform branches, CALL and NOP. -/
def Obligations.UniformBranches : Prop := Claims.BranchAlways ∧ Claims.BranchConditional

/-- JMPR goes to the pair or literal a, CALLR too after writing s58:s59 ← PC + 4 with a read first, RET to s58:s59;
a target whose bits [1:0] are not zero traps MISALIGN and changes nothing else (R242). -/
def Sys2Proof.Claims.RegisterTarget : Prop :=
  (∀ (a : Nat) (ea eb : Bool) (s : State), (Instr.jmpr a ea eb).WellFormed → s.Ready (s.cur.spregs a) [] →
    (s.cur.spval a).toNat % 4 = 0 →
    ∃ t, exec (.jmpr a ea eb) s = .next t ∧
      s.Completes t (s.cur.spregs a) [] fun x => { x with pc := s.cur.spval a }) ∧
  (∀ (a : Nat) (ea eb : Bool) (s : State), (Instr.callr a ea eb).WellFormed →
    s.Ready (s.cur.spregs a) [.b s.cur.sel 58, .b s.cur.sel 59] → (s.cur.spval a).toNat % 4 = 0 →
    ∃ t, exec (.callr a ea eb) s = .next t ∧
      t.cur.val32 (.b s.cur.sel 59) ++ t.cur.val32 (.b s.cur.sel 58) = s.cur.me.pc + 4 ∧
      s.Completes t (s.cur.spregs a) [.b s.cur.sel 58, .b s.cur.sel 59] fun x => { x with pc := s.cur.spval a }) ∧
  (∀ s : State, s.Ready [.b s.cur.sel 58, .b s.cur.sel 59] [] →
    (s.cur.val32 (.b s.cur.sel 58)).toNat % 4 = 0 →
    ∃ t, exec .ret s = .next t ∧ s.Completes t [.b s.cur.sel 58, .b s.cur.sel 59] [] fun x =>
      { x with pc := s.cur.val32 (.b s.cur.sel 59) ++ s.cur.val32 (.b s.cur.sel 58) }) ∧
  (∀ i ∈ [Instr.jmpr, Instr.callr], ∀ (a : Nat) (ea eb : Bool) (s : State), (i a ea eb).WellFormed →
    s.Ready (s.cur.spregs a) [.b s.cur.sel 58, .b s.cur.sel 59] → (s.cur.spval a).toNat % 4 ≠ 0 →
    s.cur.seq = none → s.TrapEntered (exec (i a ea eb) s) .misalign 2 (s.cur.spval a) 0)

/-- The lanes that BRD or BRDN takes (R244). -/
def Sys2Proof.Claims.taken (s : State) (inverted : Bool) (x : Nat) : Mask :=
  s.cur.guardMask &&& s.cur.mask &&& (if inverted then ~~~s.cur.pred x else s.cur.pred x)

/-- BRD and BRDN. No lane taken: on at PC + 4. Every lane of the mask taken: on at the target. Else, in a group whose
other arm slot is free and with an open region: a split; the other slot runs the taken lanes from the target with a
copy of s48 to s60, MODE and SRCNT and an empty stack, this arm keeps the rest and goes on; outside the group only the
region's SPLIT, where memory holds the record, and the order of what was under way change (R86). Else, with the other
slot occupied and room in the core, the taken lanes are pushed (R11, R244, R245). -/
def Obligations.DivergentBranch : Prop :=
  ∀ op ∈ [(Instr.brd, false), (Instr.brdn, true)], ∀ (x off : Nat) (s : State), (op.1 x off).WellFormed →
    let srcs := [.p x, s.cur.guardReg] ++ Claims.maskRegs s.cur
    let taken := Claims.taken s op.2 x
    let rest := s.cur.mask &&& ~~~taken
    let target := s.cur.me.pc + Claims.away 16 off
    s.Ready srcs [] →
    (taken = 0 → ∃ t, exec (op.1 x off) s = .next t ∧ s.Completes t srcs [] fun m => { m with pc := m.pc + 4 }) ∧
    (taken ≠ 0 → rest = 0 →
      ∃ t, exec (op.1 x off) s = .next t ∧ s.Completes t srcs [] fun m => { m with pc := target }) ∧
    (taken ≠ 0 → rest ≠ 0 → s.cur.seq = none → (s.openRegion s.cur s.cur.sel).isSome = true →
      (s.cur.arm (!s.cur.sel)).occ = false →
      ∃ t, exec (op.1 x off) s = .next t ∧
        t = { ((s.modRegion s.cur.sel fun r => { r with split := true }).splitOrder s.cur.tid s.cur.sel) with
          cur := t.cur } ∧
        t.cur.rest = s.cur.rest ∧ t.cur.s = s.cur.s ∧ t.cur.v = s.cur.v ∧ t.cur.p = s.cur.p ∧
        t.cur.me.mask = rest ∧ t.cur.me.pc = s.cur.me.pc + 4 ∧ t.cur.me.dstk.length = s.cur.me.dstk.length ∧
        (∀ n < 61, t.cur.val32 (.b s.cur.sel n) = s.cur.val32 (.b s.cur.sel n)) ∧
        (let b := t.cur.arm (!s.cur.sel)
         b.occ = true ∧ b.ws = .ready ∧ b.pc = target ∧ b.mask = taken ∧ b.splitOff = true ∧ b.dstk = [] ∧
         b.mode = s.cur.me.mode ∧ b.srcnt = s.cur.me.srcnt ∧
         ∀ n < 61, t.cur.val32 (.b (!s.cur.sel) n) = s.cur.val32 (.b s.cur.sel n))) ∧
    (taken ≠ 0 → rest ≠ 0 → s.cur.seq = none → (s.openRegion s.cur s.cur.sel).isSome = true →
      (s.cur.arm (!s.cur.sel)).occ = true → s.cur.me.dstk.length < 4 → s.cur.me.depth < 1024 →
      ∃ t, exec (op.1 x off) s = .next t ∧
        t.cur.me.mask = rest ∧
        s.Completes t srcs [.b s.cur.sel 61, .b s.cur.sel 62, .b s.cur.sel 63] fun m =>
          { m with pc := m.pc + 4, dstk := ⟨target, taken, true, false⟩ :: m.dstk })

/-- DIVR pushes a kind 0 record that names the closing RCV, with an empty mask and SPLIT clear, and goes on; below
four records nothing goes to memory, a fifth spills the deepest. RCV at the RCV its region names, with no split: the record is popped and the arm
goes on with the lanes of the record and its own, a record that memory holds being refilled. RCV on a stacked side: the arm takes the side's lanes and PC, and its
own lanes are gathered in the region's record. In a sequencer both are NOP (R40, R246, R247, R253). -/
def Sys2Proof.Claims.DivergenceRegion : Prop :=
  (∀ (off : Nat) (s : State), (Instr.divr off).WellFormed → s.Ready [] [] → s.cur.seq = none →
    s.cur.me.dstk.length < 4 → s.cur.me.depth < 1024 →
    ∃ t, exec (.divr off) s = .next t ∧ s.Completes t [] [] fun m =>
      { m with pc := m.pc + 4, dstk := ⟨m.pc + Claims.away 16 off, 0, false, false⟩ :: m.dstk }) ∧
  (∀ (off : Nat) (r1 r2 r3 r4 : DivRec) (s : State), (Instr.divr off).WellFormed → s.Ready [] [] → s.cur.seq = none →
    s.cur.me.dstk = [r1, r2, r3, r4] → s.cur.me.deep < 1020 →
    ∃ t, exec (.divr off) s = .next t ∧
      t = { (s.storeWords (s.cur.recAt s.cur.sel s.cur.me.deep) r4.words) with cur := t.cur } ∧
      t.cur.rest = s.cur.rest ∧ t.cur.arm (!s.cur.sel) = s.cur.arm (!s.cur.sel) ∧
      t.cur.me.dstk = [⟨s.cur.me.pc + Claims.away 16 off, 0, false, false⟩, r1, r2, r3] ∧
      t.cur.me.deep = s.cur.me.deep + 1 ∧ t.cur.me.pc = s.cur.me.pc + 4 ∧ t.cur.me.bank = s.cur.me.bank) ∧
  (∀ (m : Mask) (rest : List DivRec) (s : State), s.Ready (Claims.maskRegs s.cur) [] → s.cur.seq = none →
    s.cur.me.dstk = ⟨s.cur.me.pc, m, false, false⟩ :: rest → rest.length < 4 → s.cur.me.deep = 0 →
    ∃ t, exec .rcv s = .next t ∧ t.cur.me.mask = m ||| s.cur.me.mask ∧
      s.Completes t (Claims.maskRegs s.cur) [.b s.cur.sel 61, .b s.cur.sel 62, .b s.cur.sel 63] fun x =>
        { x with pc := x.pc + 4, dstk := rest }) ∧
  (∀ (m : Mask) (rest : List DivRec) (n : Nat) (s : State), s.Ready (Claims.maskRegs s.cur) [] → s.cur.seq = none →
    s.cur.me.dstk = ⟨s.cur.me.pc, m, false, false⟩ :: rest → s.cur.me.deep = n + 1 →
    s.damaged (s.cur.recAt s.cur.sel n) = false →
    ∃ t, exec .rcv s = .next t ∧ t.cur.me.mask = m ||| s.cur.me.mask ∧
      s.Completes t (Claims.maskRegs s.cur) [.b s.cur.sel 61, .b s.cur.sel 62, .b s.cur.sel 63] fun x =>
        { x with pc := x.pc + 4, dstk := rest ++ [readDivRec s.mem (s.cur.recAt s.cur.sel n)], deep := n }) ∧
  (∀ (pc : W64) (m m' : Mask) (at_ : W64) (split : Bool) (rest : List DivRec) (s : State),
    s.Ready (Claims.maskRegs s.cur) [] → s.cur.seq = none →
    s.cur.me.dstk = ⟨pc, m, true, false⟩ :: ⟨at_, m', false, split⟩ :: rest → rest.length < 3 → s.cur.me.deep = 0 →
    ∃ t, exec .rcv s = .next t ∧ t.cur.me.mask = m ∧
      s.Completes t (Claims.maskRegs s.cur) [.b s.cur.sel 61, .b s.cur.sel 62, .b s.cur.sel 63] fun x =>
        { x with pc := pc, dstk := ⟨at_, m' ||| s.cur.me.mask, false, split⟩ :: rest }) ∧
  (∀ (i : Instr) (s : State), (i = .rcv ∨ ∃ off, i = .divr off) → s.Ready [] [] → s.cur.seq.isSome = true →
    ∃ t, exec i s = .next t ∧ s.Completes t [] [] fun m => { m with pc := m.pc + 4 })

/-- RCV of the arm that opened a split region: it waits while the split-off arm has not arrived, with its mask
gathered in the record; once the other arm waits at the same RCV with an empty stack and no reply on its way to its
bank, the record is popped, the other slot is free, and the arm goes on with the lanes of both and follows what either issued. The split-off arm
itself waits there while the opening arm has not come (R12, R40, R41). -/
def Sys2Proof.Claims.DivergenceMerge : Prop :=
  (∀ (m : Mask) (rest : List DivRec) (s : State), s.Ready (Claims.maskRegs s.cur) [] → s.cur.seq = none →
    s.cur.me.dstk = ⟨s.cur.me.pc, m, false, true⟩ :: rest → rest.length < 4 → s.cur.me.deep = 0 →
    let o := s.cur.arm (!s.cur.sel)
    (o.ws ≠ .rcv → ∃ t, exec .rcv s = .next t ∧ t = { s with cur := t.cur } ∧ t.cur.me.ws = .rcv ∧
      t.cur.me.pc = s.cur.me.pc ∧ t.cur.me.bank = s.cur.me.bank ∧
      t.cur.me.dstk = ⟨s.cur.me.pc, m ||| s.cur.me.mask, false, true⟩ :: rest ∧ t.cur.arm (!s.cur.sel) = o) ∧
    (o.occ = true → o.splitOff = true → o.ws = .rcv → o.pc = s.cur.me.pc → o.dstk = [] →
      (∀ n, RegId.b (!s.cur.sel) n ∉ s.cur.pend) →
      ∃ t, exec .rcv s = .next t ∧ t = { (s.mergeOrder s.cur.tid s.cur.sel) with cur := t.cur } ∧
        t.cur.s = s.cur.s ∧ t.cur.v = s.cur.v ∧ t.cur.p = s.cur.p ∧ t.cur.me.mask = m ||| s.cur.me.mask ||| o.mask ∧ t.cur.me.pc = s.cur.me.pc + 4 ∧
        t.cur.me.ws = .ready ∧ t.cur.me.dstk = rest ∧ (t.cur.arm (!s.cur.sel)).occ = false ∧
        t.cur.me.mode = s.cur.me.mode ∧
        t.cur.me.srcnt.toNat = max s.cur.me.srcnt.toNat o.srcnt.toNat)) ∧
  (∀ (m : Mask) (rest : List DivRec) (s : State), s.Ready (Claims.maskRegs s.cur) [] → s.cur.seq = none →
    s.cur.me.dstk = [] → s.cur.me.deep = 0 → s.cur.me.splitOff = true →
    (s.cur.arm (!s.cur.sel)).dstk = ⟨s.cur.me.pc, m, false, true⟩ :: rest → (s.cur.arm (!s.cur.sel)).ws ≠ .rcv →
    ∃ t, exec .rcv s = .next t ∧ t = { s with cur := t.cur } ∧ t.cur.me.ws = .rcv ∧ t.cur.me.pc = s.cur.me.pc ∧
      t.cur.me.bank = s.cur.me.bank ∧ t.cur.arm (!s.cur.sel) = s.cur.arm (!s.cur.sel))

/-- The divergence stack: DIVR and RCV, with and without a split. -/
def Obligations.DivergenceStack : Prop := Claims.DivergenceRegion ∧ Claims.DivergenceMerge

/-- YLD releases a group's arm, which waits with its continuation PC set to the target and all else unchanged (R248).
EXIT of a group stops it with its exit value and discards its other arm, with a WSLOAD or a TAKE of that arm that waits, no
contribution of the group being in the atomic buffer; its end follows (R249). EXIT of a sequencer ends its routine once its operations have ended (R253). -/
def Sys2Proof.Claims.YieldExit : Prop :=
  (∀ (off : Nat) (s : State), (Instr.yld off).WellFormed → s.Ready [] [] → s.cur.seq = none →
    ∃ t, exec (.yld off) s = .next t ∧ t = { s with cur := t.cur } ∧ t.cur.rest = s.cur.rest ∧
      t.cur.s = s.cur.s ∧ t.cur.v = s.cur.v ∧ t.cur.p = s.cur.p ∧ t.cur.arm (!s.cur.sel) = s.cur.arm (!s.cur.sel) ∧
      t.cur.me.ws = .yld ∧ t.cur.me.pc = s.cur.me.pc + Claims.away 16 off ∧ t.cur.me.bank = s.cur.me.bank ∧
      t.cur.me.bfull = s.cur.me.bfull ∧ t.cur.me.mode = s.cur.me.mode ∧ t.cur.me.dstk = s.cur.me.dstk) ∧
  (∀ (a : Nat) (ea eb : Bool) (s : State), (Instr.exit a ea eb).WellFormed → s.Ready (s.cur.sregs a) [] →
    s.cur.seq = none → (∀ c ∈ s.abuf, c.who.tid ≠ s.cur.tid) →
    ∃ t, exec (.exit a ea eb) s = .next t ∧
      t = { s with
        cur := { s.cur.mapArm (!s.cur.sel) (fun _ => .free) with exiting := some (s.cur.sval a) }
        flight := t.flight, stageqs := t.stageqs } ∧
      (∀ f, f ∈ t.flight ↔ f ∈ s.flight ∧ ∀ die off src ps, f ≠ .wsload s.cur.tid (!s.cur.sel) die off src ps) ∧
      t.stageqs = s.stageqs.map fun q =>
        { q with waiting := q.waiting.filter fun x => decide (¬ (x.1 = s.cur.tid ∧ x.2.1 = !s.cur.sel)) }) ∧
  (∀ (a : Nat) (ea eb : Bool) (s : State) (cl : Nat), (Instr.exit a ea eb).WellFormed → s.Ready (s.cur.sregs a) [] →
    s.cur.seq = some cl →
    ∃ t, exec (.exit a ea eb) s = .next t ∧ t = { s with clusters := t.clusters } ∧
      t.clusters.length = s.clusters.length ∧ (∀ k, k ≠ cl → t.cluster k = s.cluster k) ∧
      (cl < s.clusters.length → t.cluster cl = { s.cluster cl with ending := true }))

/-- Branches to a register, YLD and EXIT. -/
def Obligations.JumpYieldExit : Prop := Claims.RegisterTarget ∧ Claims.YieldExit

/-- TRAP: a SOFT trap with the operand in TINFO, and as any trap with no other effect (R428). BKPT outside a region that fradb is attached to: a BREAK trap. A
reserved encoding: an ILLEGAL trap with the word in TINFO (R225, R250, R363). -/
def Sys2Proof.Claims.TrapEntry : Prop :=
  (∀ (a : Nat) (ea eb : Bool) (s : State), (Instr.trap a ea eb).WellFormed → s.Ready (s.cur.sregs a) [] →
    s.cur.seq = none →
    s.TrapEntered (exec (.trap a ea eb) s) .soft 0 0 (s.cur.sval a)) ∧
  (∀ s : State, s.Ready [] [] → s.cur.seq = none → s.cur.region ∉ s.fradb.attached →
    s.TrapEntered (exec .bkpt s) .brk 0 0 0) ∧
  (∀ (w d : Nat) (s : State), s.Ready [] [] → s.cur.seq = none → s.cur.tid ≠ 0 → s.ev = [w, d] →
    s.TrapEntered (exec .reservedEncoding s) .illegal d 0 (w32 w))

/-! ### Vectors and predicates (R254 to R277) -/

/-- The implicit sources of a lane instruction: the mask registers and the guard (R219). -/
def Sys2Proof.Claims.laneRegs (g : Group) : List RegId := [.b g.sel 61, .b g.sel 62, .b g.sel 63, g.guardReg]

/-- d holds, in each lane that takes part, what f says of each element; every other lane of d is as before; d has the
tag (R219, R255). -/
def Sys2Proof.Claims.LanesOf (s t : State) (d et : Nat) (f : Nat → Nat → Nat → Prop) : Prop :=
  (∀ k < 96, if s.cur.active.getLsbD k then ∀ j < etElems et, f k j (elemOf et (t.cur.lane d k) j)
    else t.cur.lane d k = s.cur.lane d k) ∧ t.cur.tag d = et

/-- The registers may be sources under ET: each is tagged ET or RAW32 (R131). -/
def Sys2Proof.Claims.Tagged (g : Group) (rs : List Nat) : Prop := ∀ n ∈ rs, g.tag n = g.et ∨ g.tag n = 0

/-- An exact integer brought into the range of a type: clamped under SAT, else the number of the range that is
congruent to it modulo 2^w (R134, R258). -/
def Sys2Proof.Claims.bring (et : Nat) (sat : Bool) (x : Int) : Int :=
  let w := etWidth et
  let lo : Int := if et = 2 ∨ et = 5 then 0 else -(2 ^ (w - 1))
  if sat then max lo (min (lo + 2 ^ w - 1) x) else lo + (x - lo) % 2 ^ w

/-- The exact results of VARITH, from the values of the elements of a, b and the old d (R258). -/
def Sys2Proof.Claims.varith : List (Claims.Mk5 × Bool × (Nat → Int → Int → Int → Int)) :=
  [(.vadd, false, fun _ a b _ => a + b), (.vsub, false, fun _ a b _ => a - b), (.vmul, false, fun _ a b _ => a * b),
   (.vmulh, false, fun w a b _ => a * b / 2 ^ w), (.vmad, true, fun _ a b d => a * b + d),
   (.vmin, false, fun _ a b _ => min a b), (.vmax, false, fun _ a b _ => max a b),
   (.vabsd, false, fun _ a b _ => |a - b|)]

/-- VADD, VSUB, VMUL, VMULH, VMAD, VMIN, VMAX, VABSD under an integer ET: every element of every lane that takes part is
the exact result brought into range (R254, R255, R258). -/
def Sys2Proof.Claims.VectorInteger : Prop :=
  ∀ op ∈ Claims.varith, ∀ (d a b : Nat) (ea eb : Bool) (s : State), (op.1 d a b ea eb).WellFormed →
    let srcs := (if op.2.1 then [.v d] else []) ++ [.v a, .v b] ++ Claims.laneRegs s.cur
    s.Ready srcs [.v d] → s.cur.seq = none → (∀ n ∈ [d, a, b], n < s.cur.vregs) → s.cur.et < 6 →
    Claims.Tagged s.cur ((if op.2.1 then [d] else []) ++ [a, b]) →
    ∃ t, exec (op.1 d a b ea eb) s = .next t ∧
      (let v (n k j : Nat) : Int := intVal s.cur.et (elemOf s.cur.et (s.cur.lane n k) j)
       Claims.LanesOf s t d s.cur.et fun k j x =>
        intVal s.cur.et x = Claims.bring s.cur.et s.cur.sat (op.2.2 (etWidth s.cur.et) (v a k j) (v b k j) (v d k j))) ∧
      s.Completes t srcs [.v d] fun m => m.next 4

/-- The bit operations of VLOGIC on elements of w bits (R259). -/
def Sys2Proof.Claims.vlogic : List (Claims.Mk5 × Bool × (Nat → Nat → Nat → Nat → Nat)) :=
  [(.vand, false, fun _ a b _ => a &&& b), (.vor, false, fun _ a b _ => a ||| b), (.vxor, false, fun _ a b _ => a ^^^ b),
   (.vshl, false, fun w a b _ => a <<< (b % w) % 2 ^ w), (.vshr, false, fun w a b _ => a >>> (b % w)),
   (.vsra, false, fun w a b _ => (((BitVec.ofNat w a).sshiftRight (b % w)).toNat)),
   (.vsel, true, fun w a b d => (d &&& a) ||| ((d ^^^ (2 ^ w - 1)) &&& b))]

/-- The element operations of VUNARY and VMOV: whether the tag of a is checked, and what the result is to a, under the
type, SAT, and elements of w bits (R259, R260). -/
def Sys2Proof.Claims.vunary :
    List ((Nat → Nat → Bool → Bool → Instr) × Bool × (Nat → Bool → Nat → Nat → Nat → Prop)) :=
  [(.vmov, false, fun _ _ _ a x => x = a),
   (.vnot, false, fun _ _ w a x => x + a = 2 ^ w - 1),
   (.vneg, true, fun et sat w a x => if etFloat et then x = a ^^^ 2 ^ (w - 1)
      else intVal et x = Claims.bring et sat (-(intVal et a))),
   (.vabs, true, fun et sat w a x => if etFloat et then x = a % 2 ^ (w - 1)
      else intVal et x = Claims.bring et sat |intVal et a|),
   (.vclz, false, fun _ _ w a x => x ≤ w ∧ (∀ i < x, a.testBit (w - 1 - i) = false) ∧ (x < w → a.testBit (w - 1 - x) = true)),
   (.vpopc, false, fun _ _ w a x => x = (List.range w).countP fun i => a.testBit i),
   (.vbrev, false, fun _ _ w a x => ∀ i < w, x.testBit i = a.testBit (w - 1 - i))]

/-- VAND, VOR, VXOR, VSHL, VSHR, VSRA, VSEL, VMOV, VNOT, VNEG, VABS, VCLZ, VPOPC, VBREV complete under every ET but I64
with the element results of R259 and R260. -/
def Sys2Proof.Claims.VectorBits : Prop :=
  (∀ op ∈ Claims.vlogic, ∀ (d a b : Nat) (ea eb : Bool) (s : State), (op.1 d a b ea eb).WellFormed →
    let srcs := (if op.2.1 then [.v d] else []) ++ [.v a, .v b] ++ Claims.laneRegs s.cur
    s.Ready srcs [.v d] → s.cur.seq = none → (∀ n ∈ [d, a, b], n < s.cur.vregs) → s.cur.et < 11 →
    ∃ t, exec (op.1 d a b ea eb) s = .next t ∧
      (let v (n k j : Nat) : Nat := elemOf s.cur.et (s.cur.lane n k) j
       Claims.LanesOf s t d s.cur.et fun k j x => x = op.2.2 (etWidth s.cur.et) (v a k j) (v b k j) (v d k j)) ∧
      s.Completes t srcs [.v d] fun m => m.next 4) ∧
  (∀ op ∈ Claims.vunary, ∀ (d a : Nat) (ea eb : Bool) (s : State), (op.1 d a ea eb).WellFormed →
    let srcs := [.v a] ++ Claims.laneRegs s.cur
    s.Ready srcs [.v d] → s.cur.seq = none → (∀ n ∈ [d, a], n < s.cur.vregs) → s.cur.et < 11 →
    (op.2.1 = true → Claims.Tagged s.cur [a]) →
    ∃ t, exec (op.1 d a ea eb) s = .next t ∧
      Claims.LanesOf s t d s.cur.et (fun k j x =>
        op.2.2 s.cur.et s.cur.sat (etWidth s.cur.et) (elemOf s.cur.et (s.cur.lane a k) j) x) ∧
      s.Completes t srcs [.v d] fun m => m.next 4)

/-- Integer and bitwise vector arithmetic. -/
def Obligations.VectorIntegerBits : Prop := Claims.VectorInteger ∧ Claims.VectorBits

/-- The conditions of VCMP, on the values of the elements (R261). -/
def Sys2Proof.Claims.vcmp : List (Claims.Mk5 × (Int → Int → Prop)) :=
  [(.vcmpEq, fun a b => a = b), (.vcmpNe, fun a b => a ≠ b), (.vcmpLt, fun a b => a < b),
   (.vcmpLe, fun a b => a ≤ b), (.vcmpGt, fun a b => a > b), (.vcmpGe, fun a b => a ≥ b)]

/-- The conditions of VFCMP, on the sign of the difference of the values; none when either is NaN (R261). -/
def Sys2Proof.Claims.vfcmp : List (Claims.Mk5 × (Option Int → Prop)) :=
  [(.vfcmpEq, fun r => r = some 0), (.vfcmpNe, fun r => r ≠ some 0), (.vfcmpLt, fun r => ∃ x < 0, r = some x),
   (.vfcmpLe, fun r => ∃ x ≤ 0, r = some x), (.vfcmpGt, fun r => ∃ x > 0, r = some x),
   (.vfcmpGe, fun r => ∃ x ≥ 0, r = some x), (.vfcmpUn, fun r => r = none), (.vfcmpOr, fun r => r ≠ none)]

/-- VCMP EQ, NE, LT, LE, GT, GE and VFCMP EQ, NE, LT, LE, GT, GE, UN, OR: bit k of pd is, for each lane that takes part,
whether the condition holds of every element, and as before for the others; no tag changes (R261). -/
def Obligations.VectorCompare : Prop :=
  (∀ op ∈ Claims.vcmp, ∀ (d a b : Nat) (ea eb : Bool) (s : State), (op.1 d a b ea eb).WellFormed →
    let srcs := [.v a, .v b] ++ Claims.laneRegs s.cur
    s.Ready srcs [.p d] → s.cur.seq = none → (∀ n ∈ [a, b], n < s.cur.vregs) → s.cur.et < 6 →
    Claims.Tagged s.cur [a, b] →
    ∃ t, exec (op.1 d a b ea eb) s = .next t ∧
      (∀ k < 96, (t.cur.pred d).getLsbD k = true ↔
        if s.cur.active.getLsbD k then ∀ j < etElems s.cur.et,
          op.2 (intVal s.cur.et (elemOf s.cur.et (s.cur.lane a k) j)) (intVal s.cur.et (elemOf s.cur.et (s.cur.lane b k) j))
        else (s.cur.pred d).getLsbD k = true) ∧
      s.Completes t srcs [.p d] fun m => m.next 4) ∧
  (∀ op ∈ Claims.vfcmp, ∀ (d a b : Nat) (ea eb : Bool) (s : State), (op.1 d a b ea eb).WellFormed →
    let srcs := [.v a, .v b] ++ Claims.laneRegs s.cur
    s.Ready srcs [.p d] → s.cur.seq = none → (∀ n ∈ [a, b], n < s.cur.vregs) → s.cur.et ∈ [6, 7, 8, 9, 10] →
    Claims.Tagged s.cur [a, b] →
    ∃ t, exec (op.1 d a b ea eb) s = .next t ∧
      (∀ k < 96, (t.cur.pred d).getLsbD k = true ↔
        if s.cur.active.getLsbD k then ∀ j < etElems s.cur.et,
          op.2 ((fmtOf s.cur.et).compare (elemOf s.cur.et (s.cur.lane a k) j) (elemOf s.cur.et (s.cur.lane b k) j))
        else (s.cur.pred d).getLsbD k = true) ∧
      s.Completes t srcs [.p d] fun m => m.next 4)

/-- SRCNT after an instruction that rounds: one more under SR (R133). -/
def Sys2Proof.Claims.rounded (g : Group) (rounds : Bool) (m : Arm) : Arm :=
  { m with pc := m.pc + 4, srcnt := if rounds = true ∧ g.rm = 5 then m.srcnt + 1 else m.srcnt }

/-- The floating operations of VFLOAT; whether d is a source, and whether it rounds (R262, R263). -/
def Sys2Proof.Claims.vfloat : List (Claims.Mk5 × Bool × Bool × (Fmt → RCtx → Nat → Nat → Nat → Nat)) :=
  [(.vfadd, false, true, fun f c a b _ => f.fadd c a b), (.vfsub, false, true, fun f c a b _ => f.fsub c a b),
   (.vfmul, false, true, fun f c a b _ => f.fmul c a b), (.vfma, true, true, fun f c a b d => f.fma c a b d),
   (.vfmin, false, false, fun f _ a b _ => f.fmin a b), (.vfmax, false, false, fun f _ a b _ => f.fmax a b),
   (.vfscale, false, true, fun f c a b _ => f.fscale c a b)]

/-- VFADD, VFSUB, VFMUL, VFMA, VFMIN, VFMAX, VFSCALE element by element in ET's format, and VDOT, which sums a lane's
products and the FP32 element of d into FP32; one rounding by RM, and under SR one more of SRCNT (R133, R262, R263,
R264). -/
def Obligations.VectorFloat : Prop :=
  (∀ op ∈ Claims.vfloat, ∀ (d a b : Nat) (ea eb : Bool) (s : State), (op.1 d a b ea eb).WellFormed →
    let srcs := (if op.2.1 then [.v d] else []) ++ [.v a, .v b] ++ Claims.laneRegs s.cur
    s.Ready srcs [.v d] → s.cur.seq = none → (∀ n ∈ [d, a, b], n < s.cur.vregs) → s.cur.et ∈ [6, 7, 8, 9, 10] →
    (op.2.2.1 = true → s.cur.rm < 6) → Claims.Tagged s.cur ((if op.2.1 then [d] else []) ++ [a, b]) →
    ∃ t, exec (op.1 d a b ea eb) s = .next t ∧
      (let v (n k j : Nat) : Nat := elemOf s.cur.et (s.cur.lane n k) j
       Claims.LanesOf s t d s.cur.et fun k j x =>
        x = op.2.2.2 (fmtOf s.cur.et) (s.cur.rctx s.cur.et 0 k j) (v a k j) (v b k j) (v d k j) % 2 ^ etWidth s.cur.et) ∧
      s.Completes t srcs [.v d] (Claims.rounded s.cur op.2.2.1)) ∧
  (∀ (d a b : Nat) (ea eb : Bool) (s : State), (Instr.vdot d a b ea eb).WellFormed →
    let srcs := [.v d, .v a, .v b] ++ Claims.laneRegs s.cur
    s.Ready srcs [.v d] → s.cur.seq = none → (∀ n ∈ [d, a, b], n < s.cur.vregs) → s.cur.et ∈ [7, 8, 9, 10] →
    s.cur.rm < 6 → Claims.Tagged s.cur [a, b] → (s.cur.tag d = 6 ∨ s.cur.tag d = 0) →
    ∃ t, exec (.vdot d a b ea eb) s = .next t ∧
      Claims.LanesOf s t d 6 (fun k _ x =>
        x = dotLane s.cur.et (s.cur.rctx 6 0 k 0) (s.cur.lane a k) (s.cur.lane b k) (s.cur.lane d k) % 2 ^ 32) ∧
      s.Completes t srcs [.v d] (Claims.rounded s.cur true))

/-- The special functions (R265). -/
def Sys2Proof.Claims.vsfu : List ((Nat → Nat → Bool → Bool → Instr) × SfuFn) :=
  [(.vrcp, .rcp), (.vrsq, .rsq), (.vsqrt, .sqrt), (.vexp2, .exp2), (.vlog2, .log2), (.vsin, .sin), (.vcos, .cos),
   (.vtanh, .tanh)]

/-- VRCP, VRSQ, VSQRT, VEXP2, VLOG2, VSIN, VCOS, VTANH issue and go on; v(d) is empty with a producer outstanding until
VSFU_COMPLETE, to which go the values formed from a as it stood at issue, for the lanes that took part (R217, R256,
R265). -/
def Sys2Proof.Claims.VectorSpecial : Prop :=
  ∀ op ∈ Claims.vsfu, ∀ (d a : Nat) (ea eb : Bool) (s : State), (op.1 d a ea eb).WellFormed →
    let srcs := [.v a] ++ Claims.laneRegs s.cur
    s.Ready srcs [.v d] → s.cur.seq = none → (∀ n ∈ [d, a], n < s.cur.vregs) →
    s.cur.et ∈ [6, 7, 8] → (op.2 = .sqrt → s.cur.rm < 6) → Claims.Tagged s.cur [a] →
    ∃ t xs, exec (op.1 d a ea eb) s = .next t ∧
      (∀ k < 96, s.cur.active.getLsbD k = true → ∀ j < etElems s.cur.et,
        elemOf s.cur.et (xs.getD k 0) j = op.2.eval (fmtOf s.cur.et) (s.cur.rctx s.cur.et 0 k j)
          (elemOf s.cur.et (s.cur.lane a k) j) % 2 ^ etWidth s.cur.et) ∧
      s.Departs t srcs [.v d] [.sfu s.cur.tid [.lanes d s.cur.active xs s.cur.et]]
        (Claims.rounded s.cur (decide (op.2 = .sqrt)))

/-- A source element list: v(n)'s elements in a lane, each with the type the register's tag gives it (R10, R267). -/
def Sys2Proof.Claims.elems (g : Group) (n k : Nat) : List (Nat × Nat) :=
  (List.range (etElems (g.stype n))).map fun j => (g.stype n, elemOf (g.stype n) (g.lane n k) j)

/-- The element of a conversion from element j of a list; +0 beyond it (R268). -/
def Sys2Proof.Claims.pick (l : List (Nat × Nat)) (j : Nat) (f : Nat → Nat → Nat) : Nat :=
  match l[j]? with
  | some x => f x.1 x.2
  | none => 0

/-- A conversion between the types forms results by rounding: into or from a floating type, no bit copy (R133, R267). -/
def Sys2Proof.Claims.rounds (et src : Nat) : Bool := et != 0 && et != src && (etFloat et || etFloat src)

/-- Conversions of one register: VCVT and VUNPKL from its first elements, VUNPKH from the upper half, VRND to an integral
value (R268, R271). -/
def Sys2Proof.Claims.vconv : List ((Nat → Nat → Bool → Bool → Instr) × Bool × (Nat → Nat → Bool) × (RCtx → Nat → Nat → Nat → Nat)) :=
  [(.vcvt, false, Claims.rounds, fun c src et x => convert c src et x),
   (.vunpkl, false, Claims.rounds, fun c src et x => convert c src et x),
   (.vunpkh, true, Claims.rounds, fun c src et x => convert c src et x),
   (.vrnd, false, fun et src => et != 0 && (etFloat et || etFloat src), fun c src et x => roundElem c src et x)]

/-- VCVT, VUNPKL, VUNPKH, VRND, VPACK, VQNT, VDQNT, VFCLASS complete with their element results; the destination is
tagged ET, that of VDQNT, one register an element of a, FP32 (R267 to R271). -/
def Sys2Proof.Claims.VectorConvert : Prop :=
  (∀ op ∈ Claims.vconv, ∀ (d a : Nat) (ea eb : Bool) (s : State), (op.1 d a ea eb).WellFormed →
    let srcs := [.v a] ++ Claims.laneRegs s.cur
    s.Ready srcs [.v d] → s.cur.seq = none → (∀ n ∈ [d, a], n < s.cur.vregs) → s.cur.et < 11 → s.cur.rm < 6 →
    s.cur.tag a < 12 →
    ∃ t, exec (op.1 d a ea eb) s = .next t ∧
      Claims.LanesOf s t d s.cur.et (fun k j x =>
        x = Claims.pick ((Claims.elems s.cur a k).drop (if op.2.1 then etElems (s.cur.stype a) / 2 else 0)) j
          (fun src y => op.2.2.2 (s.cur.rctx s.cur.et 0 k j) src s.cur.et y) % 2 ^ etWidth s.cur.et) ∧
      s.Completes t srcs [.v d] (Claims.rounded s.cur (op.2.2.1 s.cur.et (s.cur.stype a)))) ∧
  (∀ (d a b : Nat) (ea eb : Bool) (s : State), (Instr.vpack d a b ea eb).WellFormed →
    let srcs := [.v a, .v b] ++ Claims.laneRegs s.cur
    s.Ready srcs [.v d] → s.cur.seq = none → (∀ n ∈ [d, a, b], n < s.cur.vregs) → s.cur.et < 11 → s.cur.rm < 6 →
    s.cur.tag a < 12 → s.cur.tag b < 12 →
    ∃ t, exec (.vpack d a b ea eb) s = .next t ∧
      Claims.LanesOf s t d s.cur.et (fun k j x =>
        x = Claims.pick (Claims.elems s.cur a k ++ Claims.elems s.cur b k) j
          (fun src y => convert (s.cur.rctx s.cur.et 0 k j) src s.cur.et y) % 2 ^ etWidth s.cur.et) ∧
      s.Completes t srcs [.v d] (Claims.rounded s.cur
        (Claims.rounds s.cur.et (s.cur.stype a) ||
          (decide (etElems (s.cur.stype a) < etElems s.cur.et) && Claims.rounds s.cur.et (s.cur.stype b))))) ∧
  (∀ (d a b : Nat) (ea eb : Bool) (s : State), (Instr.vqnt d a b ea eb).WellFormed →
    let n := max 1 (etElems s.cur.et / etElems (s.cur.stype a))
    let group := (List.range n).map fun i => a + i
    let srcs := group.map .v ++ s.cur.sregs b ++ Claims.laneRegs s.cur
    s.Ready srcs [.v d] → s.cur.seq = none → (∀ m ∈ d :: group, m < s.cur.vregs) → s.cur.et < 11 → s.cur.rm < 6 →
    (∀ m ∈ group, s.cur.tag m < 12) →
    ∃ t, exec (.vqnt d a b ea eb) s = .next t ∧
      Claims.LanesOf s t d s.cur.et (fun k j x =>
        let m := a + j / etElems (s.cur.stype a)
        x = scaled (s.cur.rctx s.cur.et 0 k j) (s.cur.stype m) s.cur.et
          (elemOf (s.cur.stype m) (s.cur.lane m k) (j % etElems (s.cur.stype a))) (s.cur.sval b).toNat
          % 2 ^ etWidth s.cur.et) ∧
      s.Completes t srcs [.v d] (Claims.rounded s.cur true)) ∧
  (∀ (d a b : Nat) (ea eb : Bool) (s : State), (Instr.vdqnt d a b ea eb).WellFormed →
    let n := etElems (s.cur.stype a)
    let group := (List.range n).map fun i => d + i
    let srcs := [.v a] ++ s.cur.sregs b ++ Claims.laneRegs s.cur
    s.Ready srcs (group.map .v) → s.cur.seq = none → (∀ m ∈ a :: group, m < s.cur.vregs) → d + n ≤ 128 →
    s.cur.et = 6 → s.cur.rm < 6 → s.cur.tag a < 12 →
    ∃ t, exec (.vdqnt d a b ea eb) s = .next t ∧
      (∀ i < n, Claims.LanesOf s t (d + i) 6 fun k _ x =>
        x = scaled (s.cur.rctx 6 0 k 0) (s.cur.stype a) 6 (elemOf (s.cur.stype a) (s.cur.lane a k) i)
          (s.cur.sval b).toNat % 2 ^ 32) ∧
      s.Completes t srcs (group.map .v) (Claims.rounded s.cur true)) ∧
  (∀ (d a : Nat) (ea eb : Bool) (s : State), (Instr.vfclass d a ea eb).WellFormed →
    let srcs := [.v a] ++ Claims.laneRegs s.cur
    s.Ready srcs [.v d] → s.cur.seq = none → (∀ n ∈ [d, a], n < s.cur.vregs) → s.cur.et ∈ [6, 7, 8, 9, 10] →
    Claims.Tagged s.cur [a] →
    ∃ t, exec (.vfclass d a ea eb) s = .next t ∧
      Claims.LanesOf s t d s.cur.et (fun k j x =>
        x = (fmtOf s.cur.et).classify (elemOf s.cur.et (s.cur.lane a k) j)) ∧
      s.Completes t srcs [.v d] fun m => m.next 4)

/-- Special functions and conversions. The bits of a special function within the bounds of R265 are a free value (log 7).
Which conversions take a value of SRCNT under SR (Claims.rounds: one into or from a floating type, and none between integer
types) is the model's reading beside R133, a DESIGN CHOICE (log 7). -/
def Obligations.VectorSpecialConvert : Prop := Claims.VectorSpecial ∧ Claims.VectorConvert

/-- The lanes that take part, in ascending order. -/
def Sys2Proof.Claims.part (g : Group) : List Nat := (List.range 96).filter fun k => g.active.getLsbD k

/-- VSHUF, VROT, VRDL, VWRL, VLANE, VBCAST, VBALLOT, VCOMPACT: cross-lane sources are read whether or not they take part,
lanes are written only where they do; VRDL writes its scalar whatever the mask holds (R255, R260, R272, R274). -/
def Sys2Proof.Claims.VectorLanes : Prop :=
  (∀ (d a b : Nat) (ea eb : Bool) (s : State), (Instr.vshuf d a b ea eb).WellFormed →
    let srcs := [.v a, .v b] ++ Claims.laneRegs s.cur
    s.Ready srcs [.v d] → s.cur.seq = none → (∀ n ∈ [d, a, b], n < s.cur.vregs) → s.cur.et < 11 →
    Claims.Tagged s.cur [a, b] →
    ∃ t, exec (.vshuf d a b ea eb) s = .next t ∧ t.cur.tag d = s.cur.et ∧
      (∀ k < 96, t.cur.lane d k = if s.cur.active.getLsbD k then
        (if (s.cur.lane b k).toNat < 96 then s.cur.lane a (s.cur.lane b k).toNat else 0) else s.cur.lane d k) ∧
      s.Completes t srcs [.v d] fun m => m.next 4) ∧
  (∀ (d a b : Nat) (ea eb : Bool) (s : State), (Instr.vrot d a b ea eb).WellFormed →
    let srcs := [.v a] ++ s.cur.sregs b ++ Claims.laneRegs s.cur
    s.Ready srcs [.v d] → s.cur.seq = none → (∀ n ∈ [d, a], n < s.cur.vregs) → s.cur.et < 11 →
    Claims.Tagged s.cur [a] →
    ∃ t, exec (.vrot d a b ea eb) s = .next t ∧ t.cur.tag d = s.cur.et ∧
      (∀ k < 96, t.cur.lane d k = if s.cur.active.getLsbD k then
        s.cur.lane a ((k + (s.cur.sval b).toNat) % 96) else s.cur.lane d k) ∧
      s.Completes t srcs [.v d] fun m => m.next 4) ∧
  (∀ (d a b : Nat) (ea eb : Bool) (s : State), (Instr.vrdl d a b ea eb).WellFormed →
    let srcs := [.v a] ++ s.cur.sregs b ++ Claims.laneRegs s.cur
    s.Ready srcs [.ofS s.cur.sel d] → s.cur.seq = none → a < s.cur.vregs → s.cur.et < 11 → Claims.Tagged s.cur [a] →
    ∃ t, exec (.vrdl d a b ea eb) s = .next t ∧
      t.cur.val32 (.ofS s.cur.sel d) =
        (if (s.cur.sval b).toNat < 96 then s.cur.lane a (s.cur.sval b).toNat else 0) ∧
      s.Completes t srcs [.ofS s.cur.sel d] fun m => m.next 4) ∧
  (∀ (d a b : Nat) (ea eb : Bool) (s : State), (Instr.vwrl d a b ea eb).WellFormed →
    let srcs := s.cur.sregs a ++ s.cur.sregs b ++ Claims.laneRegs s.cur
    s.Ready srcs [.v d] → s.cur.seq = none → d < s.cur.vregs → s.cur.et < 11 →
    ∃ t, exec (.vwrl d a b ea eb) s = .next t ∧ t.cur.tag d = s.cur.et ∧
      (∀ k < 96, t.cur.lane d k = if s.cur.active.getLsbD k = true ∧ (s.cur.sval b).toNat = k then s.cur.sval a
        else s.cur.lane d k) ∧
      s.Completes t srcs [.v d] fun m => m.next 4) ∧
  (∀ (d : Nat) (ea eb : Bool) (s : State), (Instr.vlane d ea eb).WellFormed →
    let fp8 := decide (s.cur.et = 9 ∨ s.cur.et = 10)
    s.Ready (Claims.laneRegs s.cur) [.v d] → s.cur.seq = none → d < s.cur.vregs → s.cur.et < 11 →
    (fp8 = true → s.cur.rm < 6) →
    ∃ t, exec (.vlane d ea eb) s = .next t ∧
      Claims.LanesOf s t d s.cur.et (fun k j x =>
        x = convert (s.cur.rctx s.cur.et 0 k j) 1 s.cur.et k % 2 ^ etWidth s.cur.et) ∧
      s.Completes t (Claims.laneRegs s.cur) [.v d] (Claims.rounded s.cur fp8)) ∧
  (∀ (d a : Nat) (ea eb : Bool) (s : State), (Instr.vbcast d a ea eb).WellFormed →
    let srcs := s.cur.sregs a ++ Claims.laneRegs s.cur
    s.Ready srcs [.v d] → s.cur.seq = none → d < s.cur.vregs → s.cur.et < 11 →
    ∃ t, exec (.vbcast d a ea eb) s = .next t ∧ t.cur.tag d = s.cur.et ∧
      (∀ k < 96, t.cur.lane d k = if s.cur.active.getLsbD k then s.cur.sval a else s.cur.lane d k) ∧
      s.Completes t srcs [.v d] fun m => m.next 4) ∧
  (∀ (d a : Nat) (ea eb : Bool) (s : State), (Instr.vballot d a ea eb).WellFormed →
    let srcs := [.v a] ++ Claims.laneRegs s.cur
    s.Ready srcs [.p d] → s.cur.seq = none → a < s.cur.vregs → s.cur.et < 11 → Claims.Tagged s.cur [a] →
    ∃ t, exec (.vballot d a ea eb) s = .next t ∧
      (∀ k < 96, (t.cur.pred d).getLsbD k =
        if s.cur.active.getLsbD k then decide (s.cur.lane a k ≠ 0) else (s.cur.pred d).getLsbD k) ∧
      s.Completes t srcs [.p d] fun m => m.next 4) ∧
  (∀ (d a b : Nat) (ea eb : Bool) (s : State), (Instr.vcompact d a b ea eb).WellFormed →
    let srcs := [.v a, .p b] ++ Claims.laneRegs s.cur
    let chosen := (Claims.part s.cur).filter fun k => (s.cur.pred b).getLsbD k
    s.Ready srcs [.v d] → s.cur.seq = none → (∀ n ∈ [d, a], n < s.cur.vregs) → s.cur.et < 11 →
    Claims.Tagged s.cur [a] →
    ∃ t, exec (.vcompact d a b ea eb) s = .next t ∧ t.cur.tag d = s.cur.et ∧
      (∀ i k : Nat, (Claims.part s.cur)[i]? = some k →
        t.cur.lane d k = match chosen[i]? with
          | some j => s.cur.lane a j
          | none => s.cur.lane d k) ∧
      (∀ k < 96, s.cur.active.getLsbD k = false → t.cur.lane d k = s.cur.lane d k) ∧
      s.Completes t srcs [.v d] fun m => m.next 4)

/-- VRED and VSCAN under an integer ET: the exact sum of the elements of the lanes that take part, for VSCAN of those up
to the lane, brought into range (R273). Under a floating ET: the one rounded sum that SUM of R142 gives. -/
def Sys2Proof.Claims.VectorReduce : Prop :=
  (∀ (d a : Nat) (ea eb : Bool) (s : State), (Instr.vred d a ea eb).WellFormed →
    let srcs := [.v a] ++ Claims.laneRegs s.cur
    let et := s.cur.et
    s.Ready srcs [.ofS s.cur.sel d] → s.cur.seq = none → a < s.cur.vregs → et < 11 → s.cur.rm < 6 →
    Claims.Tagged s.cur [a] →
    ∃ t, exec (.vred d a ea eb) s = .next t ∧
      (∀ j < etElems et, let x := elemOf et (t.cur.val32 (.ofS s.cur.sel d)) j
        if etFloat et then x = (fmtOf et).sum (s.cur.rctx et 0 0 j) ((Claims.part s.cur).map fun l =>
            (fmtOf et).term (fmtOf et) s.cur.me.pc.toNat (elemOf et (s.cur.lane a l) j)) % 2 ^ etWidth et
        else intVal et x = Claims.bring et s.cur.sat ((Claims.part s.cur).map fun l =>
            intVal et (elemOf et (s.cur.lane a l) j)).sum) ∧
      s.Completes t srcs [.ofS s.cur.sel d] (Claims.rounded s.cur (etFloat et))) ∧
  (∀ (d a : Nat) (ea eb : Bool) (s : State), (Instr.vscan d a ea eb).WellFormed →
    let srcs := [.v a] ++ Claims.laneRegs s.cur
    let et := s.cur.et
    s.Ready srcs [.v d] → s.cur.seq = none → (∀ n ∈ [d, a], n < s.cur.vregs) → et < 11 → s.cur.rm < 6 →
    Claims.Tagged s.cur [a] →
    ∃ t, exec (.vscan d a ea eb) s = .next t ∧
      Claims.LanesOf s t d et (fun k j x =>
        let upTo := (Claims.part s.cur).filter fun l => l ≤ k
        if etFloat et then x = (fmtOf et).sum (s.cur.rctx et 0 k j) (upTo.map fun l =>
            (fmtOf et).term (fmtOf et) s.cur.me.pc.toNat (elemOf et (s.cur.lane a l) j)) % 2 ^ etWidth et
        else intVal et x = Claims.bring et s.cur.sat (upTo.map fun l =>
            intVal et (elemOf et (s.cur.lane a l) j)).sum) ∧
      s.Completes t srcs [.v d] (Claims.rounded s.cur (etFloat et)))

/-- Operations across lanes. -/
def Obligations.VectorLaneOps : Prop := Claims.VectorLanes ∧ Claims.VectorReduce

/-- The two-source predicate operations (R275). -/
def Sys2Proof.Claims.pred2 : List (Claims.Mk5 × (Bool → Bool → Bool)) :=
  [(.pand, fun a b => a && b), (.por, fun a b => a || b), (.pxor, fun a b => a != b), (.pandn, fun a b => a && !b)]

/-- PAND, POR, PXOR, PANDN, PNOT, PMOV, PFROMS on the lanes that take part, the other bits of pd as before; PTOS into
three scalars, zero where a lane does not take part (R219, R275). -/
def Obligations.PredicateOps : Prop :=
  (∀ op ∈ Claims.pred2, ∀ (d a b : Nat) (ea eb : Bool) (s : State), (op.1 d a b ea eb).WellFormed →
    let srcs := [.p a, .p b] ++ Claims.laneRegs s.cur
    s.Ready srcs [.p d] → s.cur.seq = none →
    ∃ t, exec (op.1 d a b ea eb) s = .next t ∧
      (∀ k < 96, (t.cur.pred d).getLsbD k = if s.cur.active.getLsbD k then
        op.2 ((s.cur.pred a).getLsbD k) ((s.cur.pred b).getLsbD k) else (s.cur.pred d).getLsbD k) ∧
      s.Completes t srcs [.p d] fun m => m.next 4) ∧
  (∀ op ∈ [(Instr.pnot, true), (Instr.pmov, false)], ∀ (d a : Nat) (ea eb : Bool) (s : State),
    (op.1 d a ea eb).WellFormed →
    let srcs := [.p a] ++ Claims.laneRegs s.cur
    s.Ready srcs [.p d] → s.cur.seq = none →
    ∃ t, exec (op.1 d a ea eb) s = .next t ∧
      (∀ k < 96, (t.cur.pred d).getLsbD k = if s.cur.active.getLsbD k then
        ((s.cur.pred a).getLsbD k != op.2) else (s.cur.pred d).getLsbD k) ∧
      s.Completes t srcs [.p d] fun m => m.next 4) ∧
  (∀ (d a : Nat) (ea eb : Bool) (s : State), (Instr.pfroms d a ea eb).WellFormed →
    let srcs := [.ofS s.cur.sel a, .ofS s.cur.sel (a + 1), .ofS s.cur.sel (a + 2)] ++ Claims.laneRegs s.cur
    s.Ready srcs [.p d] → s.cur.seq = none →
    ∃ t, exec (.pfroms d a ea eb) s = .next t ∧
      (∀ k < 96, (t.cur.pred d).getLsbD k = if s.cur.active.getLsbD k then
        (s.cur.val32 (.ofS s.cur.sel (a + k / 32))).getLsbD (k % 32) else (s.cur.pred d).getLsbD k) ∧
      s.Completes t srcs [.p d] fun m => m.next 4) ∧
  (∀ (d a : Nat) (ea eb : Bool) (s : State), (Instr.ptos d a ea eb).WellFormed →
    let srcs := [.p a] ++ Claims.laneRegs s.cur
    let ds := [.ofS s.cur.sel d, .ofS s.cur.sel (d + 1), .ofS s.cur.sel (d + 2)]
    s.Ready srcs ds → s.cur.seq = none →
    ∃ t, exec (.ptos d a ea eb) s = .next t ∧
      (∀ k < 96, (t.cur.val32 (.ofS s.cur.sel (d + k / 32))).getLsbD (k % 32) =
        (s.cur.active.getLsbD k && (s.cur.pred a).getLsbD k)) ∧
      s.Completes t srcs ds fun m => m.next 4)

/-- EXPR evaluates its tokens on a stack, element by element, with a, b, v(b + 1) and the old d as the inputs that its
tokens name, and goes on eight bytes later (R208, R211, R276, R277). -/
def Obligations.ExpressionEval : Prop :=
  ∀ (d a b n : Nat) (ea eb : Bool) (tokens : Nat) (s : State), (Instr.expr d a b n ea eb tokens).WellFormed →
    let ts := (List.range n).map fun j => tokens / 16 ^ j % 16
    let used := (if ts.contains 3 then [d] else []) ++ (if ts.contains 0 then [a] else []) ++
      (if ts.contains 1 then [b] else []) ++ (if ts.contains 2 then [b + 1] else [])
    let srcs := used.map .v ++ Claims.laneRegs s.cur
    let rounds := ts.any fun t => t = 4 ∨ t = 5 ∨ t = 6 ∨ t = 14
    let et := s.cur.et
    s.Ready srcs [.v d] → s.cur.seq = none → (∀ m ∈ [d, a, b] ++ used, m < s.cur.vregs) → et < 11 →
    (rounds = true → s.cur.rm < 6) → (ts.contains 12 = true ∨ ts.contains 13 = true → et ∈ [6, 7, 8]) →
    Claims.Tagged s.cur used →
    ∃ t, exec (.expr d a b n ea eb tokens) s = .next t ∧
      Claims.LanesOf s t d et (fun k j x =>
        x = (exprRun et (fun i => s.cur.rctx et i k j) ([a, b, b + 1, d].map fun r => elemOf et (s.cur.lane r k) j)
          ts 0 []).headD 0 % 2 ^ etWidth et) ∧
      s.Completes t srcs [.v d] fun m =>
        { m with pc := m.pc + 8, srcnt := if rounds = true ∧ etFloat et = true ∧ s.cur.rm = 5 then m.srcnt + 1 else m.srcnt }

/-! ### Memory (R67 to R101, R278 to R300) -/

/-- The lanes that take part, each with its address. -/
def Sys2Proof.Claims.addrs (g : Group) (f : Nat → W64) : List (Nat × W64) := (Claims.part g).map fun k => (k, f k)

/-- SEXT of an n-bit offset times the access size (R220). -/
def Sys2Proof.Claims.scaledBy (n off sz : Nat) : W64 := (BitVec.ofNat n off).signExtend 64 * BitVec.ofNat 64 (2 ^ sz)

/-- Addresses of the vector forms: the pair va of each lane plus the scaled offset; the block forms: base plus (off +
lane) times the size (R282, R283). -/
def Sys2Proof.Claims.vecForms (ld : Bool) :
    List ((Nat → Nat → Nat → Nat → Nat → Instr) × Bool × (Group → Nat → Nat → Nat → Nat → W64)) :=
  let va (n : Nat) (g : Group) (a off sz k : Nat) : W64 := (g.lane (a + 1) k ++ g.lane a k) + Claims.scaledBy n off sz
  let block (g : Group) (a off sz k : Nat) : W64 :=
    g.spval a + ((BitVec.ofNat 7 off).signExtend 64 + BitVec.ofNat 64 k) * BitVec.ofNat 64 (2 ^ sz)
  if ld then [(.ld, true, va 7), (.ldb, false, block), (.ldaqVector, true, va 6)]
  else [(.st, true, va 7), (.stb, false, block)]

/-- v registers d, and d + 1 of a doubleword. -/
def Sys2Proof.Claims.regs (d sz : Nat) : List Nat := if sz = 3 then [d, d + 1] else [d]

/-- The word that a list of fills gives to lane k of v(n). -/
def Sys2Proof.Claims.fillLane (fs : List Fill) (n k : Nat) : Option W32 :=
  fs.findSome? fun f => match f with
    | .lanes m mask xs _ => if m = n ∧ mask.getLsbD k = true then some (xs.getD k 0) else none
    | .word _ _ | .part _ _ _ _ => none

/-- The number at a hit's place: little-endian bytes of the place, a doubleword as its two words (R2, R70). -/
def Sys2Proof.Claims.at_ (s : State) (h : Hit) (size : Nat) : Nat :=
  if size = 8 then s.loadAt h.lo 4 + 2 ^ 32 * s.loadAt h.hi 4 else s.loadAt h.lo size

/-- A byte or half sign-extended to a word under I32 (R280). -/
def Sys2Proof.Claims.extend (et sz x : Nat) : Nat :=
  if et = 1 ∧ sz = 0 then ((BitVec.ofNat 8 x).signExtend 32).toNat
  else if et = 1 ∧ sz = 1 then ((BitVec.ofNat 16 x).signExtend 32).toNat else x

/-- The registers an address field of a memory instruction reads: a v pair, or a scalar pair. -/
def Sys2Proof.Claims.addrRegs (g : Group) (vec : Bool) (a : Nat) : List RegId :=
  if vec then [.v a, .v (a + 1)] else g.spregs a

/-- LD, LDB, LDAQ_VECTOR: where the lanes that take part all reach a place, the load leaves with every lane's value as it
stands, byte and half values extended, and its destinations are empty until LOAD_DATA_RETURN; LDS and LDAQ_SCALAR the
same for one address. A translation removed with its peer has then been met. The only writes to memory are the A bits of the page tables used (R77, R217, R279 to R283).
An access is performed as it issues: the model's choice (log 5). -/
def Obligations.Loads : Prop :=
  (∀ op ∈ Claims.vecForms true, ∀ (d a pol sz off : Nat) (s : State) (hits : List Hit),
    (op.1 d a pol sz off).WellFormed →
    let ds := (Claims.regs d sz).map RegId.v
    let srcs := Claims.addrRegs s.cur op.2.1 a ++ [.s (40 + pol)] ++ Claims.laneRegs s.cur
    s.Ready srcs ds → s.cur.seq = none →
    (∀ n ∈ Claims.regs d sz ++ (if op.2.1 then [a, a + 1] else []), n < s.cur.vregs) → s.cur.et < 11 →
    s.checkLanes ⟨.load, true, 2 ^ sz, 2 ^ sz⟩ (Claims.addrs s.cur (op.2.2 s.cur a off sz)) = .ok hits [] →
    let u := s.touchAll false hits
    ∃ t fills, exec (op.1 d a pol sz off) s = .next t ∧
      (∀ h ∈ hits, u.hitErr h (2 ^ sz) = none → ∀ i < (Claims.regs d sz).length,
        Claims.fillLane fills (d + i) h.lane =
          some (w32 (Claims.extend s.cur.et sz (Claims.at_ u h (2 ^ sz)) / 2 ^ (32 * i)))) ∧
      (u.forget hits).Departs t srcs ds
        [.load s.cur.who fills (u.laneErr (2 ^ sz) hits) (u.farOf (2 ^ sz) hits)] fun m => m.next 4) ∧
  (∀ op ∈ [(Instr.lds, 7), (Instr.ldaqScalar, 6)], ∀ (d a pol sz off : Nat) (s : State) (h : Hit),
    (op.1 d a pol sz off).WellFormed →
    let ds := (Claims.regs d sz).map (RegId.ofS s.cur.sel)
    let srcs := s.cur.spregs a ++ [.s (40 + pol)]
    s.Ready srcs ds →
    s.checkLanes ⟨.load, true, 2 ^ sz, 2 ^ sz⟩ [(0, s.cur.spval a + Claims.scaledBy op.2 off sz)] = .ok [h] [] →
    let u := s.touchAll false [h]
    u.hitErr h (2 ^ sz) = none →
    ∃ t, exec (op.1 d a pol sz off) s = .next t ∧
      (u.forget [h]).Departs t srcs ds [.load s.cur.who (((Claims.regs d sz).zipIdx).map fun (n, i) =>
        .word (.ofS s.cur.sel n) (w32 (Claims.at_ u h (2 ^ sz) / 2 ^ (32 * i)))) none (u.farOf (2 ^ sz) [h])] fun m => m.next 4)

/-- A byte of device memory lies at a hit's place, for an access of size bytes. -/
def Sys2Proof.Claims.covers (h : Hit) (size a : Nat) : Prop :=
  (∃ lo, h.lo = .dev lo ∧ lo ≤ a ∧ a < lo + min size 4) ∨ (size = 8 ∧ ∃ hi, h.hi = .dev hi ∧ hi ≤ a ∧ a < hi + 4)

/-- A byte of device memory lies in a page-table entry that a hit used. -/
def Sys2Proof.Claims.inPte (hits : List Hit) (a : Nat) : Prop :=
  ∃ h ∈ hits, ∃ e, h.entry = some e ∧ e.pteAt ≤ a ∧ a < e.pteAt + 8

/-- What a store of each lane's data to the hits leaves before it departs: lanes in ascending order (R86), after a sequencer's
engine has read what its earlier operations still read there (R100). -/
def Sys2Proof.Claims.stored (s : State) (sz : Nat) (data : Nat → Nat) (hits : List Hit) : State :=
  (((((s.touchAll true hits).readBefore hits).storeLanes (2 ^ sz) data hits).clearCovered (2 ^ sz) hits).forget
    hits).pendMcheck s.cur.tid (s.storeErr hits)

/-- The outcome of a store: it is in flight, every byte of device memory outside the bytes stored and the page-table
entries used is as before, and a place that no later lane stores to holds its lane's data. -/
def Sys2Proof.Claims.Stores (s : State) (o : Host.Outcome State Fault Refusal) (srcs : List RegId) (sz : Nat)
    (data : Nat → Nat) (hits : List Hit) : Prop :=
  ∃ t, o = .next t ∧
    (Claims.stored s sz data hits).Departs t srcs [] [.store s.cur.who (s.farOf (2 ^ sz) hits)] (fun m => m.next 4) ∧
    (∀ a, (∀ h ∈ hits, ¬ Claims.covers h (2 ^ sz) a) → ¬ Claims.inPte hits a → t.mem.get a = s.mem.get a) ∧
    (s.mem.wf = true → ∀ (pre post : List Hit) (h : Hit) (pa : Nat), hits = pre ++ h :: post → h.lo = .dev pa →
      sz < 3 → (s.mdie (sectorOf pa)).fenced = false →
      (∀ x ∈ post, ∀ a, pa ≤ a → a < pa + 2 ^ sz → ¬ Claims.covers x (2 ^ sz) a) →
      t.mem.rd pa (2 ^ sz) = data h.lane % 256 ^ 2 ^ sz)

/-- ST, STB, STS: each lane's data goes to its place, once no earlier contribution of the group is on its way from its
buffer (R98, R281 to R283). -/
def Sys2Proof.Claims.PlainStores : Prop :=
  (∀ op ∈ Claims.vecForms false, ∀ (d a pol sz off : Nat) (s : State) (hits : List Hit),
    (op.1 d a pol sz off).WellFormed →
    let srcs := (Claims.regs d sz).map RegId.v ++ Claims.addrRegs s.cur op.2.1 a ++ [.s (40 + pol)] ++ Claims.laneRegs s.cur
    s.Ready srcs [] → s.cur.seq = none →
    (∀ n ∈ Claims.regs d sz ++ (if op.2.1 then [a, a + 1] else []), n < s.cur.vregs) →
    s.redsDraining s.cur.tid = false →
    s.checkLanes ⟨.store, true, 2 ^ sz, 2 ^ sz⟩ (Claims.addrs s.cur (op.2.2 s.cur a off sz)) = .ok hits [] →
    Claims.Stores s (exec (op.1 d a pol sz off) s) srcs sz
      (fun k => if sz = 3 then (s.cur.lane (d + 1) k ++ s.cur.lane d k).toNat else (s.cur.lane d k).toNat) hits) ∧
  (∀ (d a pol sz off : Nat) (s : State) (hits : List Hit), (Instr.sts d a pol sz off).WellFormed →
    let srcs := (if sz = 3 then s.cur.spregs d else s.cur.sregs d) ++ s.cur.spregs a ++ [.s (40 + pol)]
    s.Ready srcs [] → s.redsDraining s.cur.tid = false →
    s.checkLanes ⟨.store, true, 2 ^ sz, 2 ^ sz⟩ [(0, s.cur.spval a + Claims.scaledBy 7 off sz)] = .ok hits [] →
    Claims.Stores s (exec (.sts d a pol sz off) s) srcs sz
      (fun _ => if sz = 3 then (s.cur.spval d).toNat else (s.cur.sval d).toNat) hits)

/-- STRL_VECTOR and STRL_SCALAR store as ST and STS do once every earlier memory operation of the arm is complete
and none of its group's contributions is buffered; until then, unless its checks trap, the arm stays at the instruction with
memory unchanged (R95, R98, R283, R428). -/
def Sys2Proof.Claims.ReleaseStores : Prop :=
  (∀ (d a pol sz off : Nat) (s : State) (hits : List Hit), (Instr.strlVector d a pol sz off).WellFormed →
    let srcs := (Claims.regs d sz).map RegId.v ++ [.v a, .v (a + 1)] ++ [.s (40 + pol)] ++ Claims.laneRegs s.cur
    s.Ready srcs [] → s.cur.seq = none → (∀ n ∈ Claims.regs d sz ++ [a, a + 1], n < s.cur.vregs) →
    (∀ c ∈ s.abuf, c.who.tid ≠ s.cur.tid) →
    (s.outstanding s.cur.tid s.cur.sel 3 false = false → s.redsDraining s.cur.tid = false →
      s.checkLanes ⟨.store, true, 2 ^ sz, 2 ^ sz⟩ (Claims.addrs s.cur fun k =>
        (s.cur.lane (a + 1) k ++ s.cur.lane a k) + Claims.scaledBy 6 off sz) = .ok hits [] →
      Claims.Stores s (exec (.strlVector d a pol sz off) s) srcs sz
        (fun k => if sz = 3 then (s.cur.lane (d + 1) k ++ s.cur.lane d k).toNat else (s.cur.lane d k).toNat) hits) ∧
    (s.outstanding s.cur.tid s.cur.sel 3 false = true →
      (∀ x, s.checkLanes ⟨.store, true, 2 ^ sz, 2 ^ sz⟩ (Claims.addrs s.cur fun k =>
        (s.cur.lane (a + 1) k ++ s.cur.lane a k) + Claims.scaledBy 6 off sz) ≠ .trap x) →
      ∃ t, exec (.strlVector d a pol sz off) s = .next t ∧ t.mem = s.mem ∧ t.cur.me.pc = s.cur.me.pc)) ∧
  (∀ (d a pol sz off : Nat) (s : State) (hits : List Hit), (Instr.strlScalar d a pol sz off).WellFormed →
    let srcs := (if sz = 3 then s.cur.spregs d else s.cur.sregs d) ++ s.cur.spregs a ++ [.s (40 + pol)]
    s.Ready srcs [] → (∀ c ∈ s.abuf, c.who.tid ≠ s.cur.tid) →
    (s.outstanding s.cur.tid s.cur.sel 3 false = false → s.redsDraining s.cur.tid = false →
      s.checkLanes ⟨.store, true, 2 ^ sz, 2 ^ sz⟩ [(0, s.cur.spval a + Claims.scaledBy 6 off sz)] = .ok hits [] →
      Claims.Stores s (exec (.strlScalar d a pol sz off) s) srcs sz
        (fun _ => if sz = 3 then (s.cur.spval d).toNat else (s.cur.sval d).toNat) hits) ∧
    (s.outstanding s.cur.tid s.cur.sel 3 false = true →
      (∀ x, s.checkLanes ⟨.store, true, 2 ^ sz, 2 ^ sz⟩ [(0, s.cur.spval a + Claims.scaledBy 6 off sz)] ≠ .trap x) →
      ∃ t, exec (.strlScalar d a pol sz off) s = .next t ∧ t.mem = s.mem ∧ t.cur.me.pc = s.cur.me.pc))

/-- Stores and release stores. An access is performed as it issues: the model's choice (log 5). -/
def Obligations.StoreForms : Prop := Claims.PlainStores ∧ Claims.ReleaseStores

/-- OP(old, b) on words of w bits (R285). -/
def Sys2Proof.Claims.atomVal (op : AtomOp) (et w : Nat) (sat : Bool) (pc old b : Nat) : Nat :=
  match op with
  | .add => (old + b) % 2 ^ w
  | .and => old &&& b
  | .or => old ||| b
  | .xor => old ^^^ b
  | .xchg => b
  | .min => if et = 6 then fp32.fmin old b else if et = 2 then min old b
      else if (BitVec.ofNat w b).toInt < (BitVec.ofNat w old).toInt then b else old
  | .max => if et = 6 then fp32.fmax old b else if et = 2 then max old b
      else if (BitVec.ofNat w old).toInt < (BitVec.ofNat w b).toInt then b else old
  | .fadd => fp32.fadd ⟨0, sat, pc, 0⟩ old b

/-- The element types that an atomic operation accepts: 64-bit ones only in a scalar form (R285). -/
def Sys2Proof.Claims.atomEts (op : AtomOp) (scalar : Bool) : List Nat :=
  match op with
  | .fadd => [6]
  | .add => [0, 1, 2] ++ if scalar then [11] else []
  | _ => [0, 1, 2, 6] ++ if scalar then [11] else []

/-- A host executes the operation (R289). -/
def Sys2Proof.Claims.hostDoes (op : AtomOp) (et : Nat) : Bool :=
  match op with
  | .fadd => false
  | .min | .max => decide (et ≠ 6)
  | _ => true

/-- The atomics of one lane and of one scalar. -/
def Sys2Proof.Claims.atoms : List (Claims.Mk5 × Claims.Mk5 × AtomOp) :=
  [(.atomAdd, .atomsAdd, .add), (.atomAnd, .atomsAnd, .and), (.atomOr, .atomsOr, .or), (.atomXor, .atomsXor, .xor),
   (.atomMin, .atomsMin, .min), (.atomMax, .atomsMax, .max), (.atomXchg, .atomsXchg, .xchg), (.atomFadd, .atomsFadd, .fadd)]

/-- The operation checks the tag of b (R285). -/
def Sys2Proof.Claims.atomTag (op : AtomOp) : Bool := decide (op ∈ [AtomOp.add, .min, .max, .fadd])

/-- The outcome of an atomic at one place of device memory, undamaged, on a die that is not fenced: the old number
returns on the operation's way to d, the place holds the new one, and every byte outside it and the page-table entry
used is as before (R285, R286). -/
def Sys2Proof.Claims.AtomicAt (s : State) (o : Host.Outcome State Fault Refusal) (srcs ds : List RegId) (size : Nat)
    (h : Hit) (pa : Nat) (f : Nat → Nat) (fills : Nat → List Fill) : Prop :=
  let u := (s.touchAll true [h]).readBefore [h]
  let old := Claims.at_ u h size
  let b := (u.storeHit h size (f old)).forget [h]
  ∃ t, o = .next t ∧ b.Departs t srcs ds [.atomic s.cur.who (fills old) none []] (fun m => m.next 4) ∧
    (s.mem.wf = true → size = 4 → t.mem.rd pa size = f old % 256 ^ size) ∧
    ∀ a, ¬ Claims.covers h size a → ¬ Claims.inPte [h] a → t.mem.get a = s.mem.get a

/-- A place of device memory without an error, whose die is not fenced, and for which no contribution of the group is on
its way from a buffer (R98). -/
def Sys2Proof.Claims.soundAt (s : State) (h : Hit) (size pa : Nat) : Prop :=
  s.redsDraining s.cur.tid = false ∧ h.lo = .dev pa ∧ (s.touchAll true [h]).hitErr h size = none ∧ ∀ p, h.hi = .dev p → (s.mdie (sectorOf p)).fenced = false

/-- ATOM add, and, or, xor, min, max, xchg, fadd and ACAS_VECTOR with one lane taking part: v(d) will receive the old
word in that lane (R285 to R287). -/
def Sys2Proof.Claims.AtomicVector : Prop :=
  (∀ op ∈ Claims.atoms, ∀ (d a b k pa : Nat) (ea eb : Bool) (s : State) (h : Hit), (op.1 d a b ea eb).WellFormed →
    let srcs := [.v a, .v (a + 1), .v b, .s 40] ++ Claims.laneRegs s.cur
    s.Ready srcs [.v d] → s.cur.seq = none → (∀ n ∈ [d, a, a + 1, b], n < s.cur.vregs) →
    s.cur.et ∈ Claims.atomEts op.2.2 false → (Claims.atomTag op.2.2 = true → Claims.Tagged s.cur [b]) →
    Claims.part s.cur = [k] →
    s.checkLanes ⟨.atomic, Claims.hostDoes op.2.2 s.cur.et, 4, 4⟩ [(k, s.cur.lane (a + 1) k ++ s.cur.lane a k)] = .ok [h] [] →
    Claims.soundAt s h 4 pa →
    Claims.AtomicAt s (exec (op.1 d a b ea eb) s) srcs [.v d] 4 h pa
      (fun old => Claims.atomVal op.2.2 s.cur.et 32 s.cur.sat s.cur.me.pc.toNat old (s.cur.lane b k).toNat)
      fun old => [.lanes d (BitVec.ofNat 96 (2 ^ k)) ((List.range 96).map fun j => if j = k then w32 old else 0) s.cur.et]) ∧
  (∀ (d a b k pa : Nat) (ea eb : Bool) (s : State) (h : Hit), (Instr.acasVector d a b ea eb).WellFormed →
    let srcs := [.v d, .v a, .v (a + 1), .v b, .s 40] ++ Claims.laneRegs s.cur
    s.Ready srcs [.v d] → s.cur.seq = none → (∀ n ∈ [d, a, a + 1, b], n < s.cur.vregs) →
    s.cur.et ∈ [0, 1, 2, 6] → Claims.part s.cur = [k] →
    s.checkLanes ⟨.atomic, true, 4, 4⟩ [(k, s.cur.lane (a + 1) k ++ s.cur.lane a k)] = .ok [h] [] →
    Claims.soundAt s h 4 pa →
    Claims.AtomicAt s (exec (.acasVector d a b ea eb) s) srcs [.v d] 4 h pa
      (fun old => if old = (s.cur.lane d k).toNat then (s.cur.lane b k).toNat else old)
      fun old => [.lanes d (BitVec.ofNat 96 (2 ^ k)) ((List.range 96).map fun j => if j = k then w32 old else 0) s.cur.et])

/-- A scalar operand of an atomic at ET's width: a pair under I64 (R285). -/
def Sys2Proof.Claims.wide (g : Group) (n : Nat) : Nat := if g.et = 11 then (g.spval n).toNat else (g.sval n).toNat

/-- ATOMS add, and, or, xor, min, max, xchg, fadd and ACAS_SCALAR, on words, and on doublewords under I64: d, or the pair
d, will receive the old number; under I64 the pair d is a source of ATOMS too (R224, R285 to R287). -/
def Sys2Proof.Claims.AtomicScalar : Prop :=
  (∀ op ∈ Claims.atoms, ∀ (d a b pa : Nat) (ea eb : Bool) (s : State) (h : Hit), (op.2.1 d a b ea eb).WellFormed →
    let size := if s.cur.et = 11 then 8 else 4
    let regs (n : Nat) : List RegId := if s.cur.et = 11 then s.cur.spregs n else s.cur.sregs n
    let srcs := s.cur.spregs a ++ regs b ++ [.s 40] ++ if s.cur.et = 11 then s.cur.spregs d else []
    s.Ready srcs (regs d) → s.cur.et ∈ Claims.atomEts op.2.2 true →
    (s.cur.et = 11 → d % 2 = 0 ∧ (b < 64 → b % 2 = 0)) →
    s.checkLanes ⟨.atomic, Claims.hostDoes op.2.2 s.cur.et, size, size⟩ [(0, s.cur.spval a)] = .ok [h] [] →
    Claims.soundAt s h size pa →
    Claims.AtomicAt s (exec (op.2.1 d a b ea eb) s) srcs (regs d) size h pa
      (fun old => Claims.atomVal op.2.2 s.cur.et (8 * size) s.cur.sat s.cur.me.pc.toNat old (Claims.wide s.cur b))
      fun old => (regs d).zipIdx.map fun (r, i) => .word r (w32 (old / 2 ^ (32 * i)))) ∧
  (∀ (d a b pa : Nat) (ea eb : Bool) (s : State) (h : Hit), (Instr.acasScalar d a b ea eb).WellFormed →
    let size := if s.cur.et = 11 then 8 else 4
    let regs (n : Nat) : List RegId := if s.cur.et = 11 then s.cur.spregs n else s.cur.sregs n
    let srcs := regs d ++ s.cur.spregs a ++ regs b ++ [.s 40]
    s.Ready srcs (regs d) → s.cur.seq = none → s.cur.et ∈ [0, 1, 2, 6, 11] →
    (s.cur.et = 11 → d % 2 = 0 ∧ (b < 64 → b % 2 = 0)) →
    s.checkLanes ⟨.atomic, true, size, size⟩ [(0, s.cur.spval a)] = .ok [h] [] →
    Claims.soundAt s h size pa →
    Claims.AtomicAt s (exec (.acasScalar d a b ea eb) s) srcs (regs d) size h pa
      (fun old => if old = Claims.wide s.cur d then Claims.wide s.cur b else old)
      fun old => (regs d).zipIdx.map fun (r, i) => .word r (w32 (old / 2 ^ (32 * i))))

/-- Atomics. An access is performed as it issues: the model's choice (log 5). -/
def Obligations.Atomics : Prop := Claims.AtomicVector ∧ Claims.AtomicScalar

/-- The reductions (R290). -/
def Sys2Proof.Claims.reds : List ((Nat → Nat → Bool → Bool → Instr) × AtomOp) :=
  [(.redAdd, .add), (.redFadd, .fadd), (.redMin, .min), (.redMax, .max), (.redAnd, .and), (.redOr, .or), (.redXor, .xor)]

/-- RED add, fadd, min, max, and, or, xor: where every lane that takes part reaches a place and the scheduler's buffer has
room, and no flush of the group is under way, each lane's contribution (its place, operation, type and value) enters the
buffer in ascending lane order; the places themselves are not yet changed (R98, R290). An access is performed as it issues: the model's choice (log 5). -/
def Obligations.Reductions : Prop :=
  ∀ op ∈ Claims.reds, ∀ (a b : Nat) (ea eb : Bool) (s : State) (hits : List Hit), (op.1 a b ea eb).WellFormed →
    let srcs := [.v a, .v (a + 1), .v b, .s 40] ++ Claims.laneRegs s.cur
    s.Ready srcs [] → s.cur.seq = none → (∀ n ∈ [a, a + 1, b], n < s.cur.vregs) →
    s.cur.et ∈ Claims.atomEts op.2 false → (Claims.atomTag op.2 = true → Claims.Tagged s.cur [b]) →
    s.checkLanes ⟨.atomic, Claims.hostDoes op.2 s.cur.et, 4, 4⟩
      (Claims.addrs s.cur fun k => s.cur.lane (a + 1) k ++ s.cur.lane a k) = .ok hits [] →
    (s.bufEntries s.cur.loc.core s.cur.loc.sched).length + hits.length ≤ 64 →
    (∀ c ∈ s.redq, c.at s.cur.loc.core s.cur.loc.sched = false ∧ c.who.of s.cur.tid s.cur.sel = false) →
    (∀ h ∈ hits, s.sinkErr h = none) → s.cur.drainsReds = false → s.preempting s.cur.region = false →
    let u := s.touchAll true hits
    ∃ t cs, exec (op.1 a b ea eb) s = .next t ∧
      (State.forget { u with abuf := s.abuf ++ cs, fresh := s.fresh + 1 } hits).Departs t srcs [] [] (fun m => m.next 4) ∧
      cs.map (fun c => (c.who, c.lane, c.place, c.op, c.et, c.value)) =
        hits.map (fun h => (s.cur.who, h.lane, h.lo, op.2.code, s.cur.et, s.cur.lane b h.lane)) ∧
      ∀ x, ¬ Claims.inPte hits x → t.mem.get x = s.mem.get x

/-- PREF, WBK and INV of a range of at most 16 MiB that no publish step and no gated die holds: PREF completes, using the translations of
the pages; WBK and INV leave as cache maintenance, and under SYSTEM scope what the covered lines hold has reached LPDDR.
No byte of memory changes under WBK and INV. DISC leaves as maintenance once its lines, none of them owned by an engine's
store, are dropped page by page. Each of them with no length or no line in global space, and PREF of more than 16 MiB,
completes with no effect, the full/empty bits of its sources too (R292, R293, R428). -/
def Sys2Proof.Claims.CacheMaintenance : Prop :=
  (∀ (a b : Nat) (ea eb : Bool) (s : State), (Instr.pref a b ea eb).WellFormed →
    let srcs := s.cur.spregs a ++ s.cur.sregs b ++ [.s 40]
    let ps := coverPieces (coverMeet (s.cur.spval a).toNat (s.cur.sval b).toNat)
    s.Ready srcs [] → s.cur.seq = none →
    (0x1000000 < (s.cur.sval b).toNat ∨ s.cur.sval b = 0 ∨ (∀ p ∈ ps, inGlobal p.1 = false) →
      ∃ t, exec (.pref a b ea eb) s = .next t ∧ s.Completes t [] [] fun m => m.next 4) ∧
    ((s.cur.sval b).toNat ≤ 0x1000000 → s.cur.sval b ≠ 0 → (∃ p ∈ ps, inGlobal p.1 = true) →
      ps.findSome? (s.pieceGate false) = none →
      ∃ t, exec (.pref a b ea eb) s = .next t ∧ (s.pieceTouch .load ps).Departs t srcs [] [] fun m => m.next 4)) ∧
  (∀ i ∈ [Instr.wbk, .inv], ∀ (a b : Nat) (ea eb : Bool) (s : State), (i a b ea eb).WellFormed →
    let srcs := s.cur.spregs a ++ s.cur.sregs b ++ [.s 40]
    let ps := coverPieces (coverMeet (s.cur.spval a).toNat (s.cur.sval b).toNat)
    s.Ready srcs [] → s.cur.seq = none → (s.cur.sval b).toNat ≤ 0x1000000 →
    ((s.cur.sval b).toNat = 0 ∨ (∀ p ∈ ps, inGlobal p.1 = false) →
      ∃ t, exec (i a b ea eb) s = .next t ∧ s.Completes t [] [] fun m => m.next 4) ∧
    (0 < (s.cur.sval b).toNat → (∃ p ∈ ps, inGlobal p.1 = true) → ps.findSome? (s.pieceGate false) = none →
    ∃ t, exec (i a b ea eb) s = .next t ∧
      ({ s with dirty := t.dirty } : State).Departs t srcs [] [.maint s.cur.who] (fun m => m.next 4) ∧
      (modeScope s.cur.me.mode ≠ 3 → t.dirty = s.dirty) ∧
      (modeScope s.cur.me.mode = 3 → ∀ p ∈ ps, ∀ pa, s.piecePa p = some pa → ∀ e ∈ t.dirty, ¬ (pa ≤ e.1 ∧ e.1 < pa + p.2)) ∧
      ∀ e ∈ t.dirty, e ∈ s.dirty)) ∧
  (∀ (a b : Nat) (ea eb : Bool) (s u : State), (Instr.disc a b ea eb).WellFormed →
    let srcs := s.cur.spregs a ++ s.cur.sregs b ++ [.s 40]
    let n := (s.cur.sval b).toNat
    let addr := (s.cur.spval a).toNat
    s.Ready srcs [] → s.cur.seq = none →
    let ps := coverPieces (coverInside addr n)
    (n ≤ 0x1000000 → n = 0 ∨ (addr + n ≤ 0x200000000000000 ∧ ∀ p ∈ ps, inGlobal p.1 = false) →
      ∃ t, exec (.disc a b ea eb) s = .next t ∧ s.Completes t [] [] fun m => m.next 4) ∧
    (0 < n → n ≤ 0x1000000 → addr + n ≤ 0x200000000000000 → (∃ p ∈ ps, inGlobal p.1 = true) →
      ps.findSome? (s.pieceGate true) = none → s.discPieces ps = .done u →
      ∃ t, exec (.disc a b ea eb) s = .next t ∧ u.Departs t srcs [] [] fun m => m.next 4))

/-- RFLUSH completes where no contribution of the group is buffered or on its way; with b[0] set under DET it also closes
the reduction epoch, and completes where every group has closed it and no set of it is open. Else it waits in its own state (R98, R291). FENCE
completes where no earlier operation of the arm of its classes is outstanding, else the arm stays at it, turned away, and no
register changes (R47, R93, R94). -/
def Sys2Proof.Claims.FlushFence : Prop :=
  (∀ (b : Nat) (ea eb : Bool) (s : State), (Instr.rflush b ea eb).WellFormed →
    let srcs := s.cur.sregs b ++ [.s 40]
    let closes := (s.cur.sval b).getLsbD 0 && s.cur.eff.det
    s.Ready srcs [] → s.cur.seq = none →
    let launch := s.cur.launchId.toNat
    let shut := State.settleSets { s with cur := { s.cur with repoch := s.cur.repoch + 1 } } launch
    (s.redPending s.cur.tid = false → (closes = true → shut.epochOver launch s.cur.repoch = true) →
      ∃ t, exec (.rflush b ea eb) s = .next t ∧
        (if closes then shut else s).Departs t srcs [] [] fun m => m.next 4) ∧
    (s.redPending s.cur.tid = false → closes = true → shut.epochOver launch s.cur.repoch = false →
      ∃ t, exec (.rflush b ea eb) s = .next t ∧ t.cur.me.ws = .rflush ∧ t.cur.me.pc = s.cur.me.pc ∧ t.mem = s.mem ∧
        t.cur.repoch = s.cur.repoch + 1) ∧
    (s.redPending s.cur.tid = true →
      ∃ t, exec (.rflush b ea eb) s = .next t ∧ t.cur.me.ws = .rflush ∧ t.cur.me.pc = s.cur.me.pc ∧ t.mem = s.mem)) ∧
  (∀ (eng cum : Bool) (scope pred succ : Nat) (s : State), (Instr.fence eng cum scope pred succ).WellFormed →
    s.Ready [] [] → (∀ c ∈ s.abuf, c.who.tid ≠ s.cur.tid) →
    let idle := eng = false ∧ (pred = 0 ∨ succ = 0)
    (idle ∨ s.outstanding s.cur.tid s.cur.sel pred eng = false →
      ∃ t, exec (.fence eng cum scope pred succ) s = .next t ∧ s.Completes t [] [] fun m => m.next 4) ∧
    (¬ idle → s.outstanding s.cur.tid s.cur.sel pred eng = true →
      exec (.fence eng cum scope pred succ) s =
        .next { s with cur := s.cur.mapMe fun m => { m with ws := .ready, turned := true } }))

/-- Cache maintenance, RFLUSH and FENCE. An access is performed as it issues: the model's choice (log 5). -/
def Obligations.CacheFlushFence : Prop := Claims.CacheMaintenance ∧ Claims.FlushFence

/-- BARI sets the number of a barrier with no arrival counted, and with the number that it has already it has no effect; BARA and BARX send the arrival of b to the slot that holds
barrier a, where it is counted (BARRIER_ARRIVAL), and, that done, BARA goes on; BARW goes on where the phase it names has
completed, else waits in its own state until the phase completes, or traps REMOVED where the holder exits first; BARQ
reads P or N (R294 to R296). -/
def Obligations.Barriers : Prop :=
  (∀ (a b : Nat) (ea eb : Bool) (s : State), (Instr.bari a b ea eb).WellFormed →
    let srcs := s.cur.sregs a ++ s.cur.sregs b
    let n := (s.cur.sval b).toNat
    s.Ready srcs [] → s.cur.seq = none → s.cur.info.nbh = false → s.cur.sval a = 0 → 0 < n → n ≤ 65535 →
    s.cur.bar.c0 = 0 ∧ s.cur.bar.c1 = 0 ∧ s.cur.bar.c2 = 0 ∧ s.cur.bar.c3 = 0 →
    (s.cur.bar.n ≠ n → ∃ t, exec (.bari a b ea eb) s = .next t ∧
      ({ s with cur := { s.cur with bar := { s.cur.bar with n := n } } } : State).Departs t srcs [] [] fun m => m.next 4) ∧
    (s.cur.bar.n = n → ∃ t, exec (.bari a b ea eb) s = .next t ∧ s.Completes t [] [] fun m => m.next 4)) ∧
  (∀ op ∈ [(Instr.bara, false), (Instr.barx, true)], ∀ (a b : Nat) (ea eb : Bool) (s : State) (h : Group),
    (op.1 a b ea eb).WellFormed → s.Ready (s.cur.sregs a ++ s.cur.sregs b) [] → s.cur.seq = none →
    s.barCheck s.cur (s.cur.sval a).toNat = .ok h →
    arriveBad h.bar (s.cur.phase (s.cur.sval a).toNat) (s.cur.sval b).toNat = none →
    ∃ t, exec (op.1 a b ea eb) s = .next t ∧
      t = { s with cur := t.cur, flight := s.flight ++
        [.arrive s.cur.tid s.cur.sel (s.cur.sval a).toNat (s.cur.sval b).toNat op.2] } ∧
      t.cur.rest = s.cur.rest ∧ t.cur.s = s.cur.s ∧ t.cur.v = s.cur.v ∧ t.cur.p = s.cur.p ∧
      t.cur.me.ws = .arriving ∧ t.cur.me.pc = s.cur.me.pc ∧ t.cur.me.bank = s.cur.me.bank) ∧
  (∀ (a b : Nat) (ea eb : Bool) (s : State), s.cur.me.replay = true → s.fradb.stepping = [] → s.fradb.passing = [] →
    ∃ t, exec (.bara a b ea eb) s = .next t ∧ t.cur.me.pc = s.cur.me.pc + 4 ∧ t.cur.me.ws = .ready ∧
      t.cur.rest = s.cur.rest ∧ t.mem = s.mem) ∧
  (∀ i ∈ [Instr.barw, .barx], ∀ (a b : Nat) (ea eb : Bool) (s : State), s.cur.me.replay = true →
    s.fradb.stepping = [] → s.fradb.passing = [] → s.cur.me.owes = [] → s.cur.me.lost = true → s.cur.seq = none →
    s.TrapEntered (exec (i a b ea eb) s) .barrier 8 (w64 (s.cur.phase s.cur.me.wreg)) (w32 (s.cur.me.wreg % 65536))) ∧
  (∀ i ∈ [Instr.barw, .barx], ∀ (a b : Nat) (ea eb : Bool) (s : State), s.cur.me.replay = true →
    s.fradb.stepping = [] → s.fradb.passing = [] → s.cur.me.lost = false →
    ∃ t, exec (i a b ea eb) s = .next t ∧ t.cur.me.pc = s.cur.me.pc + 4 ∧ t.cur.me.ws = .ready ∧
      t.cur.rest = s.cur.rest ∧ t.mem = s.mem) ∧
  (∀ (a b : Nat) (ea eb : Bool) (s : State) (h : Group), (Instr.barw a b ea eb).WellFormed →
    let srcs := s.cur.sregs a ++ s.cur.sregs b
    let n := (s.cur.sval a).toNat
    let back := (s.cur.sval b).toNat
    s.Ready srcs [] → s.cur.seq = none → s.barCheck s.cur n = .ok h → back ≤ 3 → back < s.cur.phase n →
    (h.bar.passed (s.cur.phase n - 1 - back) = true → ∃ t, exec (.barw a b ea eb) s = .next t ∧
      s.Completes t srcs [] fun m => m.next 4) ∧
    (h.bar.passed (s.cur.phase n - 1 - back) = false → ∃ t, exec (.barw a b ea eb) s = .next t ∧
      t = { s with cur := t.cur } ∧ t.cur.me.ws = .barrier ∧ t.cur.me.pc = s.cur.me.pc ∧ t.cur.me.wreg = n)) ∧
  (∀ (d a b : Nat) (ea eb : Bool) (s : State) (h : Group), (Instr.barq d a b ea eb).WellFormed →
    let srcs := s.cur.sregs a ++ s.cur.sregs b
    s.Ready srcs [.ofS s.cur.sel d] → s.cur.seq = none → s.barCheck s.cur (s.cur.sval a).toNat = .ok h →
    (s.cur.sval b).toNat < 2 →
    ∃ t, exec (.barq d a b ea eb) s = .next t ∧
      t.cur.val32 (.ofS s.cur.sel d) =
        w32 (if s.cur.sval b = 0 then s.cur.phase (s.cur.sval a).toNat else h.bar.n) ∧
      s.Completes t srcs [.ofS s.cur.sel d] fun m => m.next 4)

/-- ACOPY and ACOPY2D of no bytes complete with no effect; else, with word-aligned ends, at most 16 MiB, every block of
source and destination present, and a free copy slot, the copy leaves with the source words as they stand at issue, which its
engine writes line by line (COPY_COMPLETE), and memory changes in no byte but the page-table entries used; misaligned ends
trap MISALIGN. TAGW changes the tag of v(d) alone (R298 to R300). That the sources are read at issue is the model's choice
(log 5). -/
def Obligations.CopyTag : Prop :=
  (∀ op ∈ [(Instr.acopy, false), (Instr.acopy2d, true)], ∀ (d a b : Nat) (ea eb : Bool) (s : State),
    (op.1 d a b ea eb).WellFormed →
    let two := op.2
    let srcs := s.cur.spregs d ++ s.cur.spregs a ++ (if two then s.cur.spregs b else s.cur.sregs b) ++ [.s 40]
    let src := (s.cur.spval a).toNat
    let dst := (s.cur.spval d).toNat
    let x := (s.cur.spval b).toNat
    let n := if two then x % 2 ^ 16 else (s.cur.sval b).toNat
    let rows := if two then x / 2 ^ 16 % 2 ^ 16 else 1
    let sp := if two then x / 2 ^ 32 % 2 ^ 16 * 16 else 0
    let dp := if two then x / 2 ^ 48 % 2 ^ 16 * 16 else 0
    s.Ready srcs [] → s.cur.seq = none →
    (n = 0 ∨ rows = 0 → ∃ t, exec (op.1 d a b ea eb) s = .next t ∧ s.Completes t [] [] fun m => m.next 4) ∧
    (n ≠ 0 → rows ≠ 0 → src % 4 = 0 → dst % 4 = 0 → n % 4 = 0 → n * rows ≤ 0x1000000 → (rows ≤ 1 ∨ n ≤ dp) →
      s.copiesOut s.cur.loc.core s.cur.loc.sched < 8 →
      ∀ hs hd : List Hit, s.copyHits .load (rowBlocks src sp n rows) = .ok hs [] →
        s.copyHits .store (rowBlocks dst dp n rows) = .ok hd [] →
        let u := (s.touchAll false hs).touchAll true hd
        ∃ t, exec (op.1 d a b ea eb) s = .next t ∧
          (u.forget (hs ++ hd)).Departs t srcs []
            [.copy s.cur.tid ⟨s.cur.loc.core, s.cur.loc.sched, s.cur.sel, s.clock, none, [], u.copyTodo hs hd⟩]
            (fun m => m.next 4) ∧
          ∀ y, ¬ Claims.inPte (hs ++ hd) y → t.mem.get y = s.mem.get y) ∧
    (n ≠ 0 → rows ≠ 0 → src % 4 ≠ 0 → s.TrapEntered (exec (op.1 d a b ea eb) s) .misalign 3 (s.cur.spval a) 0)) ∧
  (∀ (d a : Nat) (ea eb : Bool) (s : State), (Instr.tagw d a ea eb).WellFormed →
    s.Ready (s.cur.sregs a) [.v d] → s.cur.seq = none → d < s.cur.vregs → (s.cur.sval a).toNat ≤ 10 →
    ∃ t, exec (.tagw d a ea eb) s = .next t ∧ t = { s with cur := t.cur } ∧ t.cur.rest = s.cur.rest ∧
      t.cur.vreg d = { s.cur.vreg d with tag := (s.cur.sval a).toNat } ∧
      (∀ r : RegId, r.real = true → r ≠ .v d → t.cur.value r = s.cur.value r) ∧
      (∀ r : RegId, r.real = true → ¬ (r ∈ s.cur.sregs a ∧ r.mailbox = true) → t.cur.full r = s.cur.full r) ∧
      t.cur.me.pc = s.cur.me.pc + 4)

/-- A use of translations changes the page-table entries used, the cached translations and the dirty lines, and no other
byte of memory; a walk's entry gains A, and D where the access writes (R77, R78). -/
def Obligations.TranslationUse : Prop :=
  ∀ (s : State) (write : Bool) (hits : List Hit),
    (∀ a, ¬ Claims.inPte hits a → (s.touchAll write hits).mem.get a = s.mem.get a) ∧
    (s.touchAll write hits).cur = s.cur ∧ (s.touchAll write hits).others = s.others ∧
    ∀ (h : Hit) (e : TlbEntry), hits = [h] → h.entry = some e → s.mem.wf = true → s.tlb = [] →
      (s.touchAll write hits).mem.rd e.pteAt 8 = s.mem.rd e.pteAt 8 ||| (if write then 0xC0 else 0x40)

/-! ### Matrix (R120, R146 to R166, R302 to R315) -/

/-- MREQ: the request enters the reservation table of the group's cluster, the token register is empty until the routine
ends, and later reads of tiles wait for that request (R302, R360); a group without MTX traps MATRIX 1, a routine it may not
request MATRIX 2. TRD: the row is asked for, and both registers are empty until it lies below W (R303), where a save could
record it (R45: at most sixteen operations not started); it waits where R360 holds it. -/
def Sys2Proof.Claims.MatrixRequest : Prop :=
  (∀ (d a b : Nat) (ea eb : Bool) (s : State), (Instr.mreq d a b ea eb).WellFormed →
    let r := RegId.ofS s.cur.sel d
    let srcs := s.cur.sregs a ++ s.cur.spregs b
    let n := (s.cur.sval a).toNat
    let cl := s.cur.cluster
    s.Ready srcs [r] → s.cur.seq = none →
    (s.cur.info.mtx = true → s.routineOk cl n s.cur.region = true → (s.cluster cl).resv.length < 16 →
      ∃ t e, exec (.mreq d a b ea eb) s = .next t ∧
        (e : Resv).id = s.fresh ∧ e.who = s.cur.who ∧ e.reg = r ∧ e.n = n ∧ e.arg = s.cur.spval b ∧ e.prio = s.cur.info.prio ∧
        e.region = s.cur.region ∧ e.arrival = s.clock ∧
        (State.modCluster { s with fresh := s.fresh + 1 } cl fun c => { c with resv := c.resv ++ [e] }).Departs t srcs [r] []
          fun m => { m.next 4 with holds := ⟨s.fresh, r, cl, []⟩ :: m.holds.filter fun h => !s.cur.full h.reg }) ∧
    (s.cur.info.mtx = false → s.TrapEntered (exec (.mreq d a b ea eb) s) .matrix 1 0 (w32 (n % 256))) ∧
    (s.cur.info.mtx = true → s.routineOk cl n s.cur.region = false →
      s.TrapEntered (exec (.mreq d a b ea eb) s) .matrix 2 0 (w32 (n % 256)))) ∧
  (∀ (d a b : Nat) (ea eb : Bool) (s : State), (Instr.trd d a b ea eb).WellFormed →
    let srcs := s.cur.sregs b ++ Claims.laneRegs s.cur
    let r := (s.cur.sval b).toNat
    let tile := (s.cluster s.cur.cluster).tile a
    s.Ready srcs [.v d, .v (d + 1)] → s.cur.seq = none → d + 1 < s.cur.vregs →
    (s.cur.heldBy s.cur.sel a = false → s.ownsTile s.cur.region tile = true → r < 128 →
      s.unstarted s.cur.tid < 16 →
      ∃ t, exec (.trd d a b ea eb) s = .next t ∧ s.Departs t srcs [.v d, .v (d + 1)]
        [.trd s.cur.who ⟨(s.cur.me.pc, s.ir), s.cur.sel, s.cur.cluster, a, r, d, s.cur.active⟩] fun m => m.next 4) ∧
    (s.cur.heldBy s.cur.sel a = false → s.ownsTile s.cur.region tile = false →
      s.TrapEntered (exec (.trd d a b ea eb) s) .matrix 3 0 (w32 (a % 256))) ∧
    (s.cur.heldBy s.cur.sel a = false → s.ownsTile s.cur.region tile = true → 128 ≤ r →
      s.TrapEntered (exec (.trd d a b ea eb) s) .matrix 4 0 (w32 (a % 256))) ∧
    (s.cur.heldBy s.cur.sel a = true →
      exec (.trd d a b ea eb) s = .next { s with cur := s.cur.mapMe fun m => m.enter s.clock .held a 0 }))

/-- TWR and TWM write row s[b] of the tile: element c takes the word of lane c of v(d), or of lane c − 96 of v(d + 1), where
that lane takes part, for TWM only where bit c mod 32 of s(52 + c div 32) is set too. No other element changes (R152,
R153, R303). -/
def Sys2Proof.Claims.TileWrite : Prop :=
  ∀ op ∈ [(Instr.twr, false), (Instr.twm, true)], ∀ (d a b : Nat) (ea eb : Bool) (s : State),
    (op.1 d a b ea eb).WellFormed →
    let mask : List RegId := if op.2 then (List.range 4).map fun i => RegId.b s.cur.sel (52 + i) else []
    let srcs := [.v d, .v (d + 1)] ++ s.cur.sregs b ++ mask ++ Claims.laneRegs s.cur
    let r := (s.cur.sval b).toNat
    let cl := s.cur.cluster
    let tile := (s.cluster cl).tile a
    s.Ready srcs [] → s.cur.seq = none → d + 1 < s.cur.vregs → s.ownsTile s.cur.region tile = true → r < 128 →
    ((s.cur.vreg d).tag = tile.tag ∨ (s.cur.vreg d).tag = 0) →
    ((s.cur.vreg (d + 1)).tag = tile.tag ∨ (s.cur.vreg (d + 1)).tag = 0) → tile.busy = false → tile.cells.wf = true →
    ∃ t cells, exec (op.1 d a b ea eb) s = .next t ∧
      (s.modTile cl a fun x => { x with cells := cells }).Completes t srcs [] (fun m => m.next 4) ∧
      (cells : Memory).wf = true ∧
      ∀ i < 128, ∀ c < 128,
        let lane := if c < 96 then c else c - 96
        let on := i = r ∧ s.cur.active.getLsbD lane = true ∧
          (op.2 = true → (s.cur.val32 (.b s.cur.sel (52 + c / 32))).getLsbD (c % 32) = true)
        (on → cells.rd ((i * 128 + c) * 4) 4 = (s.cur.lane (if c < 96 then d else d + 1) lane).toNat) ∧
        (¬ on → cells.rd ((i * 128 + c) * 4) 4 = tile.elem i c)

/-- TDRAIN, its checks passed and every page present, waits for its rows one by one with what it read; once every row is
written it completes (R166, R304). -/
def Sys2Proof.Claims.TileDrain : Prop :=
  (∀ (d a b : Nat) (ea eb : Bool) (s : State) (p hi : Place) (e : Option TlbEntry) (sc bi dst : List Hit),
    (Instr.tdrain d a b ea eb).WellFormed →
    let tile := (s.cluster s.cur.cluster).tile a
    let u := s.touchAll false [⟨0, p, hi, e, s.cur.spval b⟩]
    let x := u.drainDesc p
    s.Ready (s.cur.spregs d ++ s.cur.spregs b ++ [.s 40]) [] → s.cur.seq = none →
    s.cur.heldBy s.cur.sel a = false → s.cur.me.drain = none → s.cur.me.waux = 0 → 0 < tile.vr →
    s.ownsTile s.cur.region tile = true → (s.removedHit ⟨0, p, hi, e, s.cur.spval b⟩ = false) →
    (∀ h ∈ sc ++ bi ++ dst, u.removedHit h = false) →
    tile.tag ∈ [1, 2, 6] → (s.cur.spval b).toNat % 32 = 0 →
    s.reach .load true 32 0 (s.cur.spval b) 32 = .hit p hi e → s.readErr p = none →
    x.rest = 0 → 1 ≤ x.otype → x.otype ≤ 10 → x.act ≤ 2 →
    (s.cur.spval d).toNat % elemSize x.otype = 0 → x.pitch % elemSize x.otype = 0 →
    u.checkLanes ⟨.load, true, 4, 4⟩ (drainAddrs x.scale) = .ok sc [] →
    u.checkLanes ⟨.load, true, 4, 4⟩ (drainAddrs x.bias) = .ok bi [] →
    u.checkLanes ⟨.store, true, elemSize x.otype, elemSize x.otype⟩
      (drainDest (s.cur.spval d).toNat x.pitch (elemSize x.otype) tile.vr tile.vc) = .ok dst [] →
    ∃ t y, exec (.tdrain d a b ea eb) s = .next t ∧ t.cur.me.drain = some y ∧ t.cur.me.ws = .tdrain ∧
      t.cur.me.wreg = a ∧ t.cur.me.pc = s.cur.me.pc ∧
      y.tile = a ∧ y.cl = s.cur.cluster ∧ y.otype = x.otype ∧ y.act = x.act ∧ y.cols = tile.vc ∧ y.row = 0 ∧
      y.rows.length = tile.vr ∧ (x.scale = 0 → y.scales = List.replicate 128 0x3F800000#32) ∧
      (x.bias = 0 → y.biases = List.replicate 128 0#32) ∧
      ∀ n, ¬ Claims.inPte ([⟨0, p, hi, e, s.cur.spval b⟩] ++ sc ++ bi ++ dst) n → t.mem.get n = s.mem.get n) ∧
  (∀ (d a b : Nat) (ea eb : Bool) (s : State) (y : Drain), s.cur.me.replay = true → s.fradb.stepping = [] →
    s.fradb.passing = [] → s.cur.me.drain = some y → y.rows.length ≤ y.row →
    ∃ t, exec (.tdrain d a b ea eb) s = .next t ∧ t = { s with cur := t.cur } ∧ t.cur.rest = s.cur.rest ∧
      t.cur.me.drain = none ∧ t.cur.me.ws = .ready ∧ t.cur.me.pc = s.cur.me.pc + 4 ∧
      (∀ r : RegId, r.real = true → t.cur.value r = s.cur.value r))

/-- A group's requests of the sequencer and its accesses to tiles. -/
def Obligations.GroupTileAccess : Prop := Claims.MatrixRequest ∧ Claims.TileWrite ∧ Claims.TileDrain

/-- The arm stays at its instruction, not ready for want of its unit: it tries again (R47, R118). -/
def Sys2Proof.Claims.turnedAway (s : State) : State :=
  { s with cur := s.cur.mapMe fun m => { m with ws := .ready, turned := true } }

/-- A sequencer instruction that changes the clusters its routine drives: its own, or the six of its CLUST (R305, R314). -/
def Sys2Proof.Claims.driven (s : State) (f : Cluster → Cluster) : State :=
  let c := s.cluster s.cur.cluster
  (if c.clustUsed then c.bound else [s.cur.cluster]).foldl (fun s j => s.modCluster j f) s

/-- SRDEF writes the operator entry, VCNT the counts, SCALEB the scale addresses; PERMIT goes into
the queue to the walk engine, and stalls while that holds 32 (R121, R305, R307, R308, R312). -/
def Sys2Proof.Claims.SequencerSetup : Prop :=
  (∀ (a b : Nat) (ea eb : Bool) (s : State), (Instr.srdef a b ea eb).WellFormed →
    let srcs := s.cur.sregs a ++ s.cur.sregs b
    let n := (s.cur.sval a).toNat
    s.Ready srcs [] → s.cur.seq.isSome = true → 1 ≤ n → n ≤ 15 → (legalPair (s.cur.sval b).toNat).isSome = true →
    ∃ t, exec (.srdef a b ea eb) s = .next t ∧
      (Claims.driven s fun c => { c with optable := c.optable.set n (s.cur.sval b) }).Completes t srcs [] fun m => m.next 4) ∧
  (∀ (a b : Nat) (ea eb : Bool) (s : State), (Instr.vcnt a b ea eb).WellFormed →
    let srcs := s.cur.sregs a ++ s.cur.sregs b
    let r := (s.cur.sval a).toNat
    let c := (s.cur.sval b).toNat
    s.Ready srcs [] → s.cur.seq.isSome = true → 1 ≤ r → r ≤ 128 → 1 ≤ c → c ≤ 128 →
    ∃ t, exec (.vcnt a b ea eb) s = .next t ∧
      (Claims.driven s fun x => { x with vr := r, vc := c }).Completes t srcs [] fun m => m.next 4) ∧
  (∀ (a b : Nat) (ea eb : Bool) (s : State), (Instr.scaleb a b ea eb).WellFormed →
    let srcs := s.cur.spregs a ++ s.cur.spregs b
    s.Ready srcs [] → s.cur.seq.isSome = true → (s.cur.spval a).toNat % 4 = 0 → (s.cur.spval b).toNat % 4 = 0 →
    ∃ t, exec (.scaleb a b ea eb) s = .next t ∧
      (Claims.driven s fun x => { x with scaleA := s.cur.spval a, scaleB := s.cur.spval b, scaled := true }).Completes t
        srcs [] fun m => m.next 4) ∧
  (∀ (a b : Nat) (ea eb : Bool) (s : State) (w : Walk), (Instr.permit a b ea eb).WellFormed →
    let srcs := s.cur.sregs a ++ s.cur.sregs b
    let n := (s.cur.sval a).toNat
    let k := (s.cur.sval b).toNat
    let cl := s.cur.cluster
    s.Ready srcs [] → s.cur.seq.isSome = true → n < 8 → 1 ≤ k → (s.cluster cl).walks.getD n none = some w →
    w.permits + (((s.cluster cl).permq.filter fun x => x.1 == n).map (·.2)).sum + k ≤ 65535 →
    ((s.cluster cl).permq.length < 32 → ∃ t, exec (.permit a b ea eb) s = .next t ∧
      (s.modCluster cl fun c => { c with permq := c.permq ++ [(n, k)] }).Completes t srcs [] fun m => m.next 4) ∧
    (32 ≤ (s.cluster cl).permq.length →
      exec (.permit a b ea eb) s = .next (Claims.turnedAway s)))

/-- TWALK: with a slot that no walk occupies, no operation uses and no discard awaits, an aligned descriptor in memory, legal
fields and every span present, the slot holds the walk, with nothing fetched, no permit, in the queue neither, and no commitment (R306). -/
def Sys2Proof.Claims.WalkLoad : Prop :=
  ∀ (a b : Nat) (ea eb : Bool) (s : State) (p hi : Place) (e : Option TlbEntry) (hs : List Hit),
    (Instr.twalk a b ea eb).WellFormed →
    let srcs := s.cur.sregs a ++ s.cur.spregs b
    let n := (s.cur.sval a).toNat
    let cl := s.cur.cluster
    let c := s.cluster cl
    let d := s.walkDesc p
    let v := s.touchAll false [⟨0, p, hi, e, s.cur.spval b⟩]
    let u := if d.flags % 2 = 0 then v else v.meetHandle d.src
    let tensor := if d.flags % 2 = 0 then none else
      match u.tensorOf d.src with
      | .tensor x => if x.inside d.coords then some x else none
      | _ => none
    s.Ready srcs [] → s.cur.seq.isSome = true → n < 8 →
    (d.flags % 2 = 1 → ∀ x a, u.tensorOf d.src ≠ .error x a ∧ u.tensorOf d.src ≠ .gated a) →
    (∀ w, c.walks.getD n none = some w → w.tiles ≤ w.consumed ∧ (w.lastUse = true → w.lines = [])) →
    (∀ x ∈ c.engine, x.op.uses n = false) → (s.cur.spval b).toNat % 64 = 0 →
    s.reach .load true 64 0 (s.cur.spval b) 64 = .hit p hi e → s.readErr p = none → d.ok c.clustUsed = true →
    (d.flags % 2 = 0 → d.src % elemSize d.et = 0 ∧
      (c.clustUsed = true → d.flags.testBit 1 = true → d.blkstep % elemSize d.et = 0)) →
    u.walkPlaces ((d.walk tensor []).spans c.clustUsed) = .ok hs [] →
    s.removedHit ⟨0, p, hi, e, s.cur.spval b⟩ = false → (∀ h ∈ hs, u.removedHit h = false) →
    ∃ t w, exec (.twalk a b ea eb) s = .next t ∧
      ((u.touchAll false hs).modCluster cl fun c => { c with
        walks := c.walks.set n (some w), permq := c.permq.filter fun x => x.1 != n }).Completes t srcs []
        (fun m => m.next 4) ∧
      w.src = w64 d.src ∧ w.roleB = d.flags.testBit 1 ∧ w.lastUse = d.flags.testBit 3 ∧ w.ty = d.et ∧ w.nsp = d.n ∧
      w.klen = d.klen ∧ w.ldim = d.ldim ∧ w.mn = d.mn ∧ w.tensor = tensor ∧
      w.places = hs.map (fun h => (h.addr.toNat, h.lane, h.lo)) ∧
      w.committed = false ∧ w.permits = 0 ∧ w.data = [] ∧ w.delivered = 0 ∧ w.consumed = 0

/-- What a routine sets up for its operations. -/
def Obligations.SequencerOperands : Prop := Claims.SequencerSetup ∧ Claims.WalkLoad

/-- MMA, MMAS, MMAQ: under the conditions of R310, with fewer than four operations queued, the operation enters the
engine's queue with the counts, the scales and SAT in force, both walks are committed to it, and the sequencer goes on (R309,
R310). That under CLUST an A walk without MCAST feeds all six clusters, as the leader's table word does, is the model's choice
(log 48). -/
def Obligations.MatrixMultiply : Prop :=
  ∀ op ∈ [(Instr.mma, false, false), (Instr.mmas, true, false), (Instr.mmaq, false, true)],
  ∀ (d a b : Nat) (ea eb : Bool) (s : State) (wa wb : Walk) (pair : Pair), (op.1 d a b ea eb).WellFormed →
    let srcs := s.cur.sregs a ++ s.cur.sregs b
    let cl := s.cur.cluster
    let c := s.cluster cl
    let na := (s.cur.sval a).toNat
    let nb := (s.cur.sval b).toNat
    let e := c.optable.getD (modeSridx s.cur.me.mode) 0
    s.Ready srcs [] → s.cur.seq.isSome = true → na < 8 → nb < 8 →
    c.walks.getD na none = some wa → wa.roleB = false → wa.committed = false →
    c.walks.getD nb none = some wb → wb.roleB = true → wb.committed = false →
    legalPair e.toNat = some pair → wa.ty = entType e.toNat → wb.ty = entType e.toNat → wa.klen = wb.klen →
    (if op.2.1 then wb.nsp ≠ 0 ∧ wa.nsp = 0 ∧ entSkip e.toNat = true else wb.nsp = 0) →
    (op.2.2 = true → pair = .plusTimes ∧ entType e.toNat ∈ [9, 10] ∧ c.scaled = true) →
    (c.clustUsed = true → d ≤ 12) →
    (∀ x ∈ (if c.clustUsed then [d, d + 1, d + 2, d + 3] else [d]), ∀ j ∈ (if c.clustUsed then c.bound else [cl]),
      s.tagAt cl j x = accTag e.toNat) →
    (c.engine.filter fun x => !x.started).length < 4 →
    ∃ t, exec (op.1 d a b ea eb) s = .next t ∧
      (s.modCluster cl fun c => { c with
        engine := c.engine ++
          [⟨.mma d na nb s.cur.me.pc.toNat e ((op.2.1 || op.2.2) && c.scaled), false, 0, c.vr, c.vc, s.cur.sat, s.cur.region,
            c.scaleA, c.scaleB, []⟩]
        walks := (c.walks.set na (some { wa with committed := true })).set nb (some { wb with committed := true })
        }).Completes t srcs [] fun m => m.next 4

/-- TZERO and TFILL enter the engine's queue with the tag of ET; TLOAD with the 128 rows of 512 bytes read at its place in
program order, TSTORE with the places of its rows, where the checks pass and every page is present (R309, R311). -/
def Obligations.TileEngine : Prop :=
  (∀ op ∈ [((fun d (_ : Nat) ea eb => Instr.tzero d ea eb), false), (Instr.tfill, true)], ∀ (d a : Nat) (ea eb : Bool) (s : State),
    (op.1 d a ea eb).WellFormed →
    let srcs := if op.2 then s.cur.sregs a else []
    s.Ready srcs [] → s.cur.seq.isSome = true → s.cur.et < 11 →
    ((s.cluster s.cur.cluster).engine.filter fun x => !x.started).length < 4 →
    ∃ t, exec (op.1 d a ea eb) s = .next t ∧
      (s.modCluster s.cur.cluster fun c => { c with engine := c.engine ++
        [⟨.fill d s.cur.et (if op.2 then s.cur.sval a else 0), false, 0, c.vr, c.vc, s.cur.sat, s.cur.region,
          c.scaleA, c.scaleB, []⟩] }).Completes t
          srcs [] fun m => m.next 4) ∧
  (∀ (d a b : Nat) (ea eb : Bool) (s : State) (hs : List Hit), (Instr.tload d a b ea eb).WellFormed →
    let srcs := s.cur.spregs a ++ s.cur.sregs b
    s.Ready srcs [] → s.cur.seq.isSome = true → s.cur.et < 11 →
    (s.cur.spval a).toNat % 4 = 0 → (s.cur.sval b).toNat % 4 = 0 →
    s.copyHits .load (rowBlocks (s.cur.spval a).toNat (s.cur.sval b).toNat 512 128) = .ok hs [] →
    ((s.cluster s.cur.cluster).engine.filter fun x => !x.started).length < 4 →
    let u := s.touchAll false hs
    (∀ h ∈ hs, s.removedHit h = false) → u.tileErr (hitWords hs) = none →
    ∃ t, exec (.tload d a b ea eb) s = .next t ∧
      (u.modCluster s.cur.cluster fun c => { c with engine := c.engine ++
        [⟨.tload d s.cur.et (u.tileData (hitWords hs)), false, 0, 128, 128, s.cur.sat, s.cur.region,
          c.scaleA, c.scaleB, []⟩] }).Completes t
          srcs [] fun m => m.next 4) ∧
  (∀ (d a b : Nat) (ea eb : Bool) (s : State) (hs : List Hit), (Instr.tstore d a b ea eb).WellFormed →
    let srcs := s.cur.spregs a ++ s.cur.sregs b
    s.Ready srcs [] → s.cur.seq.isSome = true →
    (s.cur.spval a).toNat % 4 = 0 → (s.cur.sval b).toNat % 4 = 0 →
    s.copyHits .store (rowBlocks (s.cur.spval a).toNat (s.cur.sval b).toNat 512 128) = .ok hs [] →
    ((s.cluster s.cur.cluster).engine.filter fun x => !x.started).length < 4 →
    (∀ h ∈ hs, s.removedHit h = false) →
    ∃ t rows, exec (.tstore d a b ea eb) s = .next t ∧
      ((s.touchAll true hs).modCluster s.cur.cluster fun c => { c with engine := c.engine ++
        [⟨.tstore d (s.cur.spval a).toNat (s.cur.sval b).toNat rows, false, 0, c.vr, c.vc, s.cur.sat, s.cur.region, c.scaleA,
          c.scaleB, []⟩] }).Completes t srcs [] (fun m => m.next 4) ∧
      (rows : List (List (Place × Nat))).flatten = hs.map fun h => (h.lo, h.lane))

/-- TSYNC completes once the engine has finished every operation, what it wrote is visible and every PERMIT is taken, else the sequencer stays.
MSIG waits as TSYNC does; the first of a run ends the holds of its request and sends the token's value to the
requester, a later one has no effect, nor has one whose requester is DEAD.
CLUST of a leader asks the five other clusters of R165 to bind, stays until each is bound, and then goes on; without the
conditions of R165, or a second time in a run, it ends the routine with MATRIX 0x0C (R148, R165, R313, R314, R364). -/
def Obligations.SequencerEnd : Prop :=
  (∀ s : State, s.Ready [] [] → s.cur.seq.isSome = true →
    (s.engineIdle s.cur.cluster = true → ∃ t, exec .tsync s = .next t ∧ s.Completes t [] [] fun m => m.next 4) ∧
    (s.engineIdle s.cur.cluster = false →
      exec .tsync s = .next (Claims.turnedAway s))) ∧
  (∀ (a : Nat) (ea eb : Bool) (s : State), (Instr.msig a ea eb).WellFormed →
    let srcs := s.cur.sregs a
    let cl := s.cur.cluster
    let c := s.cluster cl
    s.Ready srcs [] → s.cur.seq.isSome = true →
    (s.engineIdle cl = true → c.msigDone = false → s.alive c.req.who.tid = true → ∃ t, exec (.msig a ea eb) s = .next t ∧
      ((s.dropHold c.req.id c.req.who.tid).modCluster cl fun c => { c with msigDone := true }).Departs t srcs []
        [.msig c.req.who c.req.reg cl (s.cur.sval a)] fun m => m.next 4) ∧
    (s.engineIdle cl = true → (c.msigDone = true ∨ s.alive c.req.who.tid = false) → ∃ t, exec (.msig a ea eb) s = .next t ∧
      s.Completes t [] [] fun m => m.next 4) ∧
    (s.engineIdle cl = false → exec (.msig a ea eb) s = .next (Claims.turnedAway s))) ∧
  (∀ s : State, s.Ready [] [] → s.cur.seq.isSome = true →
    let cl := s.cur.cluster
    let c := s.cluster cl
    (c.clustUsed = false → c.bound ≠ [] → (∀ j ∈ c.bound, j = cl ∨ (s.cluster j).leader = some cl) →
      ∃ t, exec .clust s = .next t ∧
        (s.modCluster cl fun c => { c with clustUsed := true }).Completes t [] [] fun m => m.next 4) ∧
    (c.clustUsed = false → c.bound = [] → ∀ (g : Group) (js : List Nat), s.neighbour c.req = some g →
      g.sixClusters = some js → js.head? = some cl → cl < s.clusters.length →
      ∃ t, exec .clust s = .next t ∧ (t.cluster cl).bound = js ∧ t.cur.me.pc = s.cur.me.pc ∧ t.cur.me.ws = .ready ∧
        t = { s with cur := t.cur, clusters := t.clusters }) ∧
    (c.clustUsed = true → ∀ x, s.cur.seq = some x →
      exec .clust s = .next
        (({ s with cur := s.cur.mapMe Arm.ready } : State).trapSeq x ⟨.matrix, 0x0C, 0, 0⟩)))

/-! ### Names, launches, skeins, watches, system (R316 to R341) -/

/-- A wait that is over: resumed, the instruction completes with nothing more to do. -/
def Sys2Proof.Claims.Resumes (i : Instr) (s : State) : Prop :=
  s.cur.me.replay = true → s.fradb.stepping = [] → s.fradb.passing = [] →
    ∃ t, exec i s = .next t ∧ t = { s with cur := t.cur } ∧ t.cur.rest = s.cur.rest ∧
      (∀ r : RegId, r.real = true → t.cur.value r = s.cur.value r) ∧ t.cur.me.pc = s.cur.me.pc + 4 ∧
      t.cur.me.ws = .ready ∧ t.cur.me.replay = false

/-- The arm stays at its instruction in a state (R42, R45). -/
def Sys2Proof.Claims.waits (s : State) (ws : WState) (wreg : Nat) (waux : W32) : State :=
  { s with cur := s.cur.mapMe fun m => m.enter s.clock ws wreg waux }

/-- A posted operation: one more outstanding (R317). -/
def Sys2Proof.Claims.posted (s : State) : State := { s with cur := { s.cur with nout := s.cur.nout + 1 } }

/-- A name operation of the arm that has the turn as it leaves: with the result of its subtree check, direct where the
core's NTLB translates the name (R54, R55). -/
def Sys2Proof.Claims.nameOp (s : State) (target : W64) (k : NKind) : Flight :=
  .nameOp ⟨.group s.cur.tid, s.cur.mine, s.cur.region, target.toNat, k, s.subtreeCheck s.cur.region target.toNat, none,
    (s.cur.me.pc, s.ir), s.pathTo s.cur.loc target.toNat⟩

/-- No operation of the arm's core to a name that is not acknowledged yet took the other path (R54). -/
def Sys2Proof.Claims.pathFree (s : State) (target : W64) : Prop := s.pathBusy s.cur.loc target.toNat = false

/-- The posted name operations: what each sends, and the word that is no operand of it (R318, R319). -/
def Sys2Proof.Claims.nameOps : List ((Nat → Nat → Bool → Bool → Instr) × Bool × (W32 → Option NKind) × Nat) :=
  [((fun a _ ea eb => Instr.wake a ea eb), false, fun _ => some .wake, 0),
   (.sig, true, fun x => if x.toNat < 32 then some (.sig x.toNat) else none, 1),
   (.ngrant, true, fun x => if x.toNat / 32 % 2048 = 0 then some (.ngrant x) else none, 3),
   (.nrevoke, true, fun x => if x.toNat / 32 % 2048 = 0 then some (.nrevoke x) else none, 3)]

/-- WAKE, SIG, DEPO, NGRANT, NREVOKE: the operation leaves for the group that pair a names, with the issuer as its source
and on the path of R54, once that is free, NOUT counts one more, and the arm goes on, where a save could record it (R45); a signal number above 31 traps NAME 1, reserved bits of the rights word NAME 3.
JOIN leaves and d is empty until the exit value arrives; of the group's own name it traps NAME 4; while the path is
not free it stays at its instruction (R54, R316 to R320). -/
def Obligations.NameOperations : Prop :=
  (∀ op ∈ Claims.nameOps, ∀ (a b : Nat) (ea eb : Bool) (s : State), (op.1 a b ea eb).WellFormed →
    let srcs := s.cur.spregs a ++ if op.2.1 then s.cur.sregs b else []
    s.Ready srcs [] → s.cur.seq = none →
    match op.2.2.1 (s.cur.sval b) with
    | some k => Claims.pathFree s (s.cur.spval a) → s.unstarted s.cur.tid < 16 → ∃ t, exec (op.1 a b ea eb) s = .next t ∧
        (Claims.posted s).Departs t srcs [] [Claims.nameOp s (s.cur.spval a) k] fun m => m.next 4
    | none => s.TrapEntered (exec (op.1 a b ea eb) s) .name op.2.2.2 (s.cur.spval a) (s.cur.sval b)) ∧
  (∀ (d a b : Nat) (ea eb : Bool) (s : State), (Instr.depo d a b ea eb).WellFormed →
    let srcs := s.cur.spregs a ++ s.cur.sregs b
    s.Ready srcs [] → s.cur.seq = none → Claims.pathFree s (s.cur.spval a) → s.unstarted s.cur.tid < 16 →
    ∃ t, exec (.depo d a b ea eb) s = .next t ∧
      (Claims.posted s).Departs t srcs []
        [Claims.nameOp s (s.cur.spval a) (.depo (d - 32) (s.cur.sval b))] fun m => m.next 4) ∧
  (∀ (d a : Nat) (ea eb : Bool) (s : State), (Instr.join d a ea eb).WellFormed →
    let r := RegId.ofS s.cur.sel d
    s.Ready (s.cur.spregs a) [r] → s.cur.seq = none →
    (s.cur.spval a ≠ s.cur.name → Claims.pathFree s (s.cur.spval a) → s.unstarted s.cur.tid < 16 → ∃ t, exec (.join d a ea eb) s = .next t ∧
      s.Departs t (s.cur.spregs a) [r] [Claims.nameOp s (s.cur.spval a) (.join r)] fun m => m.next 4) ∧
    ((16 ≤ s.unstarted s.cur.tid ∨ ¬ Claims.pathFree s (s.cur.spval a)) → s.cur.spval a ≠ s.cur.name →
      exec (.join d a ea eb) s = .next (Claims.turnedAway s)) ∧
    (s.cur.spval a = s.cur.name → s.TrapEntered (exec (.join d a ea eb) s) .name 4 (s.cur.spval a) 0))

/-- SLEEP with wake-pending set clears it and goes on, else waits; SIGW takes and clears the pending bits that its mask
meets, else waits with its destination empty, and traps NAME 2 on a mask of 0 (R14, R321). LAUNCH copies its record into the pending-launch queue
of its core while that holds fewer than four (R109, R322). TAKE takes the oldest item of its queue, or waits in it; POST
sends 16 bytes to a queue that is not full (R323); QSTAT reads the queue's state (R324). -/
def Obligations.WaitsAndTasks : Prop :=
  (∀ s : State, s.Ready [] [] → s.cur.seq = none →
    (s.cur.wakePend = true → ∃ t, exec .sleep s = .next t ∧
      ({ s with cur := { s.cur with wakePend := false } } : State).Completes t [] [] fun m => m.next 4) ∧
    (s.cur.wakePend = false → exec .sleep s = .next (Claims.waits s .sleep 0 0))) ∧
  (∀ (d a : Nat) (ea eb : Bool) (s : State), (Instr.sigw d a ea eb).WellFormed →
    let r := RegId.ofS s.cur.sel d
    let m := s.cur.sval a
    s.Ready (s.cur.sregs a) [r] → s.cur.seq = none →
    (s.cur.sigPend &&& m ≠ 0 → ∃ t, exec (.sigw d a ea eb) s = .next t ∧
      t.cur.val32 r = s.cur.sigPend &&& m ∧
      ({ s with cur := { s.cur with sigPend := s.cur.sigPend &&& ~~~m } } : State).Completes t (s.cur.sregs a) [r]
        fun m => m.next 4) ∧
    (m ≠ 0 → s.cur.sigPend &&& m = 0 → ∃ t, exec (.sigw d a ea eb) s = .next t ∧ t = { s with cur := t.cur } ∧
      t.cur.me.ws = .sigw ∧ t.cur.me.wreg = d ∧ t.cur.me.waux = m ∧ t.cur.me.pc = s.cur.me.pc ∧
      t.cur.rest = { s.cur.rest with pend := r :: s.cur.pend } ∧ t.cur.full r = false ∧
      (∀ x : RegId, x.real = true → t.cur.value x = s.cur.value x)) ∧
    (m = 0 → s.TrapEntered (exec (.sigw d a ea eb) s) .name 2 0 0)) ∧
  (∀ (a : Nat) (ea eb : Bool) (s : State) (hit : Hit) (hs : List Hit), (Instr.launch a ea eb).WellFormed →
    let x := s.cur.spval a
    let core := s.cur.loc.core
    let u := s.touchAll true [hit]
    s.Ready (s.cur.spregs a) [] → s.cur.seq = none → s.recordReach x = .ok (hit :: hs) [] →
    (s.plq.filter fun e => e.core == core).length < 4 → u.readErr hit.lo = none → s.removedHit hit = false →
    ∃ t l, exec (.launch a ea eb) s = .next t ∧
      ({ u with plq := s.plq ++ [⟨core, s.cur.who, x, l⟩] } : State).Completes t (s.cur.spregs a) [] (fun m => m.next 4) ∧
      (l : Launch).entry = u.loadAt hit.lo 8 ∧ l.args = w64 (u.loadAt (hit.lo.plus 8) 8) ∧
      l.groups = u.loadAt (hit.lo.plus 0x24) 4 ∧ l.region = u.loadAt (hit.lo.plus 0x28) 4) ∧
  (∀ (d : Nat) (ea eb : Bool) (s : State), (Instr.take d ea eb).WellFormed →
    let rs := (List.range 4).map fun i => RegId.ofS s.cur.sel (d + i)
    let q := s.stageqs.getD s.cur.info.stageq ⟨[], none, []⟩
    s.Ready [] rs → s.cur.seq = none →
    (s.cur.info.stage = true → ∀ item rest, q.items = item :: rest →
      ∃ t, exec (.take d ea eb) s = .next t ∧
        ({ s with stageqs := modAt (fun x => { x with items := rest }) s.cur.info.stageq s.stageqs } : State).Departs t
          [] rs [.takeItem s.cur.who s.cur.sel d item] fun m => m.next 4) ∧
    (s.cur.info.stage = true → q.items = [] →
      ∃ t, exec (.take d ea eb) s = .next t ∧ t.cur.me.ws = .take ∧ t.cur.me.pc = s.cur.me.pc ∧
        t.stageqs = modAt (fun x => { x with waiting := x.waiting ++ [(s.cur.tid, s.cur.sel, d)] })
          s.cur.info.stageq s.stageqs ∧ (∀ r ∈ rs, t.cur.full r = false) ∧
        t = { s with cur := t.cur, stageqs := t.stageqs }) ∧
    (s.cur.info.stage = false → s.TrapEntered (exec (.take d ea eb) s) .illegal 0x12 0 s.ir)) ∧
  (∀ (a b : Nat) (ea eb : Bool) (s : State) (hits : List Hit), (Instr.post a b ea eb).WellFormed →
    let srcs := s.cur.sregs a ++ s.cur.spregs b
    let q := (s.cur.sval a).toNat
    let x := s.cur.spval b
    s.Ready srcs [] → s.cur.seq = none → q ≤ 255 → x.toNat % 16 = 0 →
    s.checkLanes ⟨.load, true, 4, 4⟩ ((List.range 4).map fun i => (0, x + w64 (4 * i))) = .ok hits [] →
    s.mayPost q = true → s.queued q < 128 → (∀ h ∈ hits, s.removedHit h = false) →
    let u := s.touchAll false hits
    ∃ t, exec (.post a b ea eb) s = .next t ∧
      (u.pendMcheck s.cur.tid (u.laneErr 4 hits)).Departs t srcs []
        [.post s.cur.who q (hits.map fun h => w32 (u.laneVal h 4))] fun m => m.next 4) ∧
  (∀ (d a : Nat) (ea eb : Bool) (s : State), (Instr.qstat d a ea eb).WellFormed →
    let r := RegId.ofS s.cur.sel d
    let q := s.stageqs.getD (s.cur.sval a).toNat ⟨[], none, []⟩
    s.Ready (s.cur.sregs a) [r] → s.cur.seq = none → s.cur.eff.det = false → (s.cur.sval a).toNat ≤ 255 →
    ∃ t, exec (.qstat d a ea eb) s = .next t ∧
      t.cur.val32 r = w32 (q.items.length + min 255 q.waiting.length * 256 + if q.bound.isSome then 65536 else 0) ∧
      s.Completes t (s.cur.sregs a) [r] fun m => m.next 4) ∧
  (∀ (d a : Nat) (ea eb : Bool) (s : State), Claims.Resumes .sleep s ∧ Claims.Resumes (.sigw d a ea eb) s ∧
    Claims.Resumes (.take d ea eb) s)

/-- E of a handle: its share is 2^E (R167). -/
def Sys2Proof.Claims.expOf (h : W64) : Nat := h.toNat / 2 ^ 58

/-- A pair of registers as one number, the second one high (R22). -/
def Sys2Proof.Claims.pair (g : Group) (n : Nat) : W64 := g.val32 (.ofS g.sel (n + 1)) ++ g.val32 (.ofS g.sel n)

/-- A pair's two registers. -/
def Sys2Proof.Claims.both (g : Group) (n : Nat) : List RegId := [.ofS g.sel n, .ofS g.sel (n + 1)]

/-- HSPLIT of a handle with E of 1 or more halves its share: a and d both hold it with E − 1; with E = 0 an indirection is
asked for. HMERGE of two equal handles with E at most 61: d holds the handle with E + 1, a a null handle. HDROP of a null
handle has no effect, no register's bit either; else the drop leaves, a holds a null handle, NOUT counts one more. HNEW asks for a record, HBIND
for a finaliser (R170, R172, R177, R325 to R327). -/
def Sys2Proof.Claims.HandleObjects : Prop :=
  (∀ (d a : Nat) (ea eb : Bool) (s : State), (Instr.hsplit d a ea eb).WellFormed →
    let h := Claims.pair s.cur a
    let ds := Claims.both s.cur d ++ Claims.both s.cur a
    s.Ready (s.cur.spregs a) ds → s.cur.seq = none → d ≠ a → Claims.expOf h ≠ 63 → hKind h.toNat ≠ 3 →
    (1 ≤ Claims.expOf h → ∃ t, exec (.hsplit d a ea eb) s = .next t ∧ s.Completes t (s.cur.spregs a) ds (fun m => m.next 4) ∧
      Claims.pair t.cur a = h - 0x0400000000000000 ∧ Claims.pair t.cur d = h - 0x0400000000000000) ∧
    (Claims.expOf h = 0 → ∃ t, exec (.hsplit d a ea eb) s = .next t ∧
      s.Departs t [] ds [.indAlloc s.cur.tid (.ofS s.cur.sel d) (.ofS s.cur.sel a) h] fun m => m.next 4)) ∧
  (∀ (d a : Nat) (ea eb : Bool) (s : State), (Instr.hmerge d a ea eb).WellFormed →
    let h := Claims.pair s.cur a
    let ds := Claims.both s.cur d ++ Claims.both s.cur a
    s.Ready (s.cur.spregs a ++ Claims.both s.cur d) ds → s.cur.seq = none → d ≠ a → hKind h.toNat ≠ 3 →
    Claims.pair s.cur d = h → Claims.expOf h ≤ 61 →
    ∃ t, exec (.hmerge d a ea eb) s = .next t ∧
      s.Completes t (s.cur.spregs a ++ Claims.both s.cur d) ds (fun m => m.next 4) ∧
      Claims.pair t.cur d = h + 0x0400000000000000 ∧ Claims.expOf (Claims.pair t.cur a) = 63) ∧
  (∀ (a : Nat) (ea eb : Bool) (s : State), (Instr.hdrop a ea eb).WellFormed →
    let h := Claims.pair s.cur a
    s.Ready (s.cur.spregs a) (Claims.both s.cur a) → s.cur.seq = none →
    (Claims.expOf h = 63 → ∃ t, exec (.hdrop a ea eb) s = .next t ∧ Claims.pair t.cur a = h ∧
      s.Completes t [] [] fun m => m.next 4) ∧
    (Claims.expOf h ≠ 63 → ∃ t b, exec (.hdrop a ea eb) s = .next t ∧
      (b : State).Departs t [] [] [.skeinDrop (some s.cur.who) s.cur.region h] (fun m => m.next 4) ∧
      b = { s with cur := b.cur } ∧ b.cur.rest = { s.cur.rest with nout := s.cur.nout + 1 } ∧
      Claims.expOf (Claims.pair t.cur a) = 63 ∧
      ∀ r : RegId, r.real = true → r ∉ Claims.both s.cur a →
        b.cur.value r = s.cur.value r ∧ b.cur.full r = s.cur.full r)) ∧
  (∀ (d a b : Nat) (ea eb : Bool) (s : State), (Instr.hnew d a b ea eb).WellFormed →
    let srcs := s.cur.sregs a ++ s.cur.spregs b
    let k := (s.cur.sval a).toNat
    let x := s.cur.spval b
    let noParent : W64 := w64 nullHandle
    let r := RegId.ofS s.cur.sel d
    s.Ready srcs (Claims.both s.cur d) → s.cur.seq = none → k < 3 →
    let asks (desc parent : W64) (held : Option RegId) : Prop := ∃ t, exec (.hnew d a b ea eb) s = .next t ∧
      s.Departs t srcs (Claims.both s.cur d) [.skeinAlloc s.cur.tid r k desc parent held] fun m => m.next 4
    (k = 0 → x.toNat % 64 = 0 → asks x noParent none) ∧
    (k = 2 ∨ (k = 1 ∧ (x = 0 ∨ Claims.expOf x = 63)) → asks 0 noParent none) ∧
    (k = 1 → x ≠ 0 → Claims.expOf x ≠ 63 → hKind x.toNat = 1 →
      asks 0 x (if b < 64 ∧ b ≠ d then some (.ofS s.cur.sel b) else none)) ∧
    (k = 0 → x.toNat % 64 ≠ 0 → s.TrapEntered (exec (.hnew d a b ea eb) s) .misalign 3 x 0)) ∧
  (∀ (a b : Nat) (ea eb : Bool) (s : State), (Instr.hbind a b ea eb).WellFormed →
    let srcs := s.cur.spregs a ++ s.cur.spregs b
    let h := Claims.pair s.cur a
    let x := s.cur.spval b
    s.Ready srcs [] → s.cur.seq = none → Claims.expOf h ≠ 63 →
    (x = 0 → ∃ t, exec (.hbind a b ea eb) s = .next t ∧
      (Claims.posted s).Departs t srcs [] [.skeinBind s.cur.who h none] fun m => m.next 4) ∧
    (x ≠ 0 → ∀ (hit : Hit) (hs : List Hit), s.recordReach x = .ok (hit :: hs) [] →
      s.removedHit hit = false →
      ∃ t, exec (.hbind a b ea eb) s = .next t ∧
        (Claims.posted (s.touchAll true [hit])).Departs t srcs [] [.skeinBind s.cur.who h (some hit.lo)]
          fun m => m.next 4))

/-- HINFO asks the skein home for the record's state. HADDR, once no skein operation of the thread is on its way, answers
with the address of the element of a tensor that a reaches, after the skein home has met the records on the way. SCOPEW waits in its own state until the scope's home answers
(R178, R181, R328, R329). -/
def Sys2Proof.Claims.HandleReads : Prop :=
  (∀ (d a : Nat) (ea eb : Bool) (s : State), (Instr.hinfo d a ea eb).WellFormed →
    s.Ready (s.cur.spregs a) (Claims.both s.cur d) → s.cur.seq = none → s.cur.eff.det = false →
    ∃ t, exec (.hinfo d a ea eb) s = .next t ∧
      s.Departs t (s.cur.spregs a) (Claims.both s.cur d) [.hinfo s.cur.tid (.ofS s.cur.sel d) (s.cur.spval a)]
        fun m => m.next 4) ∧
  (∀ (d a b : Nat) (ea eb : Bool) (s : State) (x : TensorDesc), (Instr.haddr d a b ea eb).WellFormed →
    let idx := (List.range 4).map fun i => RegId.ofS s.cur.sel (b + i)
    let c := idx.map fun r => (s.cur.val32 r).toNat
    let srcs := s.cur.spregs a ++ idx
    let v := s.meetHandle (s.cur.spval a).toNat
    s.Ready srcs (Claims.both s.cur d) → s.cur.seq = none → (∀ f ∈ s.flight, f.skeinOf ≠ some s.cur.tid) →
    v.tensorOf (s.cur.spval a).toNat = .tensor x → (∀ i < 4, c.getD i 0 < x.dims.getD i 1) →
    ∃ t, exec (.haddr d a b ea eb) s = .next t ∧
      v.Departs t srcs (Claims.both s.cur d) [.skeinReply s.cur.tid
        [.word (.ofS s.cur.sel d) (w32 (x.address c)), .word (.ofS s.cur.sel (d + 1)) (w32 (x.address c / 2 ^ 32))]]
        fun m => m.next 4) ∧
  (∀ (d a : Nat) (ea eb : Bool) (s : State), (Instr.scopew d a ea eb).WellFormed →
    let r := RegId.ofS s.cur.sel d
    let h := Claims.pair s.cur a
    s.Ready (s.cur.spregs a) [r] → s.cur.seq = none → Claims.expOf h ≠ 63 →
    (s.notScope h.toNat = false → ∃ t, exec (.scopew d a ea eb) s = .next t ∧
      t = { s with cur := t.cur, flight := s.flight ++ [.scopewAttach s.cur.who r (.ofS s.cur.sel a) h] } ∧
      t.cur.me.ws = .scopew ∧ t.cur.me.wreg = d ∧ t.cur.me.pc = s.cur.me.pc ∧ t.cur.full r = false ∧
      ∀ x : RegId, x.real = true → t.cur.value x = s.cur.value x) ∧
    (s.notScope h.toNat = true → s.TrapEntered (exec (.scopew d a ea eb) s) .handle 2 h 2)) ∧
  (∀ (d a : Nat) (ea eb : Bool) (s : State), Claims.Resumes (.scopew d a ea eb) s)

/-- Operations on handles. The word of a null handle where the manual leaves bits open is the model's (log 22). -/
def Obligations.HandleOperations : Prop := Claims.HandleObjects ∧ Claims.HandleReads

/-- WATCH reads its 32-byte entry and asks for the watch, or answers with the status of the first rule that refuses it.
UNWATCH asks for the end of the watch, WARM ends its throttle at once, which forms its held records, and begins a period on
every die that homes a part (log 18), WSTAT
reads its state; of a watch that is absent or not the region's they answer with its status. d is empty until the answer
arrives (R183, R190, R191, R330, R331). -/
def Obligations.WatchOperations : Prop :=
  (∀ (d a : Nat) (ea eb : Bool) (s : State) (hits : List Hit), (Instr.watch d a ea eb).WellFormed →
    let r := RegId.ofS s.cur.sel d
    let x := s.cur.spval a
    let u := s.touchAll false hits
    let e := watchEntry (hits.map fun h => u.laneVal h 4)
    let v := u.pendMcheck s.cur.tid (u.laneErr 4 hits)
    s.Ready (s.cur.spregs a) [r] → s.cur.seq = none → x.toNat % 32 = 0 →
    s.checkLanes ⟨.load, true, 4, 4⟩ ((List.range 8).map fun i => (0, x + w64 (4 * i))) = .ok hits [] →
    ¬ (e.base ≤ x.toNat ∧ x.toNat < e.base + e.len * 64) →
    (∀ h ∈ hits, ∀ pa, h.lo = .dev pa → u.watched pa = false) → (∀ h ∈ hits, s.removedHit h = false) →
    ∃ t, exec (.watch d a ea eb) s = .next t ∧
      v.Departs t (s.cur.spregs a) [r]
        [match v.admitWatch v.cur e with
          | .ok w => .watchInstall s.cur.tid r (some w) (w32 w.wid)
          | .error code => .watchInstall s.cur.tid r none (w32 (0x80000000 + code))]
        fun m => m.next 4) ∧
  (∀ op ∈ [(Instr.unwatch, 0), (Instr.warm, 1), (Instr.wstat, 2)], ∀ (d a : Nat) (ea eb : Bool) (s : State),
    (op.1 d a ea eb).WellFormed →
    let r := RegId.ofS s.cur.sel d
    s.Ready (s.cur.sregs a) [r] → s.cur.seq = none → (op.2 = 2 → s.cur.eff.det = false) →
    let answers (b : State) (f : Flight) : Prop := ∃ t, exec (op.1 d a ea eb) s = .next t ∧
      b.Departs t (s.cur.sregs a) [r] [f] fun m => m.next 4
    match s.watches.find? fun w => w.wid == (s.cur.sval a).toNat with
    | none => answers s (.watchQuery s.cur.tid r (w32 0x80000007))
    | some w =>
      if s.inSubtree s.cur.region w.installer = false then answers s (.watchQuery s.cur.tid r (w32 0x80000003))
      else if op.2 = 0 then answers s (.unwatch s.cur.tid r w.wid 0)
      else if op.2 = 1 then answers ((List.range 6).foldl (fun s i => if (w.on i).homes then
          ((s.submitRuns w i (runsOf ((w.on i).held.length + 1) (sortRecs (w.on i).held))).modWatchDie w.wid i fun p =>
            { p with held := [], runaway := false, throttled := 0, used := 0, period := s.clock }) else s) s)
          (.watchQuery s.cur.tid r 0)
      else
        let held := (w.dies.map fun p => p.held.length).sum
        answers s (.watchQuery s.cur.tid r (w32 (1 + (if 0 < held then 2 else 0)
          + (if w.dies.any (·.runaway) then 4 else 0) + min 65535 held * 65536))))

/-- A special register of 64 bits as SRD reads it; the others. WSREF and CLOCK stand apart (R333). -/
def Sys2Proof.Claims.special (s : State) (b : Nat) : W64 :=
  let g := s.cur
  let low (x : W32) : W64 := x.setWidth 64
  match b with
  | 0 => low g.me.mode
  | 1 => g.name
  | 2 => low g.rank
  | 3 => low g.ngroups
  | 4 => low g.nbidx
  | 5 => low (w32 g.region)
  | 6 => low g.launchId
  | 8 => low g.tcause
  | 9 => g.tpc
  | 10 => g.taddr
  | 11 => low g.tinfo
  | 12 => g.spwin
  | 13 => if g.seq.isSome then 0 else 0xFE80000000000000
  | 14 => g.eff.seed
  | 15 => w64 ((if g.armA.occ then 1 else 0) + (if g.armB.occ then 2 else 0) + (if g.sel then 4 else 0)
      + g.nerr % 256 * 256 + min 255 g.nout * 65536)
  | 16 => w64 ((g.armA.depth + g.armB.depth * 65536) % 2 ^ 32)
  | _ => w64 ((s.die g.die).faults.length % 16 + (if (s.die g.die).drop then 16 else 0)
      + min 255 (s.parkedOn g.die) * 256)

/-- SRD reads each special register into a, or the pair a: CLOCK the clock at the read, WSREF the bank that refreshes
and how long it has.
SWR changes the writable fields alone: MODE, TCAUSE's CAUSE and DETAIL, TPC, TADDR, TINFO, NERR cleared by ones, depths
of DSTKP lowered, DROP cleared by a one; of a register with no writable field it traps ILLEGAL 0x11 (R333, R334).
The clock at a read of CLOCK is a free value, and its cycles count nanoseconds (log 6). -/
def Obligations.SpecialRegisters : Prop :=
  (∀ (a b : Nat) (s : State), (Instr.srd a b).WellFormed →
    let r := RegId.ofS s.cur.sel a
    let ds := if b ∈ [1, 7, 9, 10, 12, 13, 14] then Claims.both s.cur a else [r]
    s.Ready [] ds → (b = 18 → s.cur.privileged = true) → (b ∈ [7, 17, 18] → s.cur.eff.det = false) →
    (b = 15 → s.cur.eff.det = false ∨ s.cur.nout = 0) →
    (b ∉ [7, 17] → ∃ t, exec (.srd a b) s = .next t ∧ s.Completes t [] ds (fun m => m.next 4) ∧
      if b ∈ [1, 9, 10, 12, 13, 14] then Claims.pair t.cur a = Claims.special s b
      else t.cur.val32 r = (Claims.special s b).setWidth 32) ∧
    (b = 7 → ∃ t, exec (.srd a b) s = .next t ∧
      ({ s with clock := t.clock, fresh := s.fresh + 1 } : State).Completes t [] ds (fun m => m.next 4) ∧
      Claims.pair t.cur a = t.clock) ∧
    (b = 17 → ∃ t, exec (.srd a b) s = .next t ∧
      s.Completes t [] ds (fun m => m.next 4) ∧
      let ns := (s.clock - (s.die s.cur.die).bankAt).toNat
      t.cur.val32 r = w32 (((s.die s.cur.die).bank + ns / 1000) % 32 + ns % 1000 * 32))) ∧
  (∀ (a b : Nat) (s : State), (Instr.swr a b).WellFormed →
    let x := s.cur.sval a
    let srcs := if b ∈ [1, 7, 9, 10, 12, 13, 14] then s.cur.spregs a else s.cur.sregs a
    s.Ready srcs [] → (b = 18 → s.cur.privileged = true) →
    let puts (u : State) : Prop := ∃ t, exec (.swr a b) s = .next t ∧ u.Completes t srcs [] fun m => m.next 4
    let w : W32 := if s.cur.seq.isSome then 0x000F3FFF else 0x00003FFF
    (b = 0 → ∃ t, exec (.swr a b) s = .next t ∧ s.Completes t srcs [] fun m =>
      { m.next 4 with mode := (s.cur.me.mode &&& ~~~w) ||| (x &&& w) }) ∧
    (b = 8 → puts { s with cur := { s.cur with tcause := (s.cur.tcause &&& 0xFFFF00F0) ||| (x &&& 0x0000FF0F) } }) ∧
    (b = 9 → puts { s with cur := { s.cur with tpc := s.cur.spval a } }) ∧
    (b = 10 → puts { s with cur := { s.cur with taddr := s.cur.spval a } }) ∧
    (b = 11 → puts { s with cur := { s.cur with tinfo := x } }) ∧
    (b = 15 → puts { s with cur := { s.cur with nerr := ((w32 s.cur.nerr) &&& ~~~(x >>> (8 : Nat))).toNat % 256 } }) ∧
    (b = 16 → s.cur.seq.isSome = true → puts s) ∧
    (b = 16 → s.cur.seq = none → (∀ c n, s.damaged (s.cur.recAt c n) = false) →
      ∃ t, exec (.swr a b) s = .next t ∧ t = { s with cur := t.cur } ∧ t.cur.rest = s.cur.rest ∧
        t.cur.me.pc = s.cur.me.pc + 4 ∧ (∀ r : RegId, r.real = true → t.cur.value r = s.cur.value r) ∧
        ∀ c, let old := s.cur.arm c
          let depth := if c then x.toNat / 65536 else x.toNat % 65536
          if depth ≤ old.depth then
            (t.cur.arm c).dstk = ((s.stackOf s.cur c).drop (old.depth - depth)).take 4 ∧ (t.cur.arm c).deep = depth - 4
          else (t.cur.arm c).dstk = old.dstk ∧ (t.cur.arm c).deep = old.deep) ∧
    (b = 18 → puts (s.modDie s.cur.die fun y => { y with drop := y.drop && !x.getLsbD 4 })) ∧
    (b ∈ [1, 2, 3, 4, 5, 6, 7, 12, 13, 14, 17] → s.cur.seq = none →
      s.TrapEntered (exec (.swr a b) s) .illegal 0x11 0 s.ir))

/-- TLBINV waits until no die can supply the translations of its set, and then completes. FBREAD takes the oldest entry of
the die's fault buffer, of eight words, or zeros. REPLAY has every parked arm of the group, or of the die, perform its
instruction again; with none it has no effect. SETCOH and MIGRATE freeze a present page that is not watched and set its publication on its way, or
answer with the status of R339 (R82, R336 to R339). Privileged: in a group outside region 0 each traps PRIV (R226). -/
def Obligations.TranslationServices : Prop :=
  (∀ (a b c : Nat) (s : State), (Instr.tlbinv a b c).WellFormed →
    s.Ready ((if c = 0 then s.cur.spregs a else []) ++ if c ≤ 1 then s.cur.spregs b else []) [] →
    s.cur.privileged = true →
    exec (.tlbinv a b c) s = .next { Claims.waits s .arriving 0 0 with
      flight := s.flight ++ [.tlbinv s.cur.tid s.cur.sel c (s.cur.spval a).toNat (s.cur.spval b).toNat] }) ∧
  (∀ (a b c : Nat) (s : State), Claims.Resumes (.tlbinv a b c) s) ∧
  (∀ (a : Nat) (s : State), (Instr.fbread a).WellFormed →
    let rs := (List.range 8).map fun i => RegId.ofS s.cur.sel (a + i)
    let fs := (s.die s.cur.die).faults
    let ws : List Nat := match fs with
      | [] => List.replicate 8 0
      | m :: _ => [m.va % 2 ^ 32, m.va / 2 ^ 32 % 2 ^ 32, m.troot % 2 ^ 32, m.troot / 2 ^ 32 % 2 ^ 32,
          m.region % 65536 + (1 + (if m.isW then 2 else 0) + (if m.isX then 4 else 0) + (if m.isSeq then 8 else 0)) * 2 ^ 16
            + m.psize % 256 * 2 ^ 24,
          min 65535 m.npark, m.first % 2 ^ 32, m.first / 2 ^ 32 % 2 ^ 32]
    s.Ready [] rs → s.cur.privileged = true →
    ∃ t, exec (.fbread a) s = .next t ∧
      (s.modDie s.cur.die fun d => { d with faults := fs.drop 1 }).Departs t [] rs
        [.fbread s.cur.tid ((rs.zip ws).map fun x => .word x.1 (w32 x.2))] fun m => m.next 4) ∧
  (∀ (s : State) (i : Instr) (srcs : List RegId) (p : Group → Bool), i.WellFormed →
    ((∃ a, i = .replay a ∧ srcs = s.cur.spregs a ∧ p = s.servesName (s.cur.spval a).toNat) ∨
      (i = .replayDie ∧ srcs = [] ∧ p = fun g => g.die == s.cur.die)) →
    s.Ready srcs [] → s.cur.privileged = true →
    let parked (g : Group) : Prop := p g = true ∧ ∃ b, (g.arm b).occ = true ∧ (g.arm b).ws = .parked
    ((∃ g ∈ s.threads, parked g) → ∃ t, exec i s = .next t ∧ (s.replayWhere p).Completes t srcs [] fun m => m.next 4) ∧
    ((∀ g ∈ s.threads, ¬ parked g) → ∃ t, exec i s = .next t ∧ s.Completes t [] [] fun m => m.next 4)) ∧
  (∀ op ∈ [(Instr.setcoh, false), (Instr.migrate, true)], ∀ (a b c : Nat) (s : State), (op.1 a b c).WellFormed →
    let srcs := (List.range (if op.2 then 6 else 4)).map fun i => RegId.ofS s.cur.sel (a + i)
    let r := RegId.ofS s.cur.sel b
    let va := (Claims.pair s.cur a).toNat
    let troot := (Claims.pair s.cur (a + 2)).toNat
    let word := (Claims.pair s.cur (a + 4)).toNat
    s.Ready srcs [r] → s.cur.privileged = true →
    let answers (x : W32) : Prop := ∃ t, exec (op.1 a b c) s = .next t ∧ t.cur.val32 r = x ∧
      s.Completes t srcs [r] fun m => m.next 4
    match s.walk troot va with
    | .leaf pte pteAt psize =>
      let n := pageBytes psize
      let old := leafPlace pte psize (va / n * n)
      if pteCoh pte = 3 then ∃ t, exec (op.1 a b c) s = .next t ∧ t = { s with cur := t.cur } ∧ t.cur.me.pc = s.cur.me.pc
      else if s.pageWatched old n then answers 2
      else if op.2 = true ∧ badFrame word psize c = true then answers 3
      else ∃ t x new, exec (op.1 a b c) s = .next t ∧
        ((s.storeDev pteAt 8 (pte ||| 6)).untranslate fun e => e.pteAt == pteAt).Departs t srcs [r]
          [.coh s.cur.tid r pteAt x old n new] (fun m => m.next 4) ∧
        (op.2 = false → new = none) ∧ (op.2 = true → (new : Option Place).isSome = true)
    | _ => answers 1) ∧
  (∀ a b c : Nat, ∀ i ∈ [Instr.replayDie, .tlbinv a b c, .fbread a, .replay a, .setcoh a b c, .migrate a b c, .wsload a c,
      .halt a, .haltRelease a, .swapout a b], ∀ s : State, s.cur.me.replay = false → s.fradb.stepping = [] →
    s.fradb.passing = [] → s.cur.me.owes = [] → s.cur.seq = none → s.cur.region ≠ 0 → s.TrapEntered (exec i s) .priv 1 0 s.ir)

/-- WSLOAD with aligned offset and length in range and every page of its source present waits until the target dies are
quiet (WSLOAD_COMPLETE). HALT stops the named group, whose save record says so where it is SAVED and whose atomic buffer drains, and waits until it has
stopped; its own group stops after the instruction; HALT with c = 1 releases it; of a group that is not RESIDENT or SAVED neither has an effect. SWAPOUT of a resident group sets its swap on its way, else answers 1
(R340, R341). -/
def Obligations.GroupServices : Prop :=
  (∀ (a c : Nat) (s : State) (hits : List Hit), (Instr.wsload a c).WellFormed →
    let srcs := (List.range 4).map fun i => RegId.ofS s.cur.sel (a + i)
    let src := Claims.pair s.cur a
    let off := (s.cur.val32 (.ofS s.cur.sel (a + 2))).toNat
    let len := (s.cur.val32 (.ofS s.cur.sel (a + 3))).toNat
    let ps := pieces 4200 src.toNat len
    s.Ready srcs [] → s.cur.privileged = true → off % 256 = 0 → len % 256 = 0 → 0 < len → off + len ≤ 2 ^ 28 →
    src.toNat / 2 ^ 57 ≠ 127 →
    s.checkLanes ⟨.load, true, 1, 1⟩ (ps.map fun p => (0, w64 p.1)) = .ok hits [] →
    (∀ h ∈ hits, s.removedHit h = false) →
    let u := (s.touchAll false hits).modCur fun g => g.mapMe fun a => { a with park := 0 }
    exec (.wsload a c) s = .next { Claims.waits u .wsload 0 0 with
      flight := u.flight ++ [.wsload s.cur.tid s.cur.sel c off src ((hits.zip ps).map fun x => (x.1.lo, x.2.2))] }) ∧
  (∀ (a c : Nat) (s : State), s.cur.me.ws = .ready → s.cur.me.park = 0 → Claims.Resumes (.wsload a c) s) ∧
  (∀ (a : Nat) (s : State), (Instr.halt a).WellFormed →
    let name := (s.cur.spval a).toNat
    s.Ready (s.cur.spregs a) [] → s.cur.privileged = true →
    (∀ g, s.groupOf name = some g → g.migrating = false →
      (let u := ((s.modThread name fun g => { g with halted := true }).syncRecord name).flush name
       (name ≠ s.cur.tid → exec (.halt a) s = .next { Claims.waits u .arriving 0 0 with
         flight := u.flight ++ [.halt s.cur.tid s.cur.sel name] }) ∧
       (name = s.cur.tid → ∃ t, exec (.halt a) s = .next t ∧ u.Completes t (s.cur.spregs a) [] fun m => m.next 4)) ∧
      ∃ t, exec (.haltRelease a) s = .next t ∧
        ((s.modThread name fun g => { g with halted := false, faulted := false }).syncRecord name).Completes t
          (s.cur.spregs a) [] fun m => m.next 4) ∧
    ((s.groupOf name = none ∨ ∃ g, s.groupOf name = some g ∧ g.migrating = true) →
      (∃ t, exec (.halt a) s = .next t ∧ s.Completes t [] [] fun m => m.next 4) ∧
      ∃ t, exec (.haltRelease a) s = .next t ∧ s.Completes t [] [] fun m => m.next 4)) ∧
  (∀ (a : Nat) (s : State), Claims.Resumes (.halt a) s) ∧
  (∀ (a b : Nat) (s : State), (Instr.swapout a b).WellFormed →
    let name := (s.cur.spval a).toNat
    let r := RegId.ofS s.cur.sel b
    s.Ready (s.cur.spregs a) [r] → s.cur.privileged = true →
    (∀ g, s.groupOf name = some g → g.resident = true → g.migrating = false →
      ∃ t, exec (.swapout a b) s = .next t ∧
        s.Departs t (s.cur.spregs a) [r] [.swapout s.cur.tid r name] fun m => m.next 4) ∧
    ((s.groupOf name = none ∨ ∃ g, s.groupOf name = some g ∧ (g.resident = false ∨ g.migrating = true)) →
      ∃ t, exec (.swapout a b) s = .next t ∧ t.cur.val32 r = 1 ∧ s.Completes t (s.cur.spregs a) [r] fun m => m.next 4))

/-! ### Events: what arrives, completes or happens outside an instruction -/

/-- The event of an operation in flight takes the oldest of its kind: it happens to the state without the operation, as
k says. -/
def Sys2Proof.Claims.Delivers (s : State) (i : Sys2Proof.Instr) (f : Flight) (k : State → State → Prop) : Prop :=
  ∀ pre post, s.flight = pre ++ f :: post → (∀ x ∈ pre, x.event ≠ i) →
    ∃ t, exec i s = .next t ∧ k { s with flight := pre ++ post } t

/-- The destinations of a thread filled, in order (R217). -/
def Sys2Proof.Claims.filled (u : State) (tid : Nat) (fs : List Fill) : State := u.modThread tid fun g => fs.foldl Group.fill g

/-- An arm of a thread that waits for its operation is resumed. -/
def Sys2Proof.Claims.armDone (u : State) (tid : Nat) (armB : Bool) : State :=
  u.modThread tid fun g => g.mapArm armB fun a =>
    if a.occ && a.ws == .arriving then { a with ws := .ready, replay := true } else a

/-- LOAD_DATA_RETURN, ATOMIC_RETURN, VSFU_COMPLETE, FBREAD_REPLY: the destinations take the values and are full, and an error
of the response is pending (R217, R280, R286, R337, R391); a reply that an ended thread takes no more is discarded (R249),
and lanes that come before the rest of their instruction leave the register empty (R439). STORE_PERFORMED and
CACHE_MAINTENANCE_COMPLETE take the operation out of what is outstanding (R91, R292). COPY_COMPLETE ends a copy of which every
line is written, and else writes its next line, with the values that its sources held at issue and nothing beside (R299). -/
def Obligations.ReturnEvents : Prop :=
  (∀ (s : State) (who : Who) (tid : Nat) (fs : List Fill) (e : Option MCheck) (far : List Far),
    Claims.Delivers s .loadDataReturn (.load who fs e far)
      (fun u t => t = (Claims.filled u who.tid fs).pendMcheck who.tid e) ∧
    Claims.Delivers s .atomicReturn (.atomic who fs e far)
      (fun u t => t = (Claims.filled u who.tid fs).pendMcheck who.tid e) ∧
    Claims.Delivers s .vsfuComplete (.sfu tid fs) (fun u t => t = Claims.filled u tid fs) ∧
    Claims.Delivers s .fbreadReply (.fbread tid fs) (fun u t => t = Claims.filled u tid fs) ∧
    Claims.Delivers s .storePerformed (.store who far) (fun u t => t = u) ∧
    Claims.Delivers s .cacheMaintenanceComplete (.maint who) (fun u t => t = u) ∧
    ∀ region loc, Claims.Delivers s .loadDataReturn (.discarded tid region loc far) fun u t => t = u) ∧
  (∀ (s : State) (tid : Nat) (j : CopyJob), s.copiesRun tid = true →
    (j.todo = [] → Claims.Delivers s .copyComplete (.copy tid j) fun u t => t = u.pendMcheck tid j.err) ∧
    ∀ (ws rest : List CopyWord), nextLine j.todo = (ws, rest) → ws ≠ [] → s.ev = [1] →
      (∀ w ∈ ws, w.srcErr = none ∧ w.dstErr = none ∧ (∃ a, w.src = .dev a) ∧ ∃ a, w.dst = .dev a) →
      s.lineWaits ws = false →
      Claims.Delivers s .copyComplete (.copy tid j) fun u t =>
        (∀ w ∈ ws, u.wordNow w = w ∧ u.gated w.dst = none) → u.lineWaits ws = false →
        (rest = [] → t = (u.writeLine ws).pendMcheck tid j.err) ∧
        (rest ≠ [] → t = { u.writeLine ws with
          flight := (u.writeLine ws).flight ++ [.copy tid { j with far := [], todo := rest }] }) ∧
        ∀ a, (∀ w ∈ ws, ∀ b, w.dst = .dev b → a < b ∨ b + 4 ≤ a) → t.mem.get a = s.mem.get a) ∧
  (∀ (g : Group) (n : Nat) (x : W32), n < 48 →
    (g.fill (.word (.s n) x)).val32 (.s n) = x ∧ (g.fill (.word (.s n) x)).full (.s n) = true ∧
    (g.fill (.word (.s n) x)).pend = g.pend.erase (.s n) ∧
    ∀ r : RegId, r.real = true → r ≠ .s n →
      (g.fill (.word (.s n) x)).value r = g.value r ∧ (g.fill (.word (.s n) x)).full r = g.full r) ∧
  (∀ (g : Group) (n : Nat) (m : Mask) (xs : List W32) (tag : Nat), n < 128 →
    let h := g.fill (.lanes n m xs tag)
    (∀ k < 96, h.lane n k = if m.getLsbD k then xs.getD k 0 else g.lane n k) ∧ (h.vreg n).tag = tag ∧
    h.full (.v n) = true ∧ h.pend = g.pend.erase (.v n) ∧
    (∀ r : RegId, r.real = true → r ≠ .v n → h.value r = g.value r ∧ h.full r = g.full r) ∧
    let p := g.fill (.part n m xs tag)
    (∀ k < 96, p.lane n k = if m.getLsbD k then xs.getD k 0 else g.lane n k) ∧ p.full (.v n) = false ∧ p.pend = g.pend ∧
    ∀ r : RegId, r.real = true → r ≠ .v n → p.value r = g.value r ∧ p.full r = g.full r)

/-- RED_APPLY applies a drained contribution to its word where no error of a lost host, peer or die meets it (R390), or under DET enters it in its set; ATOMIC_BUFFER_DRAIN sends the
group's buffered contributions on in ascending lane order; REDUCTION_SET_APPLY applies the sets of the epoch that closed
first, after which none of them is left, and no other epoch's before it (R98,
R144, R290, R291). BARRIER_ARRIVAL counts an arrival that R296 allows, advances P of the issuer and completes phases, whose
waiters go on (R294 to R296). WALK_COMPLETE appends the miss to the fault buffer, or sets DROP when it is full; a miss that
waited for an entry of the miss table, and whose walk finds the page, lets its arms go on (R78, R80, R386).
The order of an event's payload is the model's (log 2). -/
def Obligations.ReductionAndWalkEvents : Prop :=
  (∀ (s : State) (c : Contrib), c.et ∈ [0, 1, 2, 6] →
    s.redWaits c = false → s.gated c.place = none → s.redq = [] →
    (c.det = false → s.redErr c = none → Claims.Delivers s .redApply (.redApply c) fun u t =>
      t = (u.storeAt c.place 4 (Claims.atomVal (AtomOp.ofCode c.op) c.et 32 c.sat c.pc
        (u.loadAt c.place 4) c.value.toNat)).settleSets c.launch) ∧
    (c.det = true → c.ordered = true → s.setsLost c = false → s.setsFull c = false →
      Claims.Delivers s .redApply (.redApply c) fun u t =>
        t = State.settleSets { u with rsets := u.rsets ++ [c] } c.launch)) ∧
  (∀ (s : State) (tid : Nat), Claims.Delivers s .atomicBufferDrain (.drain tid) fun u t =>
    ∃ cs : List Contrib, cs.Perm (u.abuf.filter fun c => c.who.tid == tid) ∧ cs.Pairwise (fun x y => x.lane ≤ y.lane) ∧
      let v : State := { u with
        abuf := u.abuf.filter fun c => !(c.who.tid == tid), flight := u.flight ++ cs.map .redApply }
      t = { v with cur := v.wakeFlush v.cur, others := v.others.map v.wakeFlush }) ∧
  (∀ (s : State) (launch epoch : Nat), s.ev = [launch, epoch] →
    (s.closed.head? = some (launch, epoch) → (∀ c ∈ s.rsets, s.redWaits c = false) →
      ∃ t, exec .reductionSetApply s = .next t ∧
        t.rsets = s.rsets.filter fun c => !(c.launch == launch && c.epoch == epoch)) ∧
    (s.closed.head? ≠ some (launch, epoch) → exec .reductionSetApply s = .next s)) ∧
  (∀ (s : State) (tid : Nat) (armB : Bool) (a b : Nat) (w : Bool) (g h : Group), tid ≠ 0 → h.tid ≠ 0 →
    s.thread tid = some g → s.barCheck g a = .ok h → arriveBad h.bar (g.phase a) b = none →
    Claims.Delivers s .barrierArrival (.arrive tid armB a b w) fun _ t =>
      let q := g.phase a
      let x := Bar.settle 4 (h.bar.bump (h.bar.dist q) b)
      (∀ y, t.thread h.tid = some y → y.bar = x) ∧
      (∀ y, t.thread tid = some y → y.phase a = (q + 1) % 2 ^ 32) ∧
      (∀ y, t.thread tid = some y → (w = false ∨ x.passed q = true) →
        (y.arm armB).ws = .ready ∧ (y.arm armB).replay = true) ∧
      t.mem = s.mem) ∧
  (∀ (x : Bar), x.n ≠ 0 → x.c0 = x.n → x.c1 ≠ x.n → x.c1 < x.n → x.c2 < x.n → x.c3 < x.n →
    Bar.settle 4 x = ⟨x.n, (x.b + 1) % 2 ^ 32, x.c1, x.c2, x.c3, 0⟩) ∧
  (∀ (s : State) (d : Nat) (m x : Miss) (rest : List Miss), (s.die d).misses = x :: rest →
    x.samePage m.troot m.va m.psize = true → d < s.dies.length →
    Claims.Delivers s .walkComplete (.walk d m) fun u t =>
      (u.foundLate x = true →
        t = x.arms.foldl State.unpark (u.modDie d fun y => { y with misses := rest })) ∧
      (u.foundLate x = false →
      (t.die d).misses = rest ∧
      ((u.die d).faults.length < 8 → (t.die d).faults = (u.die d).faults ++ [x] ∧ (t.die d).drop = (u.die d).drop) ∧
      (8 ≤ (u.die d).faults.length → (t.die d).faults = (u.die d).faults ∧ (t.die d).drop = true) ∧
      ((u.die d).faults = [] → (u.die d).servicer ≠ 0 →
        t.flight = u.flight ++
          [.nameOp ⟨.device d, ⟨false, false⟩, 0, (u.die d).servicer, .sig 0, u.subtreeCheck 0 (u.die d).servicer, none,
            (0, 0), .home⟩])))

/-- MCHECK_DELIVER takes of an arm's pending errors that of its oldest instruction's lowest lane as an MCHECK trap at the
arm's boundary (R391); that each of the others then has a record is the model's choice (log 53). TLBINV_COMPLETE: no cached
translation of the set is left, and the arm goes on (R336). WSLOAD_COMPLETE on quiet dies copies the source and the arm goes
on (R340). HALT_STOPPED: once everything of the named group is complete a HALT goes on; a SWAPOUT starts the swap of a unit
that can be swapped, and is answered 0 once the group has been saved, when it names no group any more, 1 when the group has
exited (R341). COH_CHANGE_PUBLISH publishes the new entry, the move done, and answers 0 (R82,
R339). -/
def Sys2Proof.Claims.ServiceEvents : Prop :=
  (∀ (s : State) (armB : Bool) (m : MCheck), s.ev = [s.cur.tid, if armB then 1 else 0] → s.cur.tid ≠ 0 → s.cur.sel = armB →
    oldestMcheck (s.cur.mchecksOf armB) = some m → s.canIssue s.cur armB = true → s.cur.me.replay = false →
    let u : State := { s with cur := { s.cur with mchecks := s.cur.mchecks.filter fun x => x.armB != armB } }
    exec .mcheckDeliver s = .next (((s.cur.mchecksOf armB).erase m).foldl
      (fun t x => t.mcheckRecord s.cur.region s.cur.name.toNat s.cur.faultLoc x)
      (u.trapped ⟨.mcheck, m.detail, m.addr, w32 m.lane⟩))) ∧
  (∀ (l : List MCheck) (m : MCheck), oldestMcheck l = some m → m ∈ l ∧ ∀ x ∈ l,
    m.issued.toNat < x.issued.toNat ∨ (m.issued = x.issued ∧ m.lane ≤ x.lane)) ∧
  (∀ (s : State) (tid c va troot : Nat) (armB : Bool),
    Claims.Delivers s .tlbinvComplete (.tlbinv tid armB c va troot) fun u t =>
      let kept (e : TlbEntry) : Prop := c ≠ 2 ∧ (c = 1 → e.troot ≠ troot) ∧
        (c ≠ 1 → e.troot = troot → va / pageBytes e.psize ≠ e.base / pageBytes e.psize)
      t = Claims.armDone { u with tlb := t.tlb, gone := t.gone } tid armB ∧
      (∀ e, e ∈ t.tlb ↔ e ∈ s.tlb ∧ kept e) ∧ ∀ e, e ∈ t.gone ↔ e ∈ s.gone ∧ kept e) ∧
  (∀ (s : State) (tid : Nat) (armB : Bool) (die off pa n : Nat) (src : W64) (g : Group), tid ≠ 0 → s.thread tid = some g →
    s.dieQuiet g.launchId die = true → die < 6 → s.partsErr src.toNat [(.dev pa, n)] = none → s.weights.wf = true →
    s.mem.wf = true →
    Claims.Delivers s .wsloadComplete (.wsload tid armB die off src [(.dev pa, n)]) fun _ t =>
      (∀ i < n, t.weights.get (weightKey die (off + i)) = s.mem.get (pa + i)) ∧
      (∀ k, (k < weightKey die off ∨ weightKey die off + n ≤ k) → t.weights.get k = s.weights.get k) ∧
      t.mem = s.mem ∧
      ∀ y, t.thread tid = some y → (y.arm armB).ws = .ready ∧ (y.arm armB).replay = true) ∧
  (∀ (s : State) (tid target : Nat) (armB : Bool), s.drainedOf target = true →
    Claims.Delivers s .haltStopped (.halt tid armB target) fun u t => t = Claims.armDone u tid armB) ∧
  (∀ (s : State) (tid target : Nat) (d : RegId),
    (s.groupOf target = none → Claims.Delivers s .haltStopped (.swapout tid d target) fun u t =>
      t = (Claims.filled u tid [.word d (if target = 0 then 0 else 1)]).syncRecord tid) ∧
    (∀ g, s.groupOf target = some g → s.swappable g = true → s.stopped g = false →
      Claims.Delivers s .haltStopped (.swapout tid d target) fun u t =>
        t = { u.startSwap g with flight := (u.startSwap g).flight ++ [.swapout tid d target] })) ∧
  (∀ (s : State) (tid pteAt pte n : Nat) (old : Place) (d : RegId),
    (∀ a, old = .dev a → (s.mdie (sectorOf a)).held = []) →
    Claims.Delivers s .cohChangePublish (.coh tid d pteAt pte old n none) fun u t =>
      t = Claims.filled (((u.settlePage old n).storeDev pteAt 8 pte).untranslate fun e => e.pteAt == pteAt) tid
        [.word d 0]) ∧
  (∀ (s : State) (tid pteAt pte a b n : Nat) (d : RegId), (s.mdie (sectorOf a)).held = [] →
    Claims.Delivers s .cohChangePublish (.coh tid d pteAt pte (.dev a) n (some (.dev b))) fun u t =>
      t = Claims.filled (((((u.settlePage (.dev a) n).movePage (.dev a) (.dev b) n).settlePage (.dev b) n).storeDev
        pteAt 8 pte).untranslate fun e => e.pteAt == pteAt) tid [.word d 0])

/-- A request of a host or a peer. -/
def Sys2Proof.Claims.request (s : State) (k : Nat) : HostReq :=
  ⟨s.arg (k + 4) * 2 ^ 32 + s.arg (k + 5) % 2 ^ 32, s.arg k, s.arg (k + 1), s.arg (k + 2), s.arg (k + 3), none⟩

/-- Nothing earlier of the request's port waits for a die (R105). -/
def Sys2Proof.Claims.inTurn (s : State) (r : HostReq) : Prop := s.heldBefore r = none ∧ s.latchedBefore r = none

/-- HOST_ACCESS, and PEER_REQUEST of this device's id, on a memory die that is up: a read is answered with the bytes of
device memory, a write changes them and makes the lines that it rewrites whole, an atomic does both; on a die that is not up, on bytes that
an engine is about to write, in a frozen frame, or behind an earlier request of its port that waits, the request waits; a tag
that its sender has had performed, by whichever port, is not performed again (R99, R105, R206, R389, R415). PEER_REQUEST for another device goes on to it (R194), and has an error response where
no entry leads there. REMOTE_ERROR_RESPONSE: the lane of the load reads zero and its error is pending (R389, R391). -/
def Sys2Proof.Claims.HostEvents : Prop :=
  (∀ s : State, ∀ (i : Instr) (r : HostReq),
    (i = .hostAccess ∧ r = Claims.request s 0) ∨ (i = .peerRequest ∧ s.arg 0 = s.did ∧ r = Claims.request s 1) →
    let d := sectorOf r.addr
    let p : Place := .dev r.addr
    let waits (q : Nat) : Host.Outcome State Fault Refusal := .next (s.modMdie q fun x => { x with held := x.held ++ [.req r] })
    (s.answered r = true → exec i s = .next s) ∧
    (s.answered r = false → r.size ≤ 256 → ∀ q, s.heldBefore r = some q → exec i s = waits q) ∧
    (s.answered r = false → r.size ≤ 256 → s.heldBefore r = none → ∀ q, s.latchedBefore r = some q →
      exec i s = .next (s.modDie q fun x => { x with latch := x.latch ++ [r] })) ∧
    (s.answered r = false → r.size ≤ 256 → Claims.inTurn s r → r.addr < 2 ^ 56 →
      let free : Prop := (s.mdie d).power.state = 0 ∧ s.engineOwns p r.size = false ∧ s.frozenAt p = false
      (¬ free → exec i s = waits d) ∧
      (free → r.op = 0 → s.spanBad p r.size = false →
        exec i s = .next (s.recordTag r.key (s.loadAt p r.size))) ∧
      (free → r.op = 1 → r.size ∈ [1, 2, 4, 8] → r.addr % r.size = 0 →
        exec i s = .next ((((s.storeAt p r.size r.value).rewriteAt p r.size).afterWrite p r.size).recordTag r.key 0)) ∧
      (free → 2 ≤ r.op → r.op ≤ 8 → r.size ∈ [4, 8] → s.spanBad p r.size = false →
        ∃ new, exec i s = .next (((s.storeAt p r.size new).afterWrite p r.size).recordTag r.key (s.loadAt p r.size)) ∧
          (r.op = 2 → new = (s.loadAt p r.size + r.value) % 2 ^ (8 * r.size)) ∧ (r.op = 8 → new = r.value)))) ∧
  (∀ s : State, s.arg 0 ≠ s.did →
    let r := Claims.request s 1
    s.answered r = false → r.size ≤ 256 →
    (∀ q, s.forwardTo (s.arg 0) = some q → r.op = 1 → r.size ∈ [1, 2, 4, 8] → r.addr % r.size = 0 →
      exec .peerRequest s = .next ((s.storeAt (.peer q r.addr) r.size r.value).recordTag r.key 0)) ∧
    (s.forwardTo (s.arg 0) = none → exec .peerRequest s = .next (s.recordTag r.key errorResponse))) ∧
  (∀ (s : State) (who : Who) (fs : List Fill) (x : Far) (gone : Bool),
    s.ev = [who.tid, if x.armB then 1 else 0, x.addr.toNat, x.lane, if gone then 1 else 0, 0] →
    s.flight = [.load who fs none [x]] → x.also = [] →
    ∃ fs', exec .remoteErrorResponse s = .next { s with
        flight := [.load who fs' (some ⟨x.armB, x.addr, x.lane, if gone then 2 else 3, x.issued⟩) []] } ∧
      ∀ n, x.lane < 96 → ∀ fs0 m xs tag, fs = fs0 ++ [.lanes n m xs tag] → xs.length = 96 →
        ∃ ys, fs'.getLast? = some (.lanes n m ys tag) ∧ ys.getD x.lane 0 = 0 ∧
          ∀ k, k ≠ x.lane → ys.getD k 0 = xs.getD k 0)

/-- Services that complete, and requests of hosts and peers.
What a host or peer request holds beyond the manual, and the response of one that no entry leads on, are the model's
(logs 2, 26). -/
def Obligations.ServiceHostEvents : Prop := Claims.ServiceEvents ∧ Claims.HostEvents

/-- The event that delivers a kind of name operation (R57). -/
def Sys2Proof.Claims.delivery : NKind → Sys2Proof.Instr
  | .wake => .wakeDelivery
  | .sig _ => .sigDelivery
  | .depo _ _ => .depoDelivery
  | .join _ | .joinHost => .joinDelivery
  | .ngrant _ => .ngrantDelivery
  | .nrevoke _ => .nrevokeDelivery
  | .hexit _ => .namePortHexit

/-- The oldest name operation in flight of its kind that no earlier one of its source and target precedes, not refused by
a full hold buffer or by a host's request that waits, and not at a core that its target has left, is delivered (R54, R57, R62,
R103). -/
def Sys2Proof.Claims.NameDelivers (s : State) (op : NameOp) (k : State → State → Prop) : Prop :=
  ∀ pre post, s.flight = pre ++ .nameOp op :: post → s.nameReady op = true → s.astray op = false →
    (∀ o, Flight.nameOp o ∈ pre → (o.src, o.target) ≠ (op.src, op.target) ∧
      Claims.delivery o.kind ≠ Claims.delivery op.kind) →
    ∃ t, exec (Claims.delivery op.kind) s = .next t ∧ k { s with flight := pre ++ post } t

/-- A completion word at an address in host memory: value, status, and bit 63 (R65). -/
def Sys2Proof.Claims.complete (u : State) (compl value status : Nat) : State :=
  { u with hostMem := u.hostMem.wr compl 8 (value + status * 2 ^ 32 + 2 ^ 63) }

/-- WAKE, SIG, DEPO, JOIN, NGRANT and NREVOKE_DELIVERY of a group's operation: of a free name it is answered NONAME, without a
right RIGHTS; of a MIGRATING name it is held, of a DEAD one answered GONE, or with the exit value for a JOIN; at a
resident group a wake resumes a sleeping arm or sets wake-pending, a signal sets its bit, a deposit fills a mailbox
register; a saved group's record takes them; a HOST name's doorbell is written; a JOIN of a live name leaves a joiner
record, or NOROOM; a grant replaces RIGHTS, a revocation removes from them
(R14, R52, R55 to R63, R317 to R320). A direct operation that no longer finds its target at the slot or under the GEN that its
source knew goes on to the name home, and the source forgets the translation; the home's answer about a resident target
enters the NTLB of the source's core (R54). That NGRANT and NREVOKE are held, and when an NTLB takes and drops an entry, are
the model's (logs 47, 52). -/
def Obligations.NameDelivery : Prop :=
  (∀ (s : State) (op : NameOp) (src : Nat), op.src = .group src → src ≠ 0 → op.kind ≠ .joinHost → (∀ v, op.kind ≠ .hexit v) →
    let e := s.nameEntry op.target
    let w : Who := ⟨src, op.arms⟩
    let answers (u : State) (status : Nat) : State := match op.kind with
      | .join r => ({ u.modThread src fun g => { g with nerr := if g.nerr = 0 then status else g.nerr } with
          flight := u.flight ++ [.joinValue w r 0] } : State)
      | _ => { u with flight := u.flight ++ [.ack w status (some (op.target, op.path.isDirect))] }
    (e.damaged = true → Claims.NameDelivers s op fun u t => ∃ x, t = answers { u with events := u.events ++ [x] } 3) ∧
    (e.damaged = false → e.state = .free → Claims.NameDelivers s op fun u t => t = answers u 3) ∧
    (e.damaged = false → e.state ≠ .free → s.permitted op e = false →
      Claims.NameDelivers s op fun u t => t = answers u 2) ∧
    (e.damaged = false → e.state = .migrating → s.permitted op e = true →
      Claims.NameDelivers s op fun u t => t = { u with hold := u.hold ++ [op] }) ∧
    (e.damaged = false → e.state ∉ [.free, .migrating] → s.permitted op e = true →
      (e.state = .dead → Claims.NameDelivers s op fun u t => match op.kind with
        | .join r => t = { u with flight := u.flight ++ [.joinValue w r e.exitval] }
        | _ => t = answers u 1) ∧
      (e.state ≠ .dead → Claims.NameDelivers s op fun u t =>
        let v := u.learn op e
        match op.kind with
        | .ngrant w => t = answers (v.setName (if w.toNat % 16 = 0 then { e with rights := 0, all := false, grantee := 0 }
            else { e with rights := w.toNat % 16, all := w.getLsbD 4, grantee := w.toNat / 2 ^ 16 })) 0
        | .nrevoke w => t = answers (v.setName (if (w32 e.rights &&& ~~~w) = 0
            then { e with rights := 0, all := false, grantee := 0 }
            else { e with rights := (w32 e.rights &&& ~~~w).toNat })) 0
        | .join r =>
          (u.joinerFree = 0 → t = answers v 5) ∧
          (u.joinerFree ≠ 0 →
            t = (v.takeJoiner src (replyWord w r)).addJoiner e (.group u.nextJoiner w r) ∧
            (t.nameEntry op.target).joiners = e.joiners ++ [.group u.nextJoiner w r] ∧
            t.joinerFree = u.joinerFree - 1)
        | _ => True) ∧
      (e.state = .resident → ∀ tid, s.leadsTo e = some tid → Claims.NameDelivers s op fun u t =>
        let v := u.learn op e
        match op.kind with
        | .wake => t = answers (v.modThread tid Group.wake) 0
        | .sig n => t = answers (v.modThread tid fun g =>
            ({ g with sigPend := g.sigPend ||| BitVec.ofNat 32 (2 ^ n) } : Group).serveSignal) 0
        | .depo m x => t = answers (v.modThread tid fun g => g.put32 (.s (32 + m)) x) 0
        | _ => True) ∧
      (e.state = .saved → ∀ tid, s.leadsTo e = some tid → Claims.NameDelivers s op fun u t => match op.kind with
        | .wake => t = answers ((u.modThread tid fun g => { g with wakePend := true }).syncRecord tid) 0
        | .sig n => t = answers (u.setName { e with pending := e.pending ||| BitVec.ofNat 32 (2 ^ n) }) 0
        | .depo m x => t = answers ((u.modThread tid fun g => g.put32 (.s (32 + m)) x).syncRecord tid) 0
        | _ => True) ∧
      (e.state = .host → Claims.NameDelivers s op fun u t => match op.kind with
        | .wake | .sig _ | .depo _ _ => t = if s.hostUp e.port
            then answers { u with hostMem := u.hostMem.putBytes e.loc (doorbell op e.pending.toNat) } 0 else answers u 1
        | _ => True))) ∧
  (∀ (s : State) (op : NameOp) (pre post : List Flight), s.flight = pre ++ .nameOp op :: post → s.nameReady op = true →
    s.astray op = true → (∀ o, Flight.nameOp o ∈ pre → (o.src, o.target) ≠ (op.src, op.target) ∧
      Claims.delivery o.kind ≠ Claims.delivery op.kind) →
    let onward (f : Flight) : Flight := if f = .nameOp op then .nameOp { op with path := .forwarded } else f
    ∃ t, exec (Claims.delivery op.kind) s = .next t ∧ t = { s with ntlb := t.ntlb, flight := s.flight.map onward } ∧
      ∀ l, s.sourceCore op = some l → ∀ x, x ∈ t.ntlb ↔ x ∈ s.ntlb ∧
        ¬ (x.die = l.die ∧ x.x = l.x ∧ x.y = l.y ∧ x.name = op.target)) ∧
  (∀ (s : State) (op : NameOp) (e : NameEntry) (l : CoreLoc), s.sourceCore op = some l → e.state = .resident →
    op.path = .home ∨ op.path = .forwarded →
    ⟨l.die, l.x, l.y, e.name, e.gen, e.loc, e.owner⟩ ∈ (s.learn op e).ntlb) ∧
  (∀ g : Group, (g.armA.occ = true → g.armA.ws ≠ .sleep) → (g.armB.occ = true → g.armB.ws ≠ .sleep) →
    g.wake = { g with wakePend := true }) ∧
  (∀ g : Group, g.armA.occ = true → g.armA.ws = .sleep → (g.armB.occ = true → g.armB.ws ≠ .sleep) →
    g.wake = { g with armA := { g.armA with ws := .ready, replay := true } }) ∧
  (∀ g : Group, (g.armA.ws ≠ .sigw) → (g.armB.ws ≠ .sigw) → g.serveSignal = g) ∧
  (∀ g : Group, g.armA.occ = true → g.armA.ws = .sigw → g.armB.ws ≠ .sigw → g.sigPend &&& g.armA.waux ≠ 0 →
    g.armA.wreg < 48 →
    g.serveSignal.val32 (.s g.armA.wreg) = g.sigPend &&& g.armA.waux ∧
    g.serveSignal.sigPend = g.sigPend &&& ~~~g.armA.waux ∧
    g.serveSignal.armA = { g.armA with ws := .ready, replay := true }) ∧
  (∀ (s : State) (tid st : Nat) (arms : Arms) (dest : Option (Nat × Bool)),
    Claims.Delivers s .postedOpAck (.ack ⟨tid, arms⟩ st dest) fun u t =>
    t = (u.modThread tid fun g => { g with nout := g.nout - 1, nerr := if g.nerr = 0 then st else g.nerr }).syncRecord tid) ∧
  (∀ (s : State) (w : Who) (r : RegId) (x : W32), Claims.Delivers s .joinValueArrival (.joinValue w r x) fun u t =>
    t = (Claims.filled u w.tid [.word r x]).syncRecord w.tid)

/-- A command of a name port: its event, its payload in the order port, MAILBOX, FLAGS, VALUE, TARGET, COMPL, reserved,
the mailbox numbers allowed, and the operation (R64, R65). -/
def Sys2Proof.Claims.portOps : List (Instr × Bool × Nat × (Nat → Nat → NKind)) :=
  [(.namePortWake, false, 0, fun _ _ => .wake), (.namePortSig, false, 31, fun m _ => .sig m),
   (.namePortDepo, true, 7, fun m v => .depo m (w32 v)), (.namePortJoin, false, 0, fun _ _ => .joinHost),
   (.namePortHexit, true, 0, fun _ v => .hexit (w32 v))]

/-- A port that holds no write back: fewer than 64 commands are on their way (R354). -/
def Sys2Proof.Claims.flows (s : State) (p : NamePort) : Prop :=
  s.port p.id = some p ∧ (∀ x ∈ s.ports, x.id = p.id → x.writes = []) ∧ p.outstanding < 64

/-- A change of a port. -/
def Sys2Proof.Claims.portSet (s : State) (p : Nat) (f : NamePort → NamePort) : State :=
  { s with ports := s.ports.map fun x => if x.id = p then f x else x }

/-- The completion word of a command, where one is asked for (R65). -/
def Sys2Proof.Claims.word (u : State) (compl : Option Nat) (status : Nat) : State :=
  match compl with
  | some a => Claims.complete u a 0 status
  | none => u

/-- NAME_PORT_WAKE, SIG, DEPO, JOIN, HEXIT: a command of good fields leaves for its target, one of bad fields is completed
BADOP; with 64 commands on their way the port holds the write. A HEXIT at its delivery point ends a HOST name of the port
with its value; of another name it is completed RIGHTS. NAME_PORT_RESERVED_OP is completed BADOP;
NAME_PORT_DISCARDED_WRITE is counted. HOST_NAME_ALLOC makes a free name a HOST one
of the port; NAME_RELEASE frees DEAD names; PORT_UNBIND ends the port's names and removes it; NAME_ENTRY_ERROR damages an
entry (R50 to R53, R63 to R66, R353, R354, R397 to R399). Firmware serves the first three with their change committed to its
state table; with no complex active they wait (R418).
The order of an event's payload is the model's (log 2), the number under which a service's change is committed too (log 19);
event kinds are of log 25. -/
def Obligations.NamePorts : Prop :=
  (∀ op ∈ Claims.portOps, ∀ (s : State) (p : NamePort) (mailbox flags value target compl rsvd : Nat),
    s.ev = [p.id, mailbox, flags] ++ (if op.2.1 then [value] else []) ++ [target, compl, rsvd] →
    let at_ := if flags.testBit 0 then none else some compl
    let good := mailbox ≤ op.2.2.1 ∧ rsvd = 0 ∧ flags / 2 % 2 ^ 15 = 0
    (Claims.flows s p → good → exec op.1 s = .next { Claims.portSet s p.id fun x => { x with outstanding := x.outstanding + 1 } with
      flight := s.flight ++ [.nameOp ⟨.port p.id, ⟨false, false⟩, p.region, target, op.2.2.2 mailbox value,
        s.subtreeCheck p.region target, at_, (0, 0), .home⟩] }) ∧
    (Claims.flows s p → ¬good → exec op.1 s = .next (Claims.word s at_ 4)) ∧
    (s.port p.id = some p → 64 ≤ p.outstanding → good →
      exec op.1 s = .next (Claims.portSet s p.id fun x =>
        { x with writes := x.writes ++ [some ⟨op.2.2.2 mailbox value, target, at_, false⟩] }))) ∧
  (∀ (s : State) (op : NameOp) (p : Nat) (v : W32), op.src = .port p → op.kind = .hexit v → s.ev = [] →
    (∀ x ∈ s.ports, x.id = p → x.writes = []) →
    let e := s.nameEntry op.target
    let fewer (u : State) : State := Claims.portSet u p fun x => { x with outstanding := x.outstanding - 1 }
    e.damaged = false →
    (e.state = .host → e.port = p → e.joiners = [] → Claims.NameDelivers s op fun u t =>
      t = Claims.word ((fewer u).setName { e with state := .dead, exitval := v, loc := 0, pending := 0 }) op.compl 0) ∧
    (e.state ≠ .host ∨ e.port ≠ p → Claims.NameDelivers s op fun u t => t = Claims.word (fewer u) op.compl 2)) ∧
  (∀ (s : State) (p : NamePort) (opc flags compl : Nat), s.ev = [p.id, opc, flags, compl] → Claims.flows s p →
    exec .namePortReservedOp s = .next (Claims.word s (if flags.testBit 0 then none else some compl) 4)) ∧
  (∀ (s : State) (p : NamePort), s.ev = [p.id] → Claims.flows s p →
    exec .namePortDiscardedWrite s = .next (Claims.portSet s p.id fun x => { x with errors := x.errors + 1 })) ∧
  (∀ (s : State) (p : NamePort) (name loc token : Nat), s.ev = [name, p.id, loc, token] → s.port p.id = some p →
    s.served = true → (s.nameEntry name).state = .free → (s.nameEntry name).damaged = false → name % 2 ^ 48 ≠ 0 →
    loc % 64 = 0 → s.names.length < nameCache →
    ∃ t, exec .hostNameAlloc s = .next t ∧ t = { s.commit (1 :: s.ev) with names := t.names } ∧
      (t.nameEntry name).state = .host ∧ (t.nameEntry name).loc = loc ∧ (t.nameEntry name).owner = p.region ∧
      (t.nameEntry name).port = p.id ∧ (t.nameEntry name).gen = ((s.nameEntry name).gen + 1) % 2 ^ 16 ∧
      ∀ n, n ≠ name → t.nameEntry n = s.nameEntry n) ∧
  (∀ (s : State) (first count : Nat), s.ev = [first, count] → s.served = true →
    (∀ n, first ≤ n → n < first + count → ∃ e ∈ s.names, e.name = n) → exec .nameRelease s = .next { s.commit (2 :: s.ev) with
      names := s.names.map fun e => if first ≤ e.name ∧ e.name < first + count ∧ e.state = .dead ∧ e.damaged = false
        then { NameEntry.free e.name with gen := e.gen } else e }) ∧
  (∀ (s : State) (name a : Nat), s.ev = [name, 1] → s.served = true → (∀ e ∈ s.names, e.name ≠ name) → s.nameAt name = .at a →
    (s.nameEntry name).state = .dead → (s.nameEntry name).damaged = false →
    let u := s.commit (2 :: s.ev)
    exec .nameRelease s = .next (u.putFields a
      (u.entryFields { NameEntry.free name with gen := (s.nameEntry name).gen }))) ∧
  (∀ i ∈ [Instr.hostNameAlloc, .nameRelease, .portUnbind], ∀ s : State, s.served = false →
    exec i s = .next { s with fwWait := s.fwWait ++ [.event i s.ev] }) ∧
  (∀ (s : State) (p : Nat), s.ev = [p] → s.served = true → ∃ t, exec .portUnbind s = .next t ∧ (∀ x ∈ t.ports, x.id ≠ p) ∧
    (∀ x ∈ s.ports, x.id ≠ p → x ∈ t.ports) ∧ ∀ e ∈ s.names, e.state = .host → e.port = p → e.name % 2 ^ 48 ≠ 0 →
      (t.nameEntry e.name).state = .dead ∧ (t.nameEntry e.name).exitval = 0xFFFFFFFF) ∧
  (∀ (s : State) (name : Nat), s.ev = [name] → name % 2 ^ 48 ≠ 0 → s.names.length < nameCache →
    ∃ t, exec .nameEntryError s = .next t ∧
    (t.nameEntry name).damaged = true ∧ (∀ n, n ≠ name → t.nameEntry n = s.nameEntry n) ∧
    ∃ x, t.events = s.events ++ [x])

/-- A skein operation of a group at the skein home, the first of its kind and of its group there (R327). -/
def Sys2Proof.Claims.AtHome (s : State) (i : Sys2Proof.Instr) (f : Flight) (k : State → State → Prop) : Prop :=
  ∀ pre post, s.flight = pre ++ f :: post →
    (∀ x ∈ pre, x.event ≠ i ∧ (f.skeinOf.isSome = true → x.skeinOf ≠ f.skeinOf)) →
    ∃ t, exec i s = .next t ∧ k { s with flight := pre ++ post } t

/-- SKEIN_ALLOC: the lowest free record takes the kind, the descriptor and the parent, its GEN increased, and a handle of
whole weight answers; with none free a null handle. INDIRECTION_ALLOC: a record of the region's pool holds the handle, and
both halves answer; with none a stays and d is null. SKEIN_DROP adds a share to RET, and acknowledges OK, STALE or
OVERRETURN; a record whose RET reaches 2^62 is FREE. SKEIN_BIND sets FIN of the object reached, and answers DEAD or STALE of one that is not
live. SKEIN_REPLY fills. SCOPEW_ATTACH without room
answers NOROOM, else leaves a waiter; SCOPEW_COMPLETE fills d and the arm goes on, in a save record
behind its SCOPEW. SKEIN_RECORD_ERROR damages a record
(R168 to R179, R325 to R329, R401 to R404).
Which free record is taken is the model's (log 20), and the word of a null handle (log 22). -/
def Obligations.SkeinEvents : Prop :=
  (∀ (s : State) (tid kind oid : Nat) (d : RegId) (desc parent : W64) (g : Group), s.thread tid = some g →
    s.freeRecord = some oid → Claims.AtHome s .skeinAlloc (.skeinAlloc tid d kind desc parent none) fun u t =>
      (t.skein oid).live = true ∧ (t.skein oid).kind = kind ∧ (t.skein oid).desc = desc ∧ (t.skein oid).held = parent ∧
      (t.skein oid).region = g.region ∧ (t.skein oid).ret = 0 ∧ (t.skein oid).gen = ((s.skein oid).gen + 1) % 2 ^ 15 ∧
      t.flight = u.flight ++ [.skeinReply tid (pairFills d (w64 (62 * 2 ^ 58 + kind % 4 * 2 ^ 55
        + (t.skein oid).gen * 2 ^ 40 + oid % 2 ^ 40)))] ∧
      (s.skeins.length < skeinCache → ∀ n, n ≠ oid → t.skein n = s.skein n)) ∧
  (∀ (s : State) (tid kind : Nat) (d : RegId) (desc parent : W64) (b : Option RegId), s.freeRecord = none →
    Claims.AtHome s .skeinAlloc (.skeinAlloc tid d kind desc parent b) fun u t => ∃ h : W64, Claims.expOf h = 63 ∧
      t = { u with flight := u.flight ++ [.skeinReply tid (pairFills d h)] }) ∧
  (∀ (s : State) (tid oid : Nat) (d a : RegId) (h : W64) (g : Group), s.thread tid = some g →
    s.freeInPool g.region = some oid → Claims.AtHome s .indirectionAlloc (.indAlloc tid d a h) fun u t =>
      (t.skein oid).live = true ∧ (t.skein oid).held = h ∧ (t.skein oid).pool = true ∧
      ∃ x : W64, t.flight = u.flight ++ [.skeinReply tid (pairFills a x ++ pairFills d x)] ∧
        Claims.expOf x = 61 ∧ hInd x.toNat = true ∧ hKind x.toNat = hKind h.toNat ∧ hOid x.toNat = oid % 2 ^ 40) ∧
  (∀ (s : State) (tid : Nat) (d a : RegId) (h : W64) (g : Group), s.thread tid = some g → s.freeInPool g.region = none →
    Claims.AtHome s .indirectionAlloc (.indAlloc tid d a h) fun u t => ∃ x : W64, Claims.expOf x = 63 ∧
      t = { u with flight := u.flight ++ [.skeinReply tid (pairFills a h ++ pairFills d x)] }) ∧
  (∀ (s : State) (who : Who) (charge : Nat) (h : W64),
    let r := s.skein (hOid h.toNat)
    let share := 2 ^ Claims.expOf h
    (s.current h.toNat = false → r.damaged = false →
      Claims.AtHome s .skeinDrop (.skeinDrop (some who) charge h) fun u t =>
        t = { u with flight := u.flight ++ [.ack who 6 none] }) ∧
    (s.current h.toNat = true → r.ret + share < 2 ^ 62 →
      Claims.AtHome s .skeinDrop (.skeinDrop (some who) charge h) fun u t =>
        t = { u.setSkein { r with ret := r.ret + share } with flight := u.flight ++ [.ack who 0 none] }) ∧
    (s.current h.toNat = true → 2 ^ 62 < r.ret + share →
      Claims.AtHome s .skeinDrop (.skeinDrop (some who) charge h) fun u t =>
        t = { u.setSkein { r with overFlag := true } with flight := u.flight ++ [.ack who 7 none] }) ∧
    (s.current h.toNat = true → r.ret + share = 2 ^ 62 → r.fin = none → r.waiters = [] → Claims.expOf r.held = 63 →
      Claims.AtHome s .skeinDrop (.skeinDrop (some who) charge h) fun u t =>
        t = { u.setSkein { r with ret := 2 ^ 62, live := false } with flight := u.flight ++ [.ack who 0 none] })) ∧
  (∀ (s : State) (who : Who) (h : W64) (fin : Option Place),
    Claims.AtHome s .skeinBind (.skeinBind who h fin) fun u t =>
      let v := u.meetHandle h.toNat
      let acks (b : State) (st : Nat) : State := { b with flight := v.flight ++ [.ack who st none] }
      (∀ o, v.reached h.toNat = .at o → v.current o = true →
        t = acks (v.setSkein { v.skein (hOid o) with fin := fin }) 0) ∧
      (∀ o, (v.reached h.toNat = .stale o ∨ (v.reached h.toNat = .at o ∧ v.current o = false)) →
        t = acks v (if v.isDead o then 1 else 6)) ∧
      (v.reached h.toNat = .chain → t = acks v 6)) ∧
  (∀ (s : State) (tid : Nat) (fs : List Fill) (d : RegId) (h : W64),
    Claims.AtHome s .skeinReply (.skeinReply tid fs) (fun u t => t = Claims.filled u tid fs) ∧
    ((s.skein (hOid h.toNat)).damaged = false →
      Claims.AtHome s .skeinReply (.hinfo tid d h) (fun u t => t = Claims.filled u tid (pairFills d
        (if Claims.expOf h ≠ 63 ∧ s.current h.toNat = true then
          w64 ((s.skein (hOid h.toNat)).ret % 2 ^ 62 + if (s.skein (hOid h.toNat)).overFlag then 2 ^ 62 else 0)
        else BitVec.allOnes 64))))) ∧
  (∀ (s : State) (who : Who) (d a : RegId) (h : W64),
    (s.joinerFree = 0 → Claims.AtHome s .scopewAttach (.scopewAttach who d a h) fun u t =>
      t = { u with flight := u.flight ++ [.scopewDone who d 5] }) ∧
    (∀ o, s.joinerFree ≠ 0 → s.reached h.toNat = .at o → s.current o = false → s.current h.toNat = false →
      (s.skein (hOid h.toNat)).damaged = false → Claims.AtHome s .scopewAttach (.scopewAttach who d a h) fun u t =>
        t = { u.modThread who.tid fun g => g.nullPair a with flight := u.flight ++ [.scopewDone who d 6] }) ∧
    (∀ o, s.joinerFree ≠ 0 → s.reached h.toNat = .at o → s.current o = true → h.toNat = o →
      (s.skein (hOid o)).ret + 2 ^ Claims.expOf h < 2 ^ 62 →
      Claims.AtHome s .scopewAttach (.scopewAttach who d a h) fun u t =>
        (t.skein (hOid o)).waiters = (s.skein (hOid o)).waiters ++ [(s.nextJoiner, who, d, h)] ∧
        (t.skein (hOid o)).ret = (s.skein (hOid o)).ret + 2 ^ Claims.expOf h ∧
        t.joinerFree = s.joinerFree - 1 ∧ t.flight = u.flight)) ∧
  (∀ (s : State) (who : Who) (n : Nat) (x : W32) (y : Group), who.tid ≠ 0 → 48 ≤ n → n < 64 → s.thread who.tid = some y →
    y.armB.ws = .scopew → y.armB.wreg = n → y.resident = true →
    Claims.Delivers s .scopewComplete (.scopewDone who (.b true n) x) fun _ t =>
      ∀ z, t.thread who.tid = some z → z.val32 (.b true n) = x ∧ z.full (.b true n) = true ∧ z.armB.ws = .ready ∧
        z.armB.replay = true) ∧
  (∀ (s : State) (who : Who) (n : Nat) (x : W32) (y : Group), who.tid ≠ 0 → 48 ≤ n → n < 64 → s.thread who.tid = some y →
    y.armB.ws = .scopew → y.armB.wreg = n → y.resident = false →
    Claims.Delivers s .scopewComplete (.scopewDone who (.b true n) x) fun _ t =>
      ∀ z, t.thread who.tid = some z → z.val32 (.b true n) = x ∧ z.full (.b true n) = true ∧ z.armB.ws = .ready ∧
        z.armB.replay = false ∧ z.armB.pc = y.armB.pc + 4) ∧
  (∀ (s : State) (oid : Nat), s.ev = [oid] → ∃ t, exec .skeinRecordError s = .next t ∧ (t.skein oid).damaged = true ∧
    (s.skeins.length < skeinCache → ∀ r ∈ s.skeins, r.oid ≠ oid → t.skein r.oid = s.skein r.oid))

/-- POST_ACCEPT gives the item to the TAKE that has waited longest, else appends it; TAKE_ITEM_DELIVERY fills the four
registers and the waiting arm goes on, in a save record behind its TAKE (R45, R323). WATCH_INSTALL_COMPLETE installs the watch and answers its id;
WATCHED_WRITE_AT_HOME merges a changed word into the die's records, which opens a window, once no window or period of it is
overdue; WATCH_WINDOW_CLOSE, 2^WLOG ns after, submits the runs that the budget allows; WATCH_PERIOD_START makes the budget whole every 1,048,576 ns; UNWATCH_COMPLETE removes the watch;
WATCH_QUERY_REPLY fills (R183 to R191, R330, R331, R407, R408). The order of an event's payload is the model's (log 2). -/
def Obligations.QueueAndWatchEvents : Prop :=
  (∀ (s : State) (who : Who) (q : Nat) (item : List W32),
    let x := s.stageqs.getD q ⟨[], none, []⟩
    (x.waiting = [] → Claims.Delivers s .postAccept (.post who q item) fun u t =>
      t = { u with stageqs := modAt (fun y => { y with items := y.items ++ [item] }) q u.stageqs }) ∧
    (∀ w armB d rest, x.waiting = (w, armB, d) :: rest → Claims.Delivers s .postAccept (.post who q item) fun u t =>
      t = { u with
        stageqs := modAt (fun y => { y with waiting := rest }) q u.stageqs
        flight := u.flight ++ [.takeItem ⟨w, ⟨!armB, armB⟩⟩ armB d item] })) ∧
  (∀ (s : State) (who : Who) (d : Nat) (armB : Bool) (x0 x1 x2 x3 : W32),
    Claims.Delivers s .takeItemDelivery (.takeItem who armB d [x0, x1, x2, x3]) fun u t =>
      let f (g : Group) (a : Arm) : Arm := if a.ws = .take ∧ a.wreg = d
        then (if g.resident then { a with ws := .ready, replay := true } else { a.ready with pc := a.pc + 4 }) else a
      t = ((Claims.filled u who.tid [.word (.ofS armB d) x0, .word (.ofS armB (d + 1)) x1, .word (.ofS armB (d + 2)) x2,
        .word (.ofS armB (d + 3)) x3]).modThread who.tid fun g => if armB then { g with armB := f g g.armB }
          else { g with armA := f g g.armA }).syncRecord who.tid) ∧
  (∀ (s : State) (tid : Nat) (d : RegId) (w : Watch) (st x : W32),
    Claims.Delivers s .watchInstallComplete (.watchInstall tid d (some w) st) (fun u t =>
      t = Claims.filled { u with watches := u.watches ++
        [{ w with dies := w.dies.map fun p => { p with period := u.clock } }] } tid [.word d st]) ∧
    Claims.Delivers s .watchInstallComplete (.watchInstall tid d none st) (fun u t => t = Claims.filled u tid [.word d st]) ∧
    Claims.Delivers s .watchQueryReply (.watchQuery tid d x) (fun u t => t = Claims.filled u tid [.word d x])) ∧
  (∀ (s : State) (tid wid : Nat) (d : RegId) (x : W32), Claims.Delivers s .unwatchComplete (.unwatch tid d wid x) fun _ t =>
    (∀ w ∈ t.watches, w.wid ≠ wid) ∧ (∀ w ∈ s.watches, w.wid ≠ wid → w ∈ t.watches) ∧
    (∀ l ∈ s.waiting, l ∈ t.waiting)) ∧
  (∀ (s : State) (pa off : Nat) (old new : W32) (w : Watch), s.watchOf pa = some (w, off) → s.watch w.wid = some w →
    let d := sectorOf pa
    s.windowFirst w d = false → s.periodOver w d = false →
    let p := w.on d
    let merged (u : State) : State := u.modWatchDie w.wid d fun y => y.merge u.clock off old new
    (old = new → Claims.Delivers s .watchedWriteAtHome (.watchedWrite pa old new) fun u t => t = u) ∧
    (old ≠ new → p.held = [] → (∃ r ∈ p.recs, r.off = off) →
      Claims.Delivers s .watchedWriteAtHome (.watchedWrite pa old new) fun u t => t = merged u) ∧
    (old ≠ new → s.recsOn d < 4096 →
      Claims.Delivers s .watchedWriteAtHome (.watchedWrite pa old new) fun u t => t = merged u) ∧
    (∀ now, p.open_ = false → p.held = [] → p.recs = [] →
      p.merge now off old new = { p with open_ := true, opened := now, recs := [⟨off, old, new, 1⟩] }) ∧
    (∀ now x rest, p.open_ = true → p.held = [] → p.recs = x :: rest → x.off = off → p.merge now off old new =
      { p with recs := { x with new := new, count := if x.count + 1 < 2 ^ 32 - 1 then x.count + 1 else 2 ^ 32 - 1 } :: rest })) ∧
  (∀ (s : State) (d wid : Nat) (w : Watch), s.ev = [d, wid] → s.watch wid = some w →
    let p := w.on d
    (p.open_ = true → 2 ^ (w.ctrl % 32) ≤ (s.clock - p.opened).toNat → s.periodOver w d = false →
      p.recs.length ≤ 96 → p.recs ≠ [] → p.used < 2 ^ (w.ctrl / 32 % 32) → p.held = [] →
      ∃ t l, exec .watchWindowClose s = .next t ∧
        t = { s with waiting := s.waiting ++ [l], nextLaunchId := t.nextLaunchId, watches := t.watches } ∧
        (l : Launch).origin = 3 ∧ l.entry = w.entryPc ∧ l.args = w.args ∧ l.region = w.region ∧ l.groups = 1 ∧
        l.lastLanes = p.recs.length ∧ l.words.length = p.recs.length ∧ l.id = s.nextLaunchId ∧
        ∀ x, t.watch wid = some x → d < w.dies.length →
          (x.on d).open_ = false ∧ (x.on d).recs = [] ∧ (x.on d).used = p.used + 1) ∧
    (p.open_ = false ∨ (s.clock - p.opened).toNat < 2 ^ (w.ctrl % 32) → exec .watchWindowClose s = .next s) ∧
    (p.homes = true → 2 ^ 20 ≤ (s.clock - p.period).toNat → p.open_ = false → p.held = [] → d < w.dies.length →
      exec .watchPeriodStart s = .next ((s.modWatchDie wid d fun y => { y with throttled := 0 }).modWatchDie wid d fun y =>
        { y with used := 0, period := y.period + w64 (2 ^ 20) })) ∧
    (p.homes = false ∨ (s.clock - p.period).toNat < 2 ^ 20 → exec .watchPeriodStart s = .next s))

/-- SUBMISSION_DOORBELL accepts a tail ahead of the last, else counts an error, and is read later while the list is
full or an earlier request of a host waits (R103); INTAKE_RECORD reads one record, which waits,
and advances HEAD; PENDING_LAUNCH_DRAIN takes a core's oldest entry; LAUNCH_START starts the first launch in the order of
R112 that can start, or rejects it; LAUNCH_STARVATION marks a launch; RANK_PLACE places the next rank of the first started
launch that can be placed (R107 to R115, R376, R377).
The order of an event's payload is the model's (log 2), and which free number is taken (log 20). -/
def Obligations.HubEvents : Prop :=
  (∀ (s : State) (q t : Nat), s.ev = [q, t] →
    (65536 ≤ s.waiting.length ∨ s.hostHeld = true → exec .submissionDoorbell s = .next { s with doorbells := s.doorbells ++ [(q, t)] }) ∧
    (s.waiting.length < 65536 → s.hostHeld = false → s.doorbells = [] → 1024 ≤ q → exec .submissionDoorbell s = .next s) ∧
    (s.waiting.length < 65536 → s.hostHeld = false → s.doorbells = [] → q < 1024 →
      let size := s.mem.rd (s.bases.sq + q * 32 + 8) 4
      let head := s.mem.rd (s.bases.sq + q * 32 + 0x10) 4
      let ahead (x : Nat) : Nat := (x + size - head) % size
      (t < size → ahead (s.qTail q) ≤ ahead t → ∃ u : State, exec .submissionDoorbell s = .next u.handover ∧
        u = { s with queueTails := u.queueTails } ∧ u.qTail q = t ∧ ∀ p, p ≠ q → u.qTail p = s.qTail p) ∧
      (size ≤ t → exec .submissionDoorbell s =
        .next (s.storeDev (s.bases.sq + q * 32 + 0x14) 4
          (min (2 ^ 32 - 1) (s.mem.rd (s.bases.sq + q * 32 + 0x14) 4 + 1))).handover))) ∧
  (∀ (s : State) (q : Nat), s.ev = [q] → s.waiting.length < 65536 →
    let size := s.mem.rd (s.sqAt q + 8) 4
    let head := s.qHead q
    let rec_ := s.mem.rd (s.sqAt q) 8 + head * 64
    (q < 1024 → size ≠ 0 → head ≠ s.qTail q → ∃ u l, exec .intakeRecord s = .next u ∧ u.waiting = s.waiting ++ [l] ∧
      (l : Launch).id = s.nextLaunchId ∧ l.origin = 0 ∧ l.queue = q ∧ l.entry = s.mem.rd rec_ 8 ∧
      l.groups = s.mem.rd (rec_ + 0x24) 4 ∧ l.region = s.mem.rd (rec_ + 0x28) 4 ∧ l.vregs = s.mem.rd (rec_ + 0x34) 1) ∧
    (1024 ≤ q ∨ size = 0 ∨ head = s.qTail q → exec .intakeRecord s = .next s)) ∧
  (∀ (s : State) (core : Nat) (pre post : List Plq) (x : Plq), s.ev = [core] → s.waiting.length < 65536 →
    s.plq = pre ++ x :: post → x.core = core → (∀ y ∈ pre, y.core ≠ core) → s.fradb.intakeHold = false →
    exec .pendingLaunchDrain s = .next { s with
      plq := pre ++ post
      waiting := s.waiting ++ [{ x.launch with id := s.nextLaunchId, since := s.clock }]
      nextLaunchId := s.nextLaunchId % (2 ^ 32 - 1) + 1 }) ∧
  (∀ (s u : State) (l : Launch) (rest : List Launch), s.ranked = l :: rest →
    (s.rejectCode l = 0 → s.tryStart l = some u → exec .launchStart s = .next u) ∧
    (s.rejectCode l ≠ 0 → rest = [] → exec .launchStart s =
      .next ({ s with waiting := s.waiting.filter fun x => !(x.id == l.id) }.reject l (s.rejectCode l)))) ∧
  (∀ (s : State) (l : Launch) (serial : Nat), s.freeSerials (s.eff l.region .nsbase) l.groups = some serial →
    (s.saveRoom (s.eff l.region .savebase) (s.eff l.region .savesize) (recordBytes l.vregs l.spad)).isSome = true →
    l.mtx = false → l.cor = false →
    s.tryStart l = some (s.startLaunch l serial) ∧
    (∃ x, (s.startLaunch l serial).started = s.started ++ [x] ∧ x.launch = l ∧ x.next = 0 ∧
      x.first = s.eff l.region .nsbase * 2 ^ 48 + serial ∧ x.prio = s.launchPrio l) ∧
    (∀ x ∈ (s.startLaunch l serial).waiting, x.id ≠ l.id)) ∧
  (∀ (s : State) (id : Nat), s.ev = [id] → exec .launchStarvation s = .next { s with
    waiting := s.waiting.map fun l => if l.id = id then { l with starved := true } else l }) ∧
  (∀ (s u : State) (x : Started) (rest : List Started), s.unplaced = x :: rest →
    (s.placeNext x = some u → exec .rankPlace s = .next { u with
      started := u.started.filter fun y => decide (y.next < y.launch.groups) }) ∧
    (∀ g, s.placeNext x = none → s.victim x = some g → s.swapping = false →
      exec .rankPlace s = .next (s.startSwap g true)))

/-- A group as it is placed: rank, name and the launch's values in its registers and special registers, every register
full, an empty stack, no bit pending, arm A alone at ENTRY with the lanes of the launch (R30, R31, R34). -/
def Sys2Proof.Claims.PlacedGroup : Prop :=
  ∀ (s : State) (x : Started) (k lead : Nat) (loc : CoreLoc) (win : W64) (area : Nat),
    let l := x.launch
    let g := s.newGroup x k lead loc win area
    l.origin < 3 →
    g.name = w64 (x.first + k) ∧ g.rank = w32 k ∧ g.ngroups = w32 l.groups ∧ g.region = l.region ∧
    g.launchId = w32 l.id ∧ g.loc = loc ∧ g.spwin = win ∧ g.resident = true ∧ g.seq = none ∧
    g.val32 (.s 0) = l.args.setWidth 32 ∧ g.val32 (.s 1) = (l.args >>> 32).setWidth 32 ∧
    g.val32 (.s 2) = w32 k ∧ g.val32 (.s 3) = w32 l.groups ∧ g.val32 (.s 7) = w32 l.id ∧
    (∀ n, 8 ≤ n → n < 40 → g.val32 (.s n) = 0) ∧ (∀ r : RegId, r.real = true → g.full r = true) ∧
    (∀ n < 128, ∀ j < 96, g.lane n j = 0) ∧ (∀ n < 128, (g.vreg n).tag = 0) ∧ g.pred 0 = BitVec.allOnes 96 ∧
    (∀ n, 1 ≤ n → n < 8 → g.pred n = 0) ∧ g.sigPend = 0 ∧ g.wakePend = false ∧ g.tcause = 0 ∧
    g.armA.occ = true ∧ g.armB.occ = false ∧ g.armA.ws = .ready ∧ g.armA.pc = w64 l.entry ∧ g.armA.mode = 0x00002001 ∧
    g.armA.dstk = [] ∧ g.armA.mask = (if k + 1 = l.groups then BitVec.ofNat 96 (2 ^ l.lastLanes - 1) else BitVec.allOnes 96)

/-- SWAP_THRESHOLD and a swap mark the names MIGRATING; SAVE_COMPLETE writes the record and the group is SAVED; GROUP_RESUME
places a dispatchable group again; YIELD_READY makes a yielded arm ready; GROUP_EXIT_COMPLETE, once the group's operations
are complete, makes its name DEAD with the exit value and serves its joiners (R43 to R46, R52, R61, R248, R249, R382).
DOLDRUMS_EXPIRY reports a region whose every placed group has waited for 2^HANGLOG cycles (R48, R378). -/
def Sys2Proof.Claims.GroupEvents : Prop :=
  (∀ (s : State) (g : Group), s.ev = [g.tid] → s.thread g.tid = some g →
    (s.thresholdDue g = true → exec .swapThreshold s = .next (s.startSwap g)) ∧
    (s.thresholdDue g = false → exec .swapThreshold s = .next s)) ∧
  (∀ (s : State) (g : Group), s.ev = [g.tid] → g.tid % 2 ^ 48 ≠ 0 → s.thread g.tid = some g → s.saveReady g = true →
    g.evicted = false → s.saveLost g.saveRec = false → s.names.length < nameCache → g.saveRec < 6 * sectorSize →
    (∀ op ∈ s.hold, op.target ≠ g.tid) →
    ∃ t, exec .saveComplete s = .next t ∧ (t.nameEntry g.tid).state = .saved ∧ (t.nameEntry g.tid).loc = g.saveRec ∧
      (∀ y, t.thread g.tid = some y → y.resident = false ∧ y.migrating = false ∧ y.s = g.s ∧ y.v = g.v ∧ y.p = g.p ∧
        y.armA = g.armA ∧ y.armB = g.armB) ∧
      (s.mem.wf = true → t.mem.rd (g.saveRec + 8) 8 = g.name.toNat ∧ t.mem.rd (g.saveRec + 0x10) 4 = g.rank.toNat ∧
        t.mem.rd (g.saveRec + 0x20) 4 = g.sigPend.toNat)) ∧
  (∀ (s : State) (g : Group), s.ev = [g.tid] → s.thread g.tid = some g → s.resumable g = true →
    (s.unitOf g).find? (·.damaged) = none →
    (∀ u, s.resumeUnit (s.unitOf g) = some u → exec .groupResume s = .next u) ∧
    (s.resumeUnit (s.unitOf g) = none → exec .groupResume s = .next s)) ∧
  (∀ (s : State) (g : Group) (win : W64) (loc : CoreLoc) (y : Group), g.tid % 2 ^ 48 ≠ 0 → s.thread g.tid = some g →
    g.wakePend = false → g.armA.ws = .ready → g.armB.occ = false → g.info.mtx = false → (s.nameEntry g.tid).pending = 0 →
    (∀ op ∈ s.hold, op.target ≠ g.tid) → (s.resumeOn g win loc).thread g.tid = some y →
    y.resident = true ∧ y.loc = loc ∧ y.spwin = win ∧ y.s = g.s ∧ y.v = g.v ∧ y.p = g.p ∧ y.sigPend = g.sigPend ∧
      y.armA.pc = g.armA.pc ∧ y.armB.pc = g.armB.pc ∧ y.armA.bank = g.armA.bank ∧ y.armA.ws = g.armA.ws ∧
      ((s.resumeOn g win loc).nameEntry g.tid).state = .resident) ∧
  (∀ (s : State) (g : Group) (b : Bool), s.ev = [g.tid, if b then 1 else 0] → g.tid ≠ 0 → s.thread g.tid = some g →
    s.pressed g = false → (g.arm b).occ = true → (g.arm b).ws = .yld →
    ∃ t, exec .yieldReady s = .next t ∧ ∀ y, t.thread g.tid = some y → (y.arm b).ws = .ready ∧ (y.arm b).pc = (g.arm b).pc) ∧
  (∀ (s : State) (g : Group) (v : W32), s.ev = [g.tid] → g.tid % 2 ^ 48 ≠ 0 → s.thread g.tid = some g →
    (s.cur.tid = g.tid → ∀ h ∈ s.others, h.tid ≠ g.tid) → g.exiting = some v → g.seq = none →
    s.exitReady g = true → (g.full (.s 4) = true → g.full (.s 5) = true → Claims.expOf (g.val32 (.s 5) ++ g.val32 (.s 4)) = 63) →
    (s.nameEntry g.tid).joiners = [] →
    ∃ t, exec .groupExitComplete s = .next t ∧ (t.nameEntry g.tid).state = .dead ∧ (t.nameEntry g.tid).exitval = v ∧
      t.thread g.tid = none) ∧
  (∀ (s : State) (r : Nat), s.ev = [r] →
    (s.hangExpired r = false → exec .doldrumsExpiry s = .next s) ∧
    (s.hangExpired r = true → s.reports = [] → ∃ t, exec .doldrumsExpiry s = .next t ∧
      t = (({ s with hangs := (r, 0, s.clock) :: s.hangs.filter fun x => !(x.1 == r) }).regionFault
        (.plain .hang r 0 0 0) [])))

/-- A group as placed, its swaps, resumption and end.
Where firmware and dispatcher put a group's areas is the model's (logs 19, 20). -/
def Obligations.PlacementGroupEvents : Prop := Claims.PlacedGroup ∧ Claims.GroupEvents

/-- PRECTL.GO is ignored while BUSY, else BUSY is set for the region and issue stops in its subtree; DONE and ERR are
cleared by ones; PREEMPT_DRAIN_END, once no resident group and no sequencer of the subtree has anything in flight, marks the groups'
names MIGRATING; PREEMPT_DONE saves them, clears BUSY and sets DONE. REGION_END makes the names of a region's groups DEAD with
0xFFFF_FFFE and removes the region's launches and tiles; SAVE_IMAGE_IMPORT makes a name SAVED at the record (R123 to
R126, R150, R370, R422). The order of an event's payload is the model's (log 2); so are that GO leaves DONE as it stands (log
30), what of a launch the payload of an import says and the owner it gives a FREE name (log 15), and which names a record may
be imported for (log 33). -/
def Obligations.PreemptionEvents : Prop :=
  (∀ (s : State) (r : Nat), s.ev = [r] →
    (s.prectl.busy = true → exec .prectlGo s = .next s) ∧
    (s.prectl.busy = false → ∃ t, exec .prectlGo s = .next t ∧ t.prectl.busy = true ∧ t.prectl.region = r % 65536 ∧
      t.prectl.done = s.prectl.done ∧ t.prectl.err = s.prectl.err ∧
      ∀ g ∈ t.threads, ∀ b, (g.seq = none → t.inSubtree g.region (r % 65536) = true) →
        (∀ cl, g.seq = some cl → t.inSubtree (t.cluster cl).req.region (r % 65536) = true) →
        (g.arm b).finishing = false → (g.tid, b) ∉ s.fradb.stopping → t.canIssue g b = false)) ∧
  (∀ s : State, exec .prectlClearDone s = .next { s with prectl := { s.prectl with done := false } } ∧
    exec .prectlClearErr s = .next { s with prectl := { s.prectl with err := false } }) ∧
  (∀ s : State, s.prectl.busy = true → s.prectl.drained = false →
    (((∃ g ∈ s.preempted, s.drainedOf g.tid = false) ∨ (∃ cl < 144, (s.cluster cl).running = true ∧
        s.inSubtree (s.cluster cl).req.region s.prectl.region = true ∧ s.drainedOf (seqTid cl) = false)) →
      exec .preemptDrainEnd s = .next s) ∧
    (s.drainEnds = true → s.names.length + s.preempted.length ≤ nameCache →
      ∃ t, exec .preemptDrainEnd s = .next t ∧ t.prectl = { s.prectl with drained := true } ∧
        ∀ g ∈ s.preempted, g.tid % 2 ^ 48 ≠ 0 → (t.nameEntry g.tid).state = .migrating)) ∧
  (∀ s : State, s.prectl.busy = true → s.prectl.drained = true → ∃ t, exec .preemptDone s = .next t ∧
    t.prectl.busy = false ∧ t.prectl.done = true ∧ t.prectl.drained = false ∧
    (s.preempted = [] → (∀ c ∈ s.clusters, ∀ y ∈ c.tiles, y.bad = []) → t.prectl.err = s.prectl.err)) ∧
  (∀ (s : State) (r : Nat), s.ev = [r] → ∃ t, exec .regionEnd s = .next t ∧ (∀ l ∈ t.waiting, l.region ≠ r) ∧
    (∀ x ∈ t.started, x.launch.region ≠ r) ∧ (∀ c ∈ t.clusters, ∀ y ∈ c.tiles, y.owner ≠ some r) ∧
    ∀ g : Group, s.placedOf r = [g] → g.tid % 2 ^ 48 ≠ 0 → (∀ op ∈ s.hold, op.target ≠ g.tid) →
      (s.nameEntry g.tid).joiners = [] → (∀ x ∈ s.started, x.launch.region ≠ r) → (∀ x ∈ s.lost, x.2 ≠ r) →
      (t.nameEntry g.tid).state = .dead ∧ (t.nameEntry g.tid).exitval = 0xFFFFFFFE) ∧
  (∀ (s : State) (region area flags w h : Nat), s.ev = [region, area, flags, w, h] →
    let name := s.mem.rd (area + 8) 8
    area < 6 * sectorSize → flags.testBit 5 = false → name % 2 ^ 48 ≠ 0 → s.alive name = false →
    (s.nameEntry name).state = .free ∨ (s.nameEntry name).state = .migrating →
    (∀ op ∈ s.hold, op.target ≠ name) →
    (∀ x ∈ s.started, name < x.first + x.next ∨ x.first + x.launch.groups ≤ name) →
    ∃ t, exec .saveImageImport s = .next t ∧ (t.nameEntry name).state = .saved ∧ (t.nameEntry name).loc = area ∧
      ((s.nameEntry name).state = .free → (t.nameEntry name).owner = region) ∧
      ∃ g, t.thread name = some g ∧ g.resident = false ∧ g.region = region ∧
        g.rank = w32 (s.mem.rd (area + 0x10) 4) ∧ g.sigPend = w32 (s.mem.rd (area + 0x20) 4) ∧
        g.saveRec = area)

/-- SEQUENCER_TAKE_ENTRY: a free sequencer starts the routine of the best entry, with the requester's values and the
routine's entry point, after a cluster record that waits for the cluster, which is restored; ROUTINE_END makes it free,
its walks gone, and sends 0xFFFF_FFFF if no MSIG was made; MSIG_DELIVERY fills the token register; CLUST_BIND_TAKE binds
a cluster to its leader; REQUEST_HOLD_END lets a held read issue (R120, R147, R148, R165, R307, R315, R360). The order
of an event's payload is the model's (log 2), as is that SEQUENCER_TAKE_ENTRY restores a cluster record that waits (log 14). -/
def Obligations.SequencerEvents : Prop :=
  (∀ (s : State) (cl : Nat) (r : Resv), s.ev = [cl] → s.recDue cl = none → s.nextEntry cl = some r →
    (s.cluster cl).running = false → (s.cluster cl).leader = none → (s.cluster cl).leaving = false → cl < s.clusters.length →
    s.clusterOpen cl = true →
    (r.bind = false → ∃ t g, exec .sequencerTakeEntry s = .next t ∧ t.others = s.others ++ [g] ∧ t.cur = s.cur ∧
      (t.cluster cl).running = true ∧ (t.cluster cl).req = r ∧ (t.cluster cl).msigDone = false ∧
      (t.cluster cl).vr = 128 ∧ (t.cluster cl).vc = 128 ∧ (t.cluster cl).scaled = false ∧
      (g : Group).seq = some cl ∧ g.region = r.region ∧ g.rank = r.rank ∧ g.armA.occ = true ∧
      g.armA.pc = w64 (s.mem.rd (s.bases.rt + cl * 1024 + r.n * 16) 8) ∧ g.armA.mode = 0x00002006 ∧
      g.val32 (.s 0) = r.arg.setWidth 32 ∧ g.val32 (.s 1) = (r.arg >>> 32).setWidth 32 ∧
      g.val32 (.s 2) = w32 r.who.tid ∧ g.val32 (.s 3) = w32 (r.who.tid / 2 ^ 32) ∧ g.val32 (.s 4) = w32 r.n ∧
      g.val32 (.s 5) = w32 r.slot) ∧
    (r.bind = true → ∃ t, exec .clustBindTake s = .next t ∧ (t.cluster cl).leader = some r.n ∧ t.cur = s.cur ∧
      t.others = s.others)) ∧
  (∀ (s : State) (cl : Nat), s.ev = [cl] → s.recDue cl = none → s.nextEntry cl = none →
    exec .sequencerTakeEntry s = .next s ∧ exec .clustBindTake s = .next s) ∧
  (∀ (s : State) (cl : Nat) (x : ClusterRec), s.ev = [cl] → s.recDue cl = some x → cl < s.clusters.length →
    x.unit.bound = [] → x.unit.running = true → ∃ t, exec .sequencerTakeEntry s = .next t ∧
      (t.cluster cl).running = true ∧ (t.cluster cl).req = x.unit.req ∧ (t.cluster cl).walks = x.unit.walks ∧
      (t.cluster cl).engine = x.unit.engine ∧ (t.cluster cl).optable = x.unit.optable ∧
      t.others = s.others ++ x.seq.toList.map (fun g => { g with tid := seqTid cl, seq := some cl }) ∧ t.cur = s.cur) ∧
  (∀ (s : State) (cl : Nat) (g : Group), s.ev = [cl] → cl < s.clusters.length → (s.cluster cl).running = true →
    (s.cluster cl).ending = true → s.engineIdle cl = true → (s.cluster cl).bound = [] →
    (∀ w, some w ∈ (s.cluster cl).walks → w.awaitsDiscard = false) → s.thread (seqTid cl) = some g → g.mchecks = [] →
    (∀ f ∈ s.flight, g.discards f = false) → ∃ t, exec .routineEnd s = .next t ∧
      (t.cluster cl).running = false ∧ (t.cluster cl).walks = List.replicate 8 none ∧
      (t.cluster cl).tiles = (s.cluster cl).tiles.map (fun y => { y with busy := false }) ∧
      t.flight = s.flight ++ if (s.cluster cl).msigDone then [] else
        [.msig (s.cluster cl).req.who (s.cluster cl).req.reg cl 0xFFFFFFFF]) ∧
  (∀ (s : State) (w : Who) (cl : Nat) (reg : RegId) (x : W32), Claims.Delivers s .msigDelivery (.msig w reg cl x) fun u t =>
    t = (Claims.filled u w.tid [.word reg x]).syncRecord w.tid) ∧
  (∀ (s : State) (g : Group) (b : Bool), s.ev = [g.tid, if b then 1 else 0] → g.tid ≠ 0 → s.thread g.tid = some g →
    (g.arm b).occ = true → (g.arm b).ws = .held → g.heldBy b (g.arm b).wreg = false →
    ∃ t, exec .requestHoldEnd s = .next t ∧ ∀ y, t.thread g.tid = some y → (y.arm b).ws = .ready ∧ (y.arm b).pc = (g.arm b).pc)

/-- MATRIX_OP_START: the first operation that can start lowers the watermark of its tiles to 0, sets BUSY, the owner and the
valid counts; TILE_ROW_WRITTEN: a row of TZERO, TFILL or TLOAD lands and W rises by one; MATRIX_PASS_COMPLETE: once its
tiles are delivered a pass is made and its walk tiles are consumed, and after the last rows retire sixteen at a time;
TSTORE_ROW: a row below W is stored (R151, R309, R311). -/
def Sys2Proof.Claims.EngineEvents : Prop :=
  (∀ (s : State) (cl n td : Nat) (e : EngSlot) (c : Cluster), s.ev = [cl] → s.clusters.getD cl .reset = c → cl < s.clusters.length →
    s.engineStopped cl = false → s.startAt cl [] c.engine = some (n, e) → c.clustUsed = false → td < c.tiles.length →
    ((∃ tag x, e.op = .fill td tag x) ∨ (∃ tag m, e.op = .tload td tag m)) → ∃ t, exec .matrixOpStart s = .next t ∧
      ((t.cluster cl).tile td).w = 0 ∧ ((t.cluster cl).tile td).busy = true ∧
      ((t.cluster cl).tile td).owner = some e.region ∧ ((t.cluster cl).tile td).vr = e.vr ∧
      ((t.cluster cl).tile td).vc = e.vc ∧ ((t.cluster cl).tile td).cells = (c.tile td).cells ∧
      (∀ tag x, e.op = .fill td tag x → ((t.cluster cl).tile td).tag = tag) ∧
      t.mem = s.mem ∧ t.cur = s.cur) ∧
  (∀ (s : State) (cl : Nat), s.ev = [cl] → s.engineStopped cl = true →
    exec .matrixOpStart s = .next s ∧ exec .matrixPassComplete s = .next s ∧ exec .tileRowWritten s = .next s ∧
    exec .tstoreRow s = .next s) ∧
  (∀ (s : State) (cl n td tag : Nat) (x : W32) (e : EngSlot) (c : Cluster), s.ev = [cl] → s.clusters.getD cl .reset = c →
    cl < s.clusters.length → s.engineStopped cl = false →
    startedOp (fun e => e.op.tag.isSome) 0 c.engine = some (n, e) → e.op = .fill td tag x → c.clustUsed = false →
    td < c.tiles.length → (c.tile td).cells.wf = true → e.step < 128 → e.vc ≤ 128 → ∃ t, exec .tileRowWritten s = .next t ∧
      ((t.cluster cl).tile td).w = e.step + 1 ∧ ((t.cluster cl).tile td).busy = decide (e.step + 1 < 128) ∧
      ∀ i < 128, ∀ j < 128, ((t.cluster cl).tile td).elem i j =
        if i = e.step ∧ i < e.vr ∧ j < e.vc then x.toNat else (c.tile td).elem i j) ∧
  (∀ (s : State) (cl n td na nb pc : Nat) (entry : W32) (e : EngSlot) (c : Cluster) (wa wb : Walk), s.ev = [cl] →
    s.clusters.getD cl .reset = c → cl < s.clusters.length → s.engineStopped cl = false →
    runningMma 0 c.engine = some (n, e) → e.op = .mma td na nb pc entry false → c.clustUsed = false → td < c.tiles.length →
    c.walks.getD na none = some wa → c.walks.getD nb none = some wb →
    (e.step < wb.tiles → (wa.delivered < wb.needA (e.step + 1) ∨ wb.delivered < e.step + 1) →
      exec .matrixPassComplete s = .next s) ∧
    (wb.tiles ≤ e.step → 16 * (e.step + 2 - wb.tiles) < 128 → ∃ t, exec .matrixPassComplete s = .next t ∧
      ((t.cluster cl).tile td).w = 16 * (e.step + 2 - wb.tiles) ∧ ((t.cluster cl).tile td).busy = true ∧
      ((t.cluster cl).tile td).cells = (c.tile td).cells ∧ t.mem = s.mem) ∧
    (e.step < wb.tiles → wb.needA (e.step + 1) ≤ wa.delivered → e.step + 1 ≤ wb.delivered → na < 8 → nb < 8 → na ≠ nb →
      c.walks.length = 8 → wb.lastUse = false → wa.lastUse = false → (∀ d ∈ s.clusters, ∀ y ∈ d.tiles, y.bad = []) → ∃ t, exec .matrixPassComplete s = .next t ∧
        (∃ x, (t.cluster cl).walks.getD na none = some x ∧ x.consumed = wb.needA (e.step + 1)) ∧
        (∃ x, (t.cluster cl).walks.getD nb none = some x ∧ x.consumed = e.step + 1) ∧ t.mem = s.mem)) ∧
  (∀ (s : State) (cl n td a0 pitch pa : Nat) (rows : List (List (Place × Nat))) (e : EngSlot) (c : Cluster), s.ev = [cl] →
    s.clusters.getD cl .reset = c → s.engineStopped cl = false → s.nextTstore cl = some (n, e) →
    e.op = .tstore td a0 pitch rows → rows.getD e.step [] = [(.dev pa, 512)] → s.mem.wf = true →
    (∀ i < 128, (s.mdie (sectorOf (pa + 4 * i))).fenced = false ∧ (s.mdie (sectorOf (pa + 4 * i))).power.state = 0) →
    (c.tile td).bad = [] → (∀ d ∈ s.clusters, ∀ w, some w ∈ d.walks → w.lastUse = false) → ∃ t, exec .tstoreRow s = .next t ∧
      (∀ j < 128, t.mem.rd (pa + 4 * j) 4 = (c.tile td).elem e.step j) ∧
      ∀ a, (a < pa ∨ pa + 512 ≤ a) → t.mem.get a = s.mem.get a)

/-- WALK_TILE_FETCH: the permits that wait are taken; a walk with a permit reads its next tile, and a permit is used; WALK_TILE_DELIVERED counts one tile more;
TRD_SERVE: the oldest request whose row lies below W fills both registers from the row; TDRAIN_ROW stores the next row of
a drain below W, and after the last the arm goes on (R15, R151, R153, R155 to R157, R166, R303, R307). -/
def Sys2Proof.Claims.TileEvents : Prop :=
  (∀ (s : State) (cl n : Nat) (w : Walk), s.ev = [cl, n] → cl < s.clusters.length →
    (s.cluster cl).walks.getD n none = some w → n < (s.cluster cl).walks.length →
    ((s.cluster cl).permq = [] → s.fetchReady cl n w = true →
      s.walkErr (w.newPlaces (s.cluster cl).clustUsed w.data.length) = none →
      (∀ p ∈ w.newLines (s.cluster cl).clustUsed w.data.length, s.gated p = none) →
      ∃ t x, exec .walkTileFetch s = .next t ∧ (t.cluster cl).walks.getD n none = some x ∧ x.permits = w.permits - 1 ∧
        x.data.length = w.data.length + 1 ∧ t.mem = s.mem) ∧
    ((s.cluster cl).permq = [] → w.permits = 0 → exec .walkTileFetch s = .next s) ∧
    (∃ t, exec .walkTileFetch s = .next t ∧ (t.cluster cl).permq = []) ∧
    (w.delivered < w.data.length → exec .walkTileDelivered s = .next (s.modCluster cl fun c =>
      { c with walks := c.walks.set n (some { w with delivered := w.delivered + 1 }) })) ∧
    (w.data.length ≤ w.delivered → exec .walkTileDelivered s = .next s)) ∧
  (∀ (s : State) (pre post : List Flight) (who : Who) (q : TrdReq), s.flight = pre ++ .trd who q :: post →
    (∀ x ∈ pre, x.event ≠ .trdServe) → let tile := (s.cluster q.cl).tile q.tile
    q.row < tile.w → q.row < 128 → tile.bad = [] → ∃ t, exec .trdServe s = .next t ∧
      t = Claims.filled { s with flight := pre ++ post } who.tid
        [.lanes q.vd q.mask ((List.range 96).map fun k => w32 (tile.elem q.row k)) tile.tag,
         .lanes (q.vd + 1) q.mask ((List.range 96).map fun k => if k < 32 then w32 (tile.elem q.row (96 + k)) else 0)
          tile.tag]) ∧
  (∀ (s : State) (tid : Nat) (b : Bool) (d : Drain) (g : Group), s.drainReady = some (tid, b, d) → s.thread tid = some g →
    (g.arm b).ws = .tdrain → tid ≠ 0 → ∃ t, exec .tdrainRow s = .next t ∧ ∀ y, t.thread tid = some y →
      (y.arm b).drain = some { d with row := d.row + 1 } ∧
      (d.rows.length ≤ d.row + 1 → (y.arm b).ws = .ready ∧ (y.arm b).replay = true) ∧
      (d.row + 1 < d.rows.length → (y.arm b).ws = .tdrain)) ∧
  (∀ (s : State), s.drainReady = none → exec .tdrainRow s = .next s)

/-- The matrix engine, the walks and the rows of tiles. The order of an event's payload is the model's (log 2), as is that
WALK_TILE_FETCH takes every permit that waits at once (log 12). -/
def Obligations.EngineTileEvents : Prop := Claims.EngineEvents ∧ Claims.TileEvents

/-- DIEPWR_REQ writes REQ, the owner's head only, 3 as 0; DIE_POWER_DOWN: a compute die with no group, routine or engine
operation, or a memory die with nothing pending, takes the state asked for, D2 without its tiles; DIE_WAKE_COMPLETE
brings a die to D0; THERMAL_THROTTLE at TEMPEMERG sets THROT, THERMAL_UNTHROTTLE below it by more than 5 clears it;
THERMAL_EMERGENCY 10 above pre-empts the die's regions and excludes it; THERMAL_TRIP, DIE_LINK_FAIL and DIE_SELF_FENCE
fence; POWER_OVER_CAP lowers TOKCAP and throttles the hottest dies; MEMORY_UNCORRECTABLE damages a line that was not cached
clean, or a word of the weight store,
REGISTER_UNCORRECTABLE a register; WEIGHT_BANK_REFRESH goes on to the next bank, WEIGHT_REFRESH_FAIL damages one;
CLUSTER_RETIRE and CHANNEL_RETIRE use a spare; SECURITY_ALARM cuts debugging and zeroes ERASE keys (R71, R115, R203 to
R206, R392, R393, R395, R421 to R427).
The order of an event's payload is the model's (log 2); event kinds are of log 25. That the alarm empties the attachments of
fradb and takes VALID from erased keys (log 34), and that TEMP takes the event's T (log 38), are the model's choices. -/
def Obligations.DieEvents : Prop :=
  (∀ (s : State) (d r h : Nat), (s.ev = [d, 0, r, h] ∨ s.ev = [d, 1, r, h]) →
    (h ≠ s.owner → exec .diepwrReq s = .next s) ∧
    (h = s.owner → r < 4 → exec .diepwrReq s = .next (s.modPower d (s.ev = [d, 1, r, h]) fun p =>
      { p with req := if r = 3 then 0 else r }))) ∧
  (∀ (s : State) (d : Nat), s.ev = [d, 0] → d < s.dies.length →
    (s.dieIdle d = false → exec .diePowerDown s = .next s) ∧
    (s.dieIdle d = true → (s.die d).power.state = 0 → (s.die d).power.req = 1 → exec .diePowerDown s = .next (s.modDie d fun x =>
      { x with power := { x.power with state := 1 } })) ∧
    (s.dieIdle d = true → (s.die d).power.state < 2 → (s.die d).power.req = 2 → s.tilesFree d = true →
      ∃ t, exec .diePowerDown s = .next t ∧ (t.die d).power.state = 2 ∧ t.cur = s.cur ∧ t.others = s.others ∧ t.mem = s.mem ∧
        ∀ cl, 24 * d ≤ cl → cl < 24 * d + 24 → (t.cluster cl).tiles = Cluster.reset.tiles) ∧
    ((s.die d).power.state ≠ 0 → (s.die d).power.req = 0 → (s.die d).excluded = false →
      (s.die d).latch = [] → exec .dieWakeComplete s = .next (s.modDie d fun x => { x with power := { x.power with state := 0 } })) ∧
    ((s.die d).power.state = 0 → exec .dieWakeComplete s = .next s) ∧
    ((s.die d).fenced = true → exec .dieLinkFail s = .next s ∧ exec .dieSelfFence s = .next s) ∧
    ∃ t u, exec .dieLinkFail s = .next t ∧ (t.die d).fenced = true ∧ exec .dieSelfFence s = .next u ∧ (u.die d).fenced = true) ∧
  (∀ (s : State) (d : Nat), s.ev = [d, 1] → d < s.mdies.length →
    ((s.mdie d).power.state < (s.mdie d).power.req → s.mdieIdle d = true → ∃ t, exec .diePowerDown s = .next t ∧
      (t.mdie d).power.state = (s.mdie d).power.req ∧ t.mem = s.mem) ∧
    (s.mdieIdle d = false → exec .diePowerDown s = .next s) ∧
    ((s.mdie d).power.state ≠ 0 → (s.mdie d).held = [] → exec .dieWakeComplete s = .next (s.modMdie d fun x =>
      { x with power := { x.power with state := 0 }, asked := false })) ∧
    ∃ t u, exec .dieLinkFail s = .next t ∧ (t.mdie d).fenced = true ∧ exec .dieSelfFence s = .next u ∧ (u.mdie d).fenced = true) ∧
  (∀ (s : State) (d T : Nat), s.ev = [d, 0, T] → d < s.dies.length → let p := (s.die d).power
    (T < p.tempEmerg → exec .thermalThrottle s = .next s) ∧
    (p.tempEmerg ≤ T → (∀ q < 24, (s.link q).changing = false) → ∃ t, exec .thermalThrottle s = .next t ∧
      (t.die d).power = { p with temp := T, throt := true, wants := none } ∧ t.mem = s.mem) ∧
    (p.tempEmerg ≤ T → p.throt = false → (∃ q < 24, (s.link q).changing = true) → ∃ t, exec .thermalThrottle s = .next t ∧
      (t.die d).power.throt = false ∧ (t.die d).power.wants.isSome = true) ∧
    (T + 5 < p.tempEmerg → ∃ t, exec .thermalUnthrottle s = .next t ∧ (t.die d).power.throt = false ∧
      (t.die d).excluded = false ∧ t.mem = s.mem) ∧
    (p.tempEmerg ≤ T + 5 → exec .thermalUnthrottle s = .next s)) ∧
  (∀ (s : State) (d T : Nat), s.ev = [d, T] → d < s.dies.length →
    (T < (s.die d).power.tempEmerg + 10 → exec .thermalEmergency s = .next s) ∧
    ((s.die d).power.tempEmerg + 10 ≤ T → ∃ t, exec .thermalEmergency s = .next t ∧ (t.die d).excluded = true ∧
      ∀ g ∈ s.threads, g.seq = none → g.resident = true → g.loc.cluster / 24 = d → g.region ∈ t.prectl.queue)) ∧
  (∀ (s : State) (d : Nat), s.ev = [d] → d < s.dies.length →
    (∃ t, exec .thermalTrip s = .next t ∧ (t.die d).fenced = true) ∧
    (1000 ≤ s.refreshed d → exec .weightBankRefresh s = .next (s.modDie d fun x =>
      { x with bank := (x.bank + 1) % 32, bankAt := x.bankAt + 1000 })) ∧
    (s.refreshed d < 1000 → exec .weightBankRefresh s = .next s)) ∧
  (∀ (s : State) (c : Nat), s.ev = [c] → exec .powerOverCap s = .next { s with tokcap := if c < s.tokcap then c else s.tokcap }) ∧
  (∀ (s : State) (c d : Nat), s.ev = [c, 1] → d < 6 → d < s.dies.length → (∀ q < 24, (s.link q).changing = false) →
    (∀ e < 6, e ≠ d → (s.die e).power.temp < (s.die d).power.temp) → (s.die d).power.throt = false →
    (s.die d).power.wants = none → (s.die d).fenced = false → ∃ t, exec .powerOverCap s = .next t ∧
      t.tokcap = (if c < s.tokcap then c else s.tokcap) ∧ (t.die d).power.throt = true ∧
      ∀ e < 6, e ≠ d → (t.die e).power = (s.die e).power) ∧
  (∀ (s : State) (d b : Nat), s.ev = [d, b] → d < s.dies.length → b < 32 → ∃ t, exec .weightRefreshFail s = .next t ∧
    (∀ i < 32, (t.die d).badBanks.getLsbD i = (decide (i = b) || (s.die d).badBanks.getLsbD i)) ∧ t.weights = s.weights) ∧
  (∀ (s : State) (a x : Nat), (s.ev = [a, 1, x] → exec .memoryUncorrectable s = .next s) ∧
    (s.ev = [a, 0, 0] → (s.mdie (sectorOf (a / 64 * 64))).damaged.length < 1024 → ∃ t, exec .memoryUncorrectable s = .next t ∧
      (sectorOf (a / 64 * 64) < s.mdies.length → t.damaged (a / 64 * 64) = true) ∧ t.mem = s.mem ∧ t.cur = s.cur) ∧
    (∀ d, s.ev = [a, 0, 0, d + 1] → exec .memoryUncorrectable s = .next (s.modDie d fun y =>
      { y with badWords := a / 4 * 4 :: y.badWords }))) ∧
  (∀ (s : State) (tid k n l : Nat), s.ev = [tid, k, n, l] → k ≠ 6 → exec .registerUncorrectable s = .next (s.modThread tid fun g =>
    { g with bad := (k, n, l) :: g.bad })) ∧
  (∀ (s : State) (cl : Nat), s.ev = [cl] → cl < s.clusters.length → cl / 24 < s.dies.length →
    (∀ g ∈ s.threads, g.seq = none → g.resident = true → g.loc.cluster ≠ cl) → (s.cluster cl).running = false →
    (s.cluster cl).leader = none →
    ((s.die (cl / 24)).spares = 0 → ∃ t, exec .clusterRetire s = .next t ∧ (t.cluster cl).retired = true) ∧
    ((s.die (cl / 24)).spares ≠ 0 → ∃ t, exec .clusterRetire s = .next t ∧
      (t.die (cl / 24)).spares = (s.die (cl / 24)).spares - 1 ∧ t.mem = s.mem ∧
      t.cluster cl = { Cluster.reset with resv := (s.cluster cl).resv })) ∧
  (∀ (s : State) (d ch : Nat), s.ev = [d, ch] → (s.mdie d).spares ≠ 0 → exec .channelRetire s = .next (s.modMdie d fun x =>
    { x with spares := x.spares - 1 })) ∧
  (∀ (s : State) (x : Nat), s.ev = [x] → ∃ t, exec .securityAlarm s = .next t ∧ t.alarm = true ∧ t.debugCut = true ∧
    t.identity = false ∧ t.fradb.attached = [] ∧ (∀ k ∈ t.keys, k.erase = true → k.valid = false ∧ k.erased = true) ∧
    t.weights = s.weights)

/-- The events of a die's power, heat, errors and spares each complete, for every state in which their condition holds:
DIEPWR_REQ of the owner's head writes REQ; DIE_POWER_DOWN puts an idle compute die into D1, DIE_WAKE_COMPLETE takes one
that is asked back to D0; THERMAL_THROTTLE sets THROT, THERMAL_UNTHROTTLE clears it, THERMAL_EMERGENCY excludes the die;
THERMAL_TRIP, DIE_LINK_FAIL and DIE_SELF_FENCE fence it; POWER_OVER_CAP lowers TOKCAP; MEMORY_UNCORRECTABLE lists the
line, REGISTER_UNCORRECTABLE marks the register; WEIGHT_BANK_REFRESH goes on to the next bank, WEIGHT_REFRESH_FAIL
damages one; CLUSTER_RETIRE and CHANNEL_RETIRE use a spare; SECURITY_ALARM cuts debugging and zeroes ERASE keys (R71,
R115, R203 to R206, R392, R393, R395, R421 to R427). The order of an event's payload is the model's (log 2). That erased keys
lose VALID (log 34) and that TEMP takes the event's T (log 38) are the model's choices. -/
def Obligations.DieFormsComplete : Prop :=
  (∀ (s : State) (d r : Nat), s.ev = [d, 0, r, s.owner] → r < 3 →
    exec .diepwrReq s = .next (s.modDie d fun x => { x with power := { x.power with req := r } })) ∧
  (∀ (s : State) (d : Nat), s.ev = [d, 0] → s.dieIdle d = true → (s.die d).power.state = 0 → (s.die d).power.req = 1 →
    exec .diePowerDown s = .next (s.modDie d fun x => { x with power := { x.power with state := 1 } })) ∧
  (∀ (s : State) (d : Nat), s.ev = [d, 0] → (s.die d).power.state ≠ 0 → (s.die d).power.req = 0 →
    (s.die d).excluded = false → (s.die d).latch = [] →
    exec .dieWakeComplete s = .next (s.modDie d fun x => { x with power := { x.power with state := 0 } })) ∧
  (∀ (s : State) (d T : Nat), s.ev = [d, 0, T] → d < s.dies.length →
    ((s.die d).power.tempEmerg ≤ T → (∀ q < 24, (s.link q).changing = false) →
      ∃ t, exec .thermalThrottle s = .next t ∧ (t.die d).power.throt = true) ∧
    (T + 5 < (s.die d).power.tempEmerg → ∃ t, exec .thermalUnthrottle s = .next t ∧ (t.die d).power.throt = false)) ∧
  (∀ (s : State) (d T : Nat), s.ev = [d, T] → d < s.dies.length → (s.die d).power.tempEmerg + 10 ≤ T →
    ∃ t, exec .thermalEmergency s = .next t ∧ (t.die d).excluded = true ∧ (t.die d).power.temp = T) ∧
  (∀ (s : State) (d : Nat), s.ev = [d] → d < s.dies.length →
    ∃ t, exec .thermalTrip s = .next t ∧ (t.die d).fenced = true) ∧
  (∀ (s : State) (d : Nat), s.ev = [d, 0] → d < s.dies.length →
    (∃ t, exec .dieLinkFail s = .next t ∧ (t.die d).fenced = true) ∧
    ∃ t, exec .dieSelfFence s = .next t ∧ (t.die d).fenced = true) ∧
  (∀ (s : State) (c : Nat), s.ev = [c] → exec .powerOverCap s = .next { s with tokcap := min c s.tokcap }) ∧
  (∀ (s : State) (a : Nat), s.ev = [a, 0, 0] → (s.mdie (sectorOf (a / 64 * 64))).damaged.length < 1024 →
    exec .memoryUncorrectable s = .next (s.listDamage (a / 64 * 64))) ∧
  (∀ (s : State) (tid k n l : Nat), s.ev = [tid, k, n, l] → k < 6 →
    exec .registerUncorrectable s = .next (s.modThread tid fun g => { g with bad := (k, n, l) :: g.bad })) ∧
  (∀ (s : State) (d : Nat), s.ev = [d] → 1000 ≤ s.refreshed d → exec .weightBankRefresh s =
    .next (s.modDie d fun x => { x with bank := (x.bank + 1) % 32, bankAt := x.bankAt + 1000 })) ∧
  (∀ (s : State) (d b : Nat), s.ev = [d, b] → d < s.dies.length → b < 32 →
    ∃ t, exec .weightRefreshFail s = .next t ∧ (t.die d).badBanks.getLsbD b = true) ∧
  (∀ (s : State) (cl : Nat), s.ev = [cl] → s.clusterBusy cl = false → (s.die (cl / 24)).spares ≠ 0 →
    exec .clusterRetire s = .next ((s.modCluster cl fun c => { Cluster.reset with resv := c.resv }).modDie (cl / 24) fun x =>
      { x with spares := x.spares - 1 })) ∧
  (∀ (s : State) (d ch : Nat), s.ev = [d, ch] → (s.mdie d).spares ≠ 0 →
    exec .channelRetire s = .next (s.modMdie d fun x => { x with spares := x.spares - 1 })) ∧
  (∀ (s : State) (x : Nat), s.ev = [x] → ∃ t, exec .securityAlarm s = .next t ∧ t.alarm = true ∧ t.debugCut = true ∧
    t.identity = false ∧ ∀ k ∈ t.keys, k.erase = true → k.valid = false)

/-- LINK_TRAINING brings a port up to its far end and records a changed INCARN, with whole lanes after its optical engine has
been replaced, whose other ports are down; FLIT_CRC_ERROR counts the flits replayed, and the eighth
replay brings the port down, as LINK_ACK_TIMEOUT does; LANE_RETIRE takes the spare lane, then halves the width, and with no
lane left brings the port down; WIDTH_CHANGE_COMPLETE ends a change; HOST_LOSS loses a host, whose ports stay as they are, and
unbinds its name ports, once a complex is active; HOWN_ADOPT with the present EPOCH makes the head the owner and increases EPOCH, with another sets STALE;
HOWN_CLEAR_STALE clears it; REGISTER_WRITE is discarded from a head that is not the owner (R5, R64, R194, R195, R198, R398,
R413 to R417; register numbers of log 27). The order of an event's payload is the model's (log 2), as are that LANE_RETIRE at
width 3 brings the port down and which ports an optical engine holds (log 35). -/
def Obligations.LinkEvents : Prop :=
  (∀ (s : State) (p far inc : Nat), s.ev = [p, far, inc, 0] → p < s.links.length →
    (128 ≤ far → ∃ t, exec .linkTraining s = .next t ∧ (t.link p).up = true ∧ (t.link p).peer = none ∧
      (t.link p).host = far - 128 ∧ t.peers = s.peers) ∧
    (far < 128 → far < s.peers.length → ∃ t, exec .linkTraining s = .next t ∧ (t.link p).up = true ∧
      (t.link p).peer = some far ∧ (t.peer far).incarn = inc ∧ (t.peer far).valid = (s.peer far).valid)) ∧
  (∀ (s : State) (p far inc : Nat), s.ev = [p, far, inc, 1] → s.links.length = 24 → p < 24 → 128 ≤ far →
    ∃ t, exec .linkTraining s = .next t ∧ (t.link p).up = true ∧ (t.link p).width = 0 ∧ (t.link p).spare = false ∧
      ∀ q, q / 4 = p / 4 → q ≠ p → (t.link q).up = false ∧ (t.link q).width = 0 ∧ (t.link q).spare = false) ∧
  (∀ (s : State) (p : Nat), p < s.links.length →
    (∀ n, s.ev = [p, 0, n] → 1 ≤ n → exec .flitCrcError s = .next (s.modLink p fun l =>
      { l with retries := if l.retries + n < 65535 then l.retries + n else 65535, replays := 1 })) ∧
    (s.ev = [p, 1] → (s.link p).replays < 7 → exec .flitCrcError s = .next (s.modLink p fun l =>
      { l with retries := if l.retries + 1 < 65535 then l.retries + 1 else 65535, replays := l.replays + 1 })) ∧
    (s.ev = [p, 1] → 7 ≤ (s.link p).replays → (s.link p).up = true → ∃ t, exec .flitCrcError s = .next t ∧
      (t.link p).up = false ∧ (t.link p).downev = true) ∧
    (s.ev = [p] →
      (∃ t, exec .linkAckTimeout s = .next t ∧ (t.link p).up = false ∧ ((s.link p).up = true → (t.link p).downev = true)) ∧
      ((s.link p).spare = false → exec .laneRetire s = .next (s.modLink p fun l =>
        { l with spare := true, failed := l.failed + 1 })) ∧
      ((s.link p).spare = true → (s.link p).width < 3 → exec .laneRetire s = .next (s.modLink p fun l =>
        { l with failed := l.failed + 1, width := l.width + 1, widthev := true, changing := true })) ∧
      ((s.link p).spare = true → (s.link p).width = 3 → ∃ t, exec .laneRetire s = .next t ∧ (t.link p).up = false) ∧
      ((s.link p).changing = false → exec .widthChangeComplete s = .next s) ∧
      ((s.link p).changing = true → ∃ t, exec .widthChangeComplete s = .next t ∧ (t.link p).changing = false ∧
        (∀ d < s.dies.length, (s.die d).power.wants = some [p] → (t.die d).power.throt = true) ∧ t.mem = s.mem))) ∧
  (∀ (s : State) (h : Nat),
    (s.ev = [h, 0] → s.trayUp h = true → exec .hostLoss s = .next s) ∧
    (s.ev = [h, 1] → ∃ t, exec .hostLoss s = .next t ∧ t.trayUp h = false ∧ t.links = s.links ∧
      (s.activeComplex ≠ none → ∀ p ∈ t.ports, p.host ≠ h) ∧
      (s.complexes.any (·.active) = false → t.ports = s.ports ∧
        t.fwWait = s.fwWait ++ (s.ports.filter fun p => p.host == h).map fun p => .event .portUnbind [p.id]))) ∧
  (∀ (s : State) (h e : Nat), s.ev = [h, e] → h < 2 → s.howns.length = 2 → e < 65536 →
    (e = s.epoch % 65536 → ∃ t, exec .hownAdopt s = .next t ∧ t.owner = h ∧ t.epoch = s.epoch + 1 ∧
      t.howns.map (·.owned) = [h == 0, h == 1]) ∧
    (e ≠ s.epoch % 65536 → ∃ t, exec .hownAdopt s = .next t ∧ t.owner = s.owner ∧ t.epoch = s.epoch ∧ t.mem = s.mem ∧
      t.howns.map (·.owned) = s.howns.map (·.owned) ∧ (t.howns[h]?.map (·.stale)) = some true)) ∧
  (∀ (s : State) (h : Nat), s.ev = [h] → h < 2 → ∃ t, exec .hownClearStale s = .next t ∧ t.owner = s.owner ∧
    ∀ x, t.howns[h]? = some x → x.stale = false) ∧
  (∀ (s : State) (r v h : Nat), s.ev = [r, v, h] →
    (h ≠ s.owner → r / 256 ≠ 2 → r / 256 ≠ 9 → exec .registerWrite s = .next s) ∧
    (h = s.owner → r = 0x400 → exec .registerWrite s = .next { s with tokcap := v }) ∧
    (h = s.owner → r < 24 → r < s.links.length → ∃ t, exec .registerWrite s = .next t ∧
      (t.link r).downev = ((s.link r).downev && !(v / 16 % 2 == 1)) ∧
      (t.link r).widthev = ((s.link r).widthev && !(v / 32 % 2 == 1)) ∧ (t.link r).up = (s.link r).up))

/-- FIRMWARE_HEARTBEAT_TIMEOUT: the standby becomes active and the old active is held in reset, and with no standby both are
down, which the boot ROM reports; LIVE_UPDATE of an image that
does not verify changes no role and no marker, of one that does, with intake quiescent, hands over, where the standby fails
before leaves the active one; it waits for an active complex; COMPLEX_BOOT runs the verified
image that the valid marker of higher MSEQ names, slot 0 with no valid marker, and is in recovery with no image that
verifies; POWER_UP without a state table increases INCARN and makes complex A active where it boots; POWER_LOSS and
DEVICE_RESET give registers their reset values, DEVICE_RESET keeping memory and increasing INCARN; REGISTER_SERVICER of the
owner's head names a die's servicer and is answered, once a complex is active; SPDM requests are answered while a complex is active, and wait
otherwise, with codes of log 28 (R194, R199 to R202, R418 to R420, R427, R437).
The order of an event's payload is the model's (log 2), as are the state that firmware keeps in flash and
its state table (logs 19, 36), and the form of reports over the management interface (log 28). -/
def Obligations.FirmwareEvents : Prop :=
  (∀ (s : State) (a b : Nat), s.activeComplex = some a → s.standby = some b → a < s.complexes.length → b < s.complexes.length →
    (∃ t, exec .firmwareHeartbeatTimeout s = .next t ∧ t.activeComplex = some b ∧ (t.complex a).up = false ∧
      t.cur = s.cur ∧ t.others = s.others ∧ t.names = s.names) ∧
    (∀ v key q n dig f, s.ev = [v, key, q, n, dig, f] → key ≠ s.fuse ∨ dig ≠ n → ∃ t, exec .liveUpdate s = .next t ∧
      t.activeComplex = some a ∧ t.mem = s.mem ∧ (t.complex b).running = (s.complex b).running ∧
      (t.complex b).mark0 = (s.complex b).mark0 ∧ (t.complex b).mark1 = (s.complex b).mark1) ∧
    (∀ v n, s.ev = [v, s.fuse, 1, n, n, 0] → (∀ T, s.stateTable = some T → T.version ≤ v) → ∃ t,
      exec .liveUpdate s = .next t ∧ t.activeComplex = some b ∧ (t.complex b).running = 1 - (s.complex b).running ∧
      (t.complex b).version = v ∧ t.stateTable = s.stateTable ∧ t.mem = s.mem) ∧
    (∀ v q n, s.ev = [v, s.fuse, q, n, n, 1] → ∃ t, exec .liveUpdate s = .next t ∧ t.activeComplex = some a ∧
      (t.complex b).up = false ∧ t.stateTable = s.stateTable ∧ t.mem = s.mem)) ∧
  (∀ s : State, s.activeComplex = none → exec .firmwareHeartbeatTimeout s = .next s ∧
    exec .liveUpdate s = .next { s with fwWait := s.fwWait ++ [.event .liveUpdate s.ev] }) ∧
  (∀ (s : State) (a : Nat), s.activeComplex = some a → s.standby = none → s.complexes.length = 2 →
    (s.complex (1 - a)).up = false → (s.complex (1 - a)).active = false → exec .liveUpdate s = .next s ∧
    ∃ t, exec .firmwareHeartbeatTimeout s = .next t ∧ t.activeComplex = none ∧ (t.complex a).up = false ∧
      t.mgmt = s.mgmt ++ [(1, [])]) ∧
  (∀ (s : State) (i : Nat), s.ev = [i] → i < 2 → s.complexes.length = 2 → let c := s.complex i
    (c.up = true → exec .complexBoot s = .next s) ∧
    (c.up = false → c.slot0.verifies s.fuse = false → c.slot1.verifies s.fuse = false → ∃ t,
      exec .complexBoot s = .next t ∧ (t.complex i).recovery = true ∧ (t.complex i).up = false ∧
      t.mgmt = s.mgmt ++ [(0, [i])]) ∧
    (c.up = false → c.active = false → c.mark0.valid = true → c.mark1.valid = true →
      let m := if c.mark0.mseq.toNat < c.mark1.mseq.toNat then c.mark1 else c.mark0
      (m.slot = 0 ∧ c.slot0.verifies s.fuse = true ∨ m.slot = 1 ∧ c.slot1.verifies s.fuse = true) → ∃ t, exec .complexBoot s = .next t ∧
        (t.complex i).up = true ∧ (t.complex i).running = m.slot ∧ (t.complex i).active = s.activeComplex.isNone) ∧
    (c.up = false → c.mark0.valid = false → c.mark1.valid = false → c.slot0.verifies s.fuse = true →
      ∃ t, exec .complexBoot s = .next t ∧ (t.complex i).up = true ∧ (t.complex i).running = 0)) ∧
  (∀ s : State, (∀ v, s.stateTable = some v → exec .powerUp s = .next s) ∧
    (s.ev = [1] → s.stateTable = none → s.complexes = [.reset, .reset] → s.fuse = 1 → ∃ t, exec .powerUp s = .next t ∧
      t.incarn = (s.incarn + 1) % 65536 ∧ t.activeComplex = some 0 ∧ t.cur = s.cur ∧ t.others = s.others)) ∧
  (∀ s : State, ∃ t u, exec .powerLoss s = .next t ∧ exec .deviceReset s = .next u ∧
    t.mem = .empty ∧ t.stateTable = none ∧ t.alarm = false ∧
    (s.mem.wf = true → ∀ a, (a < s.bases.handover ∨ s.bases.handover + 65536 ≤ a) → u.mem.get a = s.mem.get a) ∧
    u.stateTable = s.stateTable ∧ u.alarm = s.alarm ∧ u.incarn = (s.incarn + 1) % 65536 ∧
    ∀ x : State, x = t ∨ x = u → x.cur = .idle ∧ x.others = [] ∧ x.names = [] ∧ x.skeins = [] ∧ x.started = [] ∧
      x.waiting = [] ∧ x.flight = [] ∧ x.tlb = [] ∧ x.watches = [] ∧ x.keys = s.keys ∧
      (∀ c ∈ x.clusters, c.running = false ∧ c.tiles = Cluster.reset.tiles ∧ c.optable = Cluster.reset.optable) ∧
      (∀ d ∈ x.dies, d.power = .reset ∧ d.servicer = 0 ∧ d.fenced = false)) ∧
  (∀ (s : State) (d n h : Nat), s.ev = [d, n, h] →
    (h ≠ s.owner → exec .registerServicer s = .next s) ∧
    (h = s.owner → s.activeComplex ≠ none → d < s.dies.length → ∃ t, exec .registerServicer s = .next t ∧
      (t.die d).servicer = n ∧ (∀ e, e ≠ d → t.die e = s.die e) ∧ t.mgmt = s.mgmt ++ [(2, [d, n])] ∧ t.mem = s.mem ∧
      t.cur = s.cur ∧ t.stateTable.isSome = true) ∧
    (h = s.owner → s.complexes.any (·.active) = false → exec .registerServicer s =
      .next { s with fwWait := s.fwWait ++ [.event .registerServicer s.ev] })) ∧
  (∀ (s : State) (m : Nat), m < 3 → s.ev = [m, 0] ∨ s.ev = [m, 1] →
    let reply (u : State) (i : Sys2Proof.Instr) (r : List Nat) : Prop :=
      (s.activeComplex ≠ none → s.ev = [m, 0] → exec i s = .next { u with spdm := s.spdm ++ [(m, r)] }) ∧
      (s.activeComplex ≠ none → s.ev = [m, 1] → exec i s = .next { u with
        spdm := s.spdm ++ [(m, r)]
        spdmWait := s.spdmWait.erase (m, i) }) ∧
      (s.complexes.any (·.active) = false → s.ev = [m, 0] → exec i s = .next { u with spdmWait := s.spdmWait ++ [(m, i)] })
    let own (r : List Nat) : List Nat := if s.identity then r else [0x7F, 0x05]
    reply s .spdmGetVersion [0x04, 0x12] ∧ reply s .spdmGetCapabilities [0x61, Config.spdmValue 0 0] ∧
    reply s .spdmNegotiateAlgorithms [0x63, 4, 1] ∧ reply s .spdmGetDigests (own [0x01, Config.spdmValue 1 0]) ∧
    reply s .spdmGetCertificate (own [0x02, Config.spdmValue 2 0]) ∧
    reply { s with fresh := s.fresh + 1 } .spdmChallenge (own [0x03, Config.spdmValue 3 s.fresh]) ∧
    (∃ m : List Nat, m.length = 18 ∧ reply s .spdmGetMeasurements (own (0x60 :: m))) ∧ reply s .spdmUnsupported [0x7F, 0x07])

/-- fradb: attaching adds a region, whose instructions the breakpoints that stand stop too; a breakpoint stores the BKPT word and keeps the original; CONTINUE restores the
instruction and ends the hold; STEP lets one arm of the held group go on; PRINT, NAME, SAVE, X, PLQ, SKEIN, TILE and TILE_ROW
report what is attached and change nothing else; the intake hold is set and released; after an alarm ATTACH, CONTINUE, STEP
and the intake hold act no more (R355 to R358, R361, R427, R436; the form of reports is the model's).
The order of an event's payload is the model's (log 2), the form of reports of log 29. -/
def Obligations.DebugEvents : Prop :=
  (∀ (s : State) (r : Nat), s.ev = [r] →
    (s.debugCut = false → r ∉ s.fradb.attached → s.fradb.breaks = [] → exec .fradbAttach s = .next { s with
      fradb := { s.fradb with attached := s.fradb.attached ++ [r] } }) ∧
    (s.debugCut = true → exec .fradbAttach s = .next s)) ∧
  (∀ (s : State) (a pa k r : Nat) (ws : List (Nat × W32)), s.ev = [r] → s.debugCut = false → r ∉ s.fradb.attached →
    s.fradb.breaks = [⟨a, ws, k, false⟩] → s.regionPlace a r = some (.dev pa) →
    (∀ x ∈ ws, s.regionPlace a x.1 ≠ some (.dev pa)) → (s.mdie (sectorOf pa)).fenced = false → s.mem.wf = true →
    ∃ t, exec .fradbAttach s = .next t ∧ t.fradb.attached = s.fradb.attached ++ [r] ∧ t.mem.rd pa 4 = 0x44000018 ∧
      t.fradb.breaks = [⟨a, ws ++ [(r, w32 (s.mem.rd pa 4))], k, false⟩]) ∧
  (∀ (s : State) (a pa k r : Nat), s.fradb.attached = [r] → s.regionPlace a r = some (.dev pa) →
    (s.mdie (sectorOf pa)).fenced = false → s.mem.wf = true → s.breakAt a = none → s.debugCut = false →
    (s.ev = [a] → ∃ t, exec .fradbBreak s = .next t ∧ t.mem.rd pa 4 = 0x44000018 ∧
      t.fradb.breaks = s.fradb.breaks ++ [⟨a, [(r, w32 (s.mem.rd pa 4))], 0, false⟩] ∧
      ∀ x, (x < pa ∨ pa + 4 ≤ x) → t.mem.get x = s.mem.get x) ∧
    (s.ev = [a, k] → ∃ t, exec .fradbBreakHit s = .next t ∧ t.mem.rd pa 4 = 0x44000018 ∧
      t.fradb.breaks = s.fradb.breaks ++ [⟨a, [(r, w32 (s.mem.rd pa 4))], k, false⟩])) ∧
  (∀ (s : State) (tid : Nat) (b : Bool) (g : Group), s.ev = [tid, if b then 1 else 0] → tid ≠ 0 →
    s.thread tid = some g →
    (s.debugCut = true ∨ g.region ∉ s.fradb.attached → exec .fradbContinue s = .next s ∧ exec .fradbStep s = .next s) ∧
    (s.debugCut = false → g.region ∈ s.fradb.attached → g.hold = false →
      exec .fradbContinue s = .next s ∧ exec .fradbStep s = .next s) ∧
    (s.debugCut = false → g.region ∈ s.fradb.attached → g.hold = true →
      (∃ t, exec .fradbContinue s = .next t ∧ (tid, b) ∉ t.fradb.stepping ∧ (tid, b) ∉ t.fradb.refused ∧
        ∀ y, t.thread tid = some y → y.hold = false) ∧
      ∃ t, exec .fradbStep s = .next t ∧ (tid, b) ∈ t.fradb.stepping ∧ (tid, b) ∈ t.fradb.passing ∧
        (∀ x ∈ s.fradb.stepping, x ∈ t.fradb.stepping) ∧ t = { s with fradb := t.fradb }) ∧
    (s.debugCut = false → g.region ∈ s.fradb.attached →
      ((tid, b) ∉ s.fradb.stepping ∨ s.fradb.refused.contains (tid, b) = false ∧ g.armWaits b = false ∧ s.redBarred g b = false →
        exec .fradbStepNotReady s = .next s) ∧
      ((tid, b) ∈ s.fradb.stepping → s.fradb.refused.contains (tid, b) = true ∨ g.armWaits b = true ∨ s.redBarred g b = true →
        exec .fradbStepNotReady s = .next { s with fradb := { s.fradb with
          report := [(g.arm b).ws.code, (g.arm b).wreg, ((s.pending g b).map (s.stallCause g)).getD 0] } }))) ∧
  (∀ s : State,
    (s.debugCut = false → exec .fradbIntakeHold s = .next { s with fradb := { s.fradb with intakeHold := true } }) ∧
    (s.debugCut = true → exec .fradbIntakeHold s = .next s) ∧
    exec .fradbIntakeRelease s = .next { s with fradb := { s.fradb with intakeHold := false } }) ∧
  (∀ (s : State), s.debugCut = false →
    let tells (i : Sys2Proof.Instr) (r : List Nat) : Prop := exec i s = .next { s with fradb := { s.fradb with report := r } }
    (∀ tid n g b, s.ev = [tid, n, if b then 1 else 0] → s.thread tid = some g → g.region ∈ s.fradb.attached →
      (g.resident = true → n < 64 →
        tells .fradbPrint [if g.full (.ofS b n) then 1 else 0, (g.val32 (.ofS b n)).toNat]) ∧
      (g.resident = true → n = 201 → tells .fradbPrint [1, (g.arm b).pc.toNat]) ∧
      (g.resident = false → g.seq = none → n < 64 → let y := s.readRecord g.region g.saveRec
        tells .fradbPrint [if y.full (.ofS b n) then 1 else 0, (y.val32 (.ofS b n)).toNat])) ∧
    (∀ tid g, s.ev = [tid] → s.thread tid = some g → g.region ∈ s.fradb.attached →
      (g.resident = false → g.saveRec < 6 * sectorSize → tells .fradbSave ((List.range 256).map fun i => s.mem.rd (g.saveRec + 8 * i) 8)) ∧
      (g.resident = true → exec .fradbSave s = .next s) ∧
      (s.plq = [] → tells .fradbPlq [])) ∧
    (∀ n, s.ev = [n] → (s.nameEntry n).owner ∈ s.fradb.attached → let e := s.nameEntry n
      ∃ head, tells .fradbName [e.state.code, e.loc, e.gen, e.owner, e.rights, if e.all then 1 else 0, e.grantee,
        e.pending.toNat, e.exitval.toNat, head]) ∧
    (∀ a pa, s.ev = [a, 1] → s.debugPlace a = some (.dev pa) → tells .fradbX [s.mem.rd pa 8]) ∧
    (∀ a, s.ev = [a, 1] → s.debugPlace a = none → exec .fradbX s = .next s) ∧
    (∀ o, s.ev = [o] → let r := s.skein o
      ∃ rest, tells .fradbSkein ([if r.live then 1 else 0, r.kind % 4, r.gen % 2 ^ 15, r.region,
        (if r.pool then 1 else 0) + (if r.overFlag then 2 else 0), r.ret] ++ rest)) ∧
    (∀ cl n row, let t := (s.cluster cl).tiles.getD n .reset
      (s.ev = [cl, n] → tells .fradbTile [t.tag, t.w, if t.busy then 1 else 0, t.owner.getD 65536, t.vr, t.vc]) ∧
      (s.ev = [cl, n, row] → row < 128 → tells .fradbTileRow ((List.range 8).map (t.elem row)))))

/-! ### Traps -/

/-- TRAPRET clears INH and the trapped arm continues at TPC, at TPC + 4 when CAUSE is SOFT; with INH clear it is an ILLEGAL
trap, DETAIL 0x0E (R335). -/
def Obligations.TrapReturn : Prop :=
  (∀ s : State, s.Ready [] [] → s.cur.seq = none → s.cur.tcause.getLsbD 5 = true →
    let pc : W64 := if s.cur.tcause.toNat % 16 = 14 then s.cur.tpc + 4 else s.cur.tpc
    let tc : W32 := s.cur.tcause &&& 0xFFFFFFDF#32
    let a (b : Bool) : Arm := if s.cur.sel = b then (s.cur.arm b).ready else s.cur.arm b
    (s.cur.tcause.getLsbD 4 = s.cur.sel → exec .trapret s = .next { s with cur := { s.cur with
      tcause := tc
      armA := if s.cur.sel then a false else { a false with pc := pc }
      armB := if s.cur.sel then { a true with pc := pc } else a true } }) ∧
    (s.cur.tcause.getLsbD 4 = !s.cur.sel → exec .trapret s = .next { s with cur := { s.cur with
      tcause := tc
      armA := { a false with pc := if s.cur.sel then pc else s.cur.armA.pc + 4 }
      armB := { a true with pc := if s.cur.sel then s.cur.armB.pc + 4 else pc } } })) ∧
  (∀ s : State, s.Ready [] [] → s.cur.seq = none → s.TrapEntered (exec .trapret s) .illegal 0x0E 0 s.ir)

/-- A trap while INH is set keeps the standing frame and is a region fault: the group halts where it is and FLOGHEAD
advances; with a trap entry of zero the frame is written with INH clear and the group halts; in a sequencer the routine ends,
while its engine keeps what is queued and no MSIG is made yet; an instruction outside its issuer's set is ILLEGAL, SEQ or
ISSUER (R149, R226, R363 to R367, R433). -/
def Sys2Proof.Claims.TrapRules : Prop :=
  (∀ (a : Nat) (ea eb : Bool) (s : State), (Instr.trap a ea eb).WellFormed → s.Ready (s.cur.sregs a) [] → s.cur.seq = none →
    s.mem.wf = true → let head := s.rcbAt s.cur.region + 0x6C
    (s.cur.tcause.getLsbD 5 = true → ∃ t, exec (.trap a ea eb) s = .next t ∧ t.cur.halted = true ∧
      t.cur.tcause = s.cur.tcause ∧ t.cur.tpc = s.cur.tpc ∧ t.cur.taddr = s.cur.taddr ∧ t.cur.tinfo = s.cur.tinfo ∧
      t.cur.me.pc = s.cur.me.pc ∧ t.mem.rd head 4 = (s.mem.rd head 4 + 1) % 2 ^ 32) ∧
    (s.cur.tcause.getLsbD 5 = false → s.cur.val32 (.b s.cur.sel 56) = 0 → s.cur.val32 (.b s.cur.sel 57) = 0 →
      ∃ t, exec (.trap a ea eb) s = .next t ∧ t.cur.halted = true ∧ t.cur.tpc = s.cur.me.pc ∧ t.cur.taddr = 0 ∧
        t.cur.tinfo = s.cur.sval a ∧ t.cur.tcause = w32 (14 + if s.cur.sel then 16 else 0) ∧ t.cur.me.pc = s.cur.me.pc ∧
        t.mem.rd head 4 = (s.mem.rd head 4 + 1) % 2 ^ 32)) ∧
  (∀ (s : State) (cl : Nat) (i : Sys2Proof.Instr), i ∈ [.trapret, .sleep, .launch 20 false false] →
    s.Ready [] [] → s.cur.seq = some cl → cl < s.clusters.length → ∃ t, exec i s = .next t ∧
      (t.cluster cl).ending = true ∧ (t.cluster cl).msigDone = (s.cluster cl).msigDone ∧ t.cur.me.pc = s.cur.me.pc ∧
      (t.cluster cl).engine = (s.cluster cl).engine ∧
      ∀ w r x, Flight.msig w r cl x ∈ t.flight → Flight.msig w r cl x ∈ s.flight) ∧
  (∀ s : State, s.Ready [] [] → s.cur.seq = none → s.TrapEntered (exec .clust s) .illegal 7 0 s.ir ∧
    s.TrapEntered (exec .tsync s) .illegal 7 0 s.ir)

/-- Taking a trap: at the trap entry, as a region fault, in a sequencer. -/
def Obligations.TrapTaking : Prop := Claims.TrapEntry ∧ Claims.TrapRules

/-- An arm that reads an empty register with Ea = 0 waits for it, its instruction and registers as they were; with Ea = 1 and
no DET it traps EMPTY, naming the field; one that writes a register with a producer outstanding waits (R45, R215 to R217,
R372). -/
def Obligations.EmptySources : Prop :=
  ∀ (d a b : Nat) (ea eb : Bool) (s : State), (Instr.sadd d a b ea eb).WellFormed → a < 40 → d < 40 → s.cur.me.replay = false →
    s.cur.seq = none →
    let waits (r : Nat) : Prop := ∃ t, exec (.sadd d a b ea eb) s = .next t ∧ t = { s with cur := t.cur } ∧
      t.cur.me.ws = .blocked ∧ t.cur.me.wreg = r ∧ t.cur.me.on = some (.s r) ∧ t.cur.me.pc = s.cur.me.pc ∧
      ∀ r : RegId, t.cur.value r = s.cur.value r ∧ t.cur.full r = s.cur.full r
    (s.cur.full (.s a) = false → ea = false ∨ s.cur.eff.det = true → waits a) ∧
    (s.cur.full (.s a) = false → ea = true → s.cur.eff.det = false → s.fradb.stepping = [] → s.fradb.passing = [] →
      s.TrapEntered (exec (.sadd d a b ea eb) s) .empty 1 0 (w32 a)) ∧
    ((∀ r ∈ s.cur.sregs a ++ s.cur.sregs b, s.cur.full r = true) → .s d ∈ s.cur.pend → waits d)

/-! ### Decoding and the step -/

/-- Words that the spec writes out decode to the instructions that it writes them for. -/
def Obligations.DecodeWords : Prop :=
  decodeWords 0x04588120 0 = .ok (.sadd 11 8 9 false false) ∧
  decodeWords 0x1450AFFF 0 = .ok (.saddi 10 10 0xFFF) ∧
  decodeWords 0x2D480000 0x0004FFFF = .ok (.limm 41 0x0004FFFF) ∧
  decodeWords 0x3C8AFFFD 0 = .ok (.bnez 10 0xFFFD) ∧
  decodeWords 0x4400B030 0 = .error .field ∧
  decodeWords 0 0 = .error .major ∧
  decodeWords 0x5C3040AC 0 = .ok (.vfma 6 4 5 false false) ∧
  decodeWords 0x704840B0 0x000BE210 = .ok (.expr 9 4 5 5 false false 0x000BE210) ∧
  decodeWords 0x88A085FF 0 = .ok (.lds 20 8 2 3 0x7F) ∧
  decodeWords 0xA0188080 0 = .ok (.atomAdd 3 8 4 false false) ∧
  decodeWords 0xB4000211 0 = .ok (.fence false false 2 1 1) ∧
  decodeWords 0xCC140820 0 = .ok (.mma 2 64 65 false false) ∧
  decodeWords 0xD5088AA8 0 = .ok (.depo 33 8 85 false false) ∧
  decodeWords 0xDC541800 0 = .ok (.hnew 10 65 64 false false) ∧
  decodeWords 0xFC1840C1 0 = .ok (.setcoh 8 12 1)

/-- Encoding and decoding agree: the decoder reads back every well-formed instruction with every operand, and leaves the bytes
after it (R208 to R211, R220 to R225). -/
def Obligations.DecodeEncode : Prop :=
  ∀ (i : Sys2Proof.Instr) (rest : List (BitVec 8)), i.WellFormed → i.isEvent = false →
    decode (encodeBytes i ++ rest) = .ok (i, rest)

/-- A word that decodes names a well-formed instruction, and every bit of the word stands in it, but for the bits Ea and Eb of
the seven instructions that have no operand field (R210, R220 to R225). -/
def Obligations.DecodedWordIsEncoding : Prop :=
  ∀ (w e : Nat) (i : Sys2Proof.Instr), w < 2 ^ 32 → e < 2 ^ 32 → decodeWords w e = .ok i → i.WellFormed ∧ i.isEvent = false ∧
    ∃ x, encode i = x :: (if needsExt w then [e] else []) ∧
      (x = w ∨ i ∈ [.rcv, .ret, .bkpt, .nop, .tsync, .clust, .sleep] ∧ x = w / 4 * 4)

/-- A step runs the instruction that the bytes at the PC decode to, in the arm that has the turn, with the head word in the
instruction register and the translations used; a word that does not decode is the reserved encoding it is; a fetch that
traps takes the trap; an event of the agenda is run with its payload; with nothing on the agenda the oldest operation that
can complete does, else a unit with something to do, else an arm. Each step lets a clock cycle pass, which the detectors
count; an arm that issues changes nothing more than the ages of its scheduler's arms and its region's detector (R48,
R118, R208, R225, R227; the order of turns is the model's, log 2). -/
def Obligations.StepRunsDecoded : Prop :=
  (∀ (s : State) (tid : Nat) (b : Bool) (rest : List Turn) (g : Group), s.agenda = .arm tid b :: rest →
    let u : State := { s.tock with agenda := rest }
    u.thread tid = some g → u.canIssue g b = true → (tid, b) ∉ u.fradb.stopping → g.recDue b = false →
    let v := (u.turnTo tid b).modCur fun g => g.mapMe fun a => { a with turned := false }
    v.cur.mcheckDue = false → v.fradb.passing = [] →
    let pc := v.cur.me.pc
    let run (i : Sys2Proof.Instr) (x : State) := afterNext (u.issued tid b) (exec i x)
    (∀ w hits, v.fetchWord pc = .word w hits → let x : State := { v.touchAll false hits with ir := w32 w }
      (needsExt w = false → ∀ i, decodeWords w 0 = .ok i → step s = run i x) ∧
      (needsExt w = false → ∀ r, decodeWords w 0 = .error r →
        step s = run .reservedEncoding { x with ev := [w, reservedDetail x.cur w r] }) ∧
      (needsExt w = true → ∀ e more i, x.fetchWord (pc + 4) = .word e more → decodeWords w e = .ok i →
        step s = run i (x.touchAll false more)) ∧
      (needsExt w = true → ∀ e more r, x.fetchWord (pc + 4) = .word e more → decodeWords w e = .error r →
        let y := x.touchAll false more
        step s = run .reservedEncoding { y with ev := [w, reservedDetail y.cur w r] })) ∧
    (∀ t, v.fetchWord pc = .trap t → t.cause ≠ .mcheck → step s = .next (v.trapped t))) ∧
  (∀ (o : Host.Outcome State Fault Refusal) (f : State → State) (t : State), o = .next t → afterNext f o = .next (f t)) ∧
  (∀ (u t : State) (tid : Nat) (b : Bool), ∃ f : Group → Group,
    (∀ g, f g = { g with armA := { g.armA with age := (f g).armA.age }, armB := { g.armB with age := (f g).armB.age } }) ∧
    u.issued tid b t = { t with cur := f t.cur, others := t.others.map f, hangs := (u.issued tid b t).hangs }) ∧
  (∀ (v : State) (pc : W64) (pa : Nat) (hi : Place) (e : Option TlbEntry), pc.toNat % 4 = 0 →
    v.reach .fetch true 4 0 pc 4 = .hit (.dev pa) hi e → v.readErr (.dev pa) = none →
    v.fetchWord pc = .word (v.mem.rd pa 4) [⟨0, .dev pa, hi, e, pc⟩]) ∧
  (∀ (s : State) (i : Sys2Proof.Instr) (p : List Nat) (rest : List Turn), s.agenda = .event i p :: rest →
    step s = exec i { s.tock with agenda := rest, ev := p }) ∧
  (∀ s : State, s.agenda = [] → let u : State := s.tock
    (∀ i, u.readyEvent = some i → step s = exec i { u with ev := [] }) ∧
    (u.readyEvent = none → ∀ i p, u.nextUnit = some (i, p) → step s = exec i { u with ev := p }) ∧
    (u.readyEvent = none → u.nextUnit = none → u.nextArm = none → ∀ i p, u.sleepUnit = some (i, p) →
      step s = exec i { u with ev := p }) ∧
    (u.readyEvent = none → u.nextUnit = none → u.nextArm = none → u.sleepUnit = none → step s = .next u)) ∧
  (∀ s : State, s.tock = { s with clock := s.clock + 1, hangs := s.tock.hangs })

/-- After reset no group runs; every tile is zero, RAW32, W 128, OWNER NONE; operator-table entry 0 is 0x580, the others 0;
DIEPWR, PRECTL, LINKSTAT, HOWN, KSPOL and the fault buffers have their reset columns; TOKCAP is 2,160 (R115, R123, R150,
R198, R205, R305, R334, R414, R427). Memory lists nothing and is in its canonical form.
Memory that lists nothing is the model's choice (log 4), as are the valid counts of 128 that a tile and a cluster have at
reset (log 3). -/
def Obligations.ResetValues : Prop :=
  State.reset.threads = [] ∧ State.reset.clusters.length = 144 ∧ State.reset.MemoryOk ∧
  (∀ c ∈ State.reset.clusters, c.running = false ∧ c.resv = [] ∧ c.optable = 0x580 :: List.replicate 15 0 ∧
    c.vr = 128 ∧ c.vc = 128 ∧ c.tiles = List.replicate 16 ⟨.empty, 0, 128, none, false, 128, 128, []⟩) ∧
  (∀ d ∈ State.reset.dies, d.power.state = 0 ∧ d.power.req = 0 ∧ d.power.throt = false ∧ d.power.tempEmerg = 105 ∧
    d.faults = [] ∧ d.drop = false ∧ d.misses = []) ∧
  (∀ l ∈ State.reset.links, l.up = false ∧ l.width = 0 ∧ l.spare = false ∧ l.downev = false ∧ l.widthev = false ∧
    l.retries = 0) ∧
  State.reset.prectl = ⟨0, false, false, false, false, []⟩ ∧ State.reset.howns = [⟨true, false, 0⟩, ⟨false, false, 0⟩] ∧
  State.reset.keys.length = 64 ∧ (∀ k ∈ State.reset.keys, k.owner = 0 ∧ k.valid = false ∧ k.erased = false) ∧
  State.reset.tokcap = 2160 ∧ State.reset.mem = .empty

/-- Every step keeps every memory in its canonical form: addresses strictly rising, no entry that reads as an unlisted one.
The canonical form of memory is the model's (log 4). -/
def Obligations.StepKeepsMemory : Prop :=
  ∀ s t : State, s.MemoryOk → step s = .next t → t.MemoryOk
end

