-- ==== Sys2Proof/Laws/State.lean ====
section
/-!
SUPPORT. What each update of a state or a group leaves: one lemma per field.
-/

namespace Sys2Proof.Machine

/-! ### modCur -/

@[simp] theorem State.modCur_cur (s : State) (f : Group → Group) : (s.modCur f).cur = f s.cur := rfl
@[simp] theorem State.modCur_others (s : State) (f : Group → Group) : (s.modCur f).others = s.others := rfl
@[simp] theorem State.modCur_clusters (s : State) (f : Group → Group) : (s.modCur f).clusters = s.clusters := rfl
@[simp] theorem State.modCur_dies (s : State) (f : Group → Group) : (s.modCur f).dies = s.dies := rfl
@[simp] theorem State.modCur_mdies (s : State) (f : Group → Group) : (s.modCur f).mdies = s.mdies := rfl
@[simp] theorem State.modCur_mem (s : State) (f : Group → Group) : (s.modCur f).mem = s.mem := rfl
@[simp] theorem State.modCur_dirty (s : State) (f : Group → Group) : (s.modCur f).dirty = s.dirty := rfl
@[simp] theorem State.modCur_hostMem (s : State) (f : Group → Group) : (s.modCur f).hostMem = s.hostMem := rfl
@[simp] theorem State.modCur_peerMem (s : State) (f : Group → Group) : (s.modCur f).peerMem = s.peerMem := rfl
@[simp] theorem State.modCur_weights (s : State) (f : Group → Group) : (s.modCur f).weights = s.weights := rfl
@[simp] theorem State.modCur_tlb (s : State) (f : Group → Group) : (s.modCur f).tlb = s.tlb := rfl
@[simp] theorem State.modCur_names (s : State) (f : Group → Group) : (s.modCur f).names = s.names := rfl
@[simp] theorem State.modCur_hold (s : State) (f : Group → Group) : (s.modCur f).hold = s.hold := rfl
@[simp] theorem State.modCur_joinerFree (s : State) (f : Group → Group) : (s.modCur f).joinerFree = s.joinerFree := rfl
@[simp] theorem State.modCur_skeins (s : State) (f : Group → Group) : (s.modCur f).skeins = s.skeins := rfl
@[simp] theorem State.modCur_skeinErrors (s : State) (f : Group → Group) : (s.modCur f).skeinErrors = s.skeinErrors := rfl
@[simp] theorem State.modCur_waiting (s : State) (f : Group → Group) : (s.modCur f).waiting = s.waiting := rfl
@[simp] theorem State.modCur_started (s : State) (f : Group → Group) : (s.modCur f).started = s.started := rfl
@[simp] theorem State.modCur_plq (s : State) (f : Group → Group) : (s.modCur f).plq = s.plq := rfl
@[simp] theorem State.modCur_queueTails (s : State) (f : Group → Group) : (s.modCur f).queueTails = s.queueTails := rfl
@[simp] theorem State.modCur_stageqs (s : State) (f : Group → Group) : (s.modCur f).stageqs = s.stageqs := rfl
@[simp] theorem State.modCur_watches (s : State) (f : Group → Group) : (s.modCur f).watches = s.watches := rfl
@[simp] theorem State.modCur_abuf (s : State) (f : Group → Group) : (s.modCur f).abuf = s.abuf := rfl
@[simp] theorem State.modCur_rsets (s : State) (f : Group → Group) : (s.modCur f).rsets = s.rsets := rfl
@[simp] theorem State.modCur_rsetCap (s : State) (f : Group → Group) : (s.modCur f).rsetCap = s.rsetCap := rfl
@[simp] theorem State.modCur_rsetLost (s : State) (f : Group → Group) : (s.modCur f).rsetLost = s.rsetLost := rfl
@[simp] theorem State.modCur_tokcap (s : State) (f : Group → Group) : (s.modCur f).tokcap = s.tokcap := rfl
@[simp] theorem State.modCur_nextLaunchId (s : State) (f : Group → Group) : (s.modCur f).nextLaunchId = s.nextLaunchId := rfl
@[simp] theorem State.modCur_prectl (s : State) (f : Group → Group) : (s.modCur f).prectl = s.prectl := rfl
@[simp] theorem State.modCur_peers (s : State) (f : Group → Group) : (s.modCur f).peers = s.peers := rfl
@[simp] theorem State.modCur_links (s : State) (f : Group → Group) : (s.modCur f).links = s.links := rfl
@[simp] theorem State.modCur_performed (s : State) (f : Group → Group) : (s.modCur f).performed = s.performed := rfl
@[simp] theorem State.modCur_incarn (s : State) (f : Group → Group) : (s.modCur f).incarn = s.incarn := rfl
@[simp] theorem State.modCur_did (s : State) (f : Group → Group) : (s.modCur f).did = s.did := rfl
@[simp] theorem State.modCur_ports (s : State) (f : Group → Group) : (s.modCur f).ports = s.ports := rfl
@[simp] theorem State.modCur_howns (s : State) (f : Group → Group) : (s.modCur f).howns = s.howns := rfl
@[simp] theorem State.modCur_owner (s : State) (f : Group → Group) : (s.modCur f).owner = s.owner := rfl
@[simp] theorem State.modCur_epoch (s : State) (f : Group → Group) : (s.modCur f).epoch = s.epoch := rfl
@[simp] theorem State.modCur_handoverSeq (s : State) (f : Group → Group) : (s.modCur f).handoverSeq = s.handoverSeq := rfl
@[simp] theorem State.modCur_complexes (s : State) (f : Group → Group) : (s.modCur f).complexes = s.complexes := rfl
@[simp] theorem State.modCur_stateTable (s : State) (f : Group → Group) : (s.modCur f).stateTable = s.stateTable := rfl
@[simp] theorem State.modCur_mgmt (s : State) (f : Group → Group) : (s.modCur f).mgmt = s.mgmt := rfl
@[simp] theorem State.modCur_fwWait (s : State) (f : Group → Group) : (s.modCur f).fwWait = s.fwWait := rfl
@[simp] theorem State.modCur_fuse (s : State) (f : Group → Group) : (s.modCur f).fuse = s.fuse := rfl
@[simp] theorem State.modCur_lostHosts (s : State) (f : Group → Group) : (s.modCur f).lostHosts = s.lostHosts := rfl
@[simp] theorem State.modCur_ntlb (s : State) (f : Group → Group) : (s.modCur f).ntlb = s.ntlb := rfl
@[simp] theorem State.modCur_lost (s : State) (f : Group → Group) : (s.modCur f).lost = s.lost := rfl
@[simp] theorem State.modCur_imports (s : State) (f : Group → Group) : (s.modCur f).imports = s.imports := rfl
@[simp] theorem State.modCur_keys (s : State) (f : Group → Group) : (s.modCur f).keys = s.keys := rfl
@[simp] theorem State.modCur_alarm (s : State) (f : Group → Group) : (s.modCur f).alarm = s.alarm := rfl
@[simp] theorem State.modCur_identity (s : State) (f : Group → Group) : (s.modCur f).identity = s.identity := rfl
@[simp] theorem State.modCur_debugCut (s : State) (f : Group → Group) : (s.modCur f).debugCut = s.debugCut := rfl
@[simp] theorem State.modCur_bases (s : State) (f : Group → Group) : (s.modCur f).bases = s.bases := rfl
@[simp] theorem State.modCur_reports (s : State) (f : Group → Group) : (s.modCur f).reports = s.reports := rfl
@[simp] theorem State.modCur_events (s : State) (f : Group → Group) : (s.modCur f).events = s.events := rfl
@[simp] theorem State.modCur_hangs (s : State) (f : Group → Group) : (s.modCur f).hangs = s.hangs := rfl
@[simp] theorem State.modCur_clusterRecs (s : State) (f : Group → Group) : (s.modCur f).clusterRecs = s.clusterRecs := rfl
@[simp] theorem State.modCur_gone (s : State) (f : Group → Group) : (s.modCur f).gone = s.gone := rfl
@[simp] theorem State.modCur_joinUsed (s : State) (f : Group → Group) : (s.modCur f).joinUsed = s.joinUsed := rfl
@[simp] theorem State.modCur_doorbells (s : State) (f : Group → Group) : (s.modCur f).doorbells = s.doorbells := rfl
@[simp] theorem State.modCur_redq (s : State) (f : Group → Group) : (s.modCur f).redq = s.redq := rfl
@[simp] theorem State.modCur_closed (s : State) (f : Group → Group) : (s.modCur f).closed = s.closed := rfl
@[simp] theorem State.modCur_spdmWait (s : State) (f : Group → Group) : (s.modCur f).spdmWait = s.spdmWait := rfl
@[simp] theorem State.modCur_spdm (s : State) (f : Group → Group) : (s.modCur f).spdm = s.spdm := rfl
@[simp] theorem State.modCur_fradb (s : State) (f : Group → Group) : (s.modCur f).fradb = s.fradb := rfl
@[simp] theorem State.modCur_clock (s : State) (f : Group → Group) : (s.modCur f).clock = s.clock := rfl
@[simp] theorem State.modCur_flight (s : State) (f : Group → Group) : (s.modCur f).flight = s.flight := rfl
@[simp] theorem State.modCur_agenda (s : State) (f : Group → Group) : (s.modCur f).agenda = s.agenda := rfl
@[simp] theorem State.modCur_ev (s : State) (f : Group → Group) : (s.modCur f).ev = s.ev := rfl
@[simp] theorem State.modCur_ir (s : State) (f : Group → Group) : (s.modCur f).ir = s.ir := rfl
@[simp] theorem State.modCur_fresh (s : State) (f : Group → Group) : (s.modCur f).fresh = s.fresh := rfl

/-! ### send -/

@[simp] theorem State.send_cur (s : State) (x : Flight) : (s.send x).cur = s.cur := rfl
@[simp] theorem State.send_others (s : State) (x : Flight) : (s.send x).others = s.others := rfl
@[simp] theorem State.send_clusters (s : State) (x : Flight) : (s.send x).clusters = s.clusters := rfl
@[simp] theorem State.send_dies (s : State) (x : Flight) : (s.send x).dies = s.dies := rfl
@[simp] theorem State.send_mdies (s : State) (x : Flight) : (s.send x).mdies = s.mdies := rfl
@[simp] theorem State.send_mem (s : State) (x : Flight) : (s.send x).mem = s.mem := rfl
@[simp] theorem State.send_dirty (s : State) (x : Flight) : (s.send x).dirty = s.dirty := rfl
@[simp] theorem State.send_hostMem (s : State) (x : Flight) : (s.send x).hostMem = s.hostMem := rfl
@[simp] theorem State.send_peerMem (s : State) (x : Flight) : (s.send x).peerMem = s.peerMem := rfl
@[simp] theorem State.send_weights (s : State) (x : Flight) : (s.send x).weights = s.weights := rfl
@[simp] theorem State.send_tlb (s : State) (x : Flight) : (s.send x).tlb = s.tlb := rfl
@[simp] theorem State.send_names (s : State) (x : Flight) : (s.send x).names = s.names := rfl
@[simp] theorem State.send_hold (s : State) (x : Flight) : (s.send x).hold = s.hold := rfl
@[simp] theorem State.send_joinerFree (s : State) (x : Flight) : (s.send x).joinerFree = s.joinerFree := rfl
@[simp] theorem State.send_skeins (s : State) (x : Flight) : (s.send x).skeins = s.skeins := rfl
@[simp] theorem State.send_skeinErrors (s : State) (x : Flight) : (s.send x).skeinErrors = s.skeinErrors := rfl
@[simp] theorem State.send_waiting (s : State) (x : Flight) : (s.send x).waiting = s.waiting := rfl
@[simp] theorem State.send_started (s : State) (x : Flight) : (s.send x).started = s.started := rfl
@[simp] theorem State.send_plq (s : State) (x : Flight) : (s.send x).plq = s.plq := rfl
@[simp] theorem State.send_queueTails (s : State) (x : Flight) : (s.send x).queueTails = s.queueTails := rfl
@[simp] theorem State.send_stageqs (s : State) (x : Flight) : (s.send x).stageqs = s.stageqs := rfl
@[simp] theorem State.send_watches (s : State) (x : Flight) : (s.send x).watches = s.watches := rfl
@[simp] theorem State.send_abuf (s : State) (x : Flight) : (s.send x).abuf = s.abuf := rfl
@[simp] theorem State.send_rsets (s : State) (x : Flight) : (s.send x).rsets = s.rsets := rfl
@[simp] theorem State.send_rsetCap (s : State) (x : Flight) : (s.send x).rsetCap = s.rsetCap := rfl
@[simp] theorem State.send_rsetLost (s : State) (x : Flight) : (s.send x).rsetLost = s.rsetLost := rfl
@[simp] theorem State.send_tokcap (s : State) (x : Flight) : (s.send x).tokcap = s.tokcap := rfl
@[simp] theorem State.send_nextLaunchId (s : State) (x : Flight) : (s.send x).nextLaunchId = s.nextLaunchId := rfl
@[simp] theorem State.send_prectl (s : State) (x : Flight) : (s.send x).prectl = s.prectl := rfl
@[simp] theorem State.send_peers (s : State) (x : Flight) : (s.send x).peers = s.peers := rfl
@[simp] theorem State.send_links (s : State) (x : Flight) : (s.send x).links = s.links := rfl
@[simp] theorem State.send_performed (s : State) (x : Flight) : (s.send x).performed = s.performed := rfl
@[simp] theorem State.send_incarn (s : State) (x : Flight) : (s.send x).incarn = s.incarn := rfl
@[simp] theorem State.send_did (s : State) (x : Flight) : (s.send x).did = s.did := rfl
@[simp] theorem State.send_ports (s : State) (x : Flight) : (s.send x).ports = s.ports := rfl
@[simp] theorem State.send_howns (s : State) (x : Flight) : (s.send x).howns = s.howns := rfl
@[simp] theorem State.send_owner (s : State) (x : Flight) : (s.send x).owner = s.owner := rfl
@[simp] theorem State.send_epoch (s : State) (x : Flight) : (s.send x).epoch = s.epoch := rfl
@[simp] theorem State.send_handoverSeq (s : State) (x : Flight) : (s.send x).handoverSeq = s.handoverSeq := rfl
@[simp] theorem State.send_complexes (s : State) (x : Flight) : (s.send x).complexes = s.complexes := rfl
@[simp] theorem State.send_stateTable (s : State) (x : Flight) : (s.send x).stateTable = s.stateTable := rfl
@[simp] theorem State.send_mgmt (s : State) (x : Flight) : (s.send x).mgmt = s.mgmt := rfl
@[simp] theorem State.send_fwWait (s : State) (x : Flight) : (s.send x).fwWait = s.fwWait := rfl
@[simp] theorem State.send_fuse (s : State) (x : Flight) : (s.send x).fuse = s.fuse := rfl
@[simp] theorem State.send_lostHosts (s : State) (x : Flight) : (s.send x).lostHosts = s.lostHosts := rfl
@[simp] theorem State.send_ntlb (s : State) (x : Flight) : (s.send x).ntlb = s.ntlb := rfl
@[simp] theorem State.send_lost (s : State) (x : Flight) : (s.send x).lost = s.lost := rfl
@[simp] theorem State.send_imports (s : State) (x : Flight) : (s.send x).imports = s.imports := rfl
@[simp] theorem State.send_keys (s : State) (x : Flight) : (s.send x).keys = s.keys := rfl
@[simp] theorem State.send_alarm (s : State) (x : Flight) : (s.send x).alarm = s.alarm := rfl
@[simp] theorem State.send_identity (s : State) (x : Flight) : (s.send x).identity = s.identity := rfl
@[simp] theorem State.send_debugCut (s : State) (x : Flight) : (s.send x).debugCut = s.debugCut := rfl
@[simp] theorem State.send_bases (s : State) (x : Flight) : (s.send x).bases = s.bases := rfl
@[simp] theorem State.send_reports (s : State) (x : Flight) : (s.send x).reports = s.reports := rfl
@[simp] theorem State.send_events (s : State) (x : Flight) : (s.send x).events = s.events := rfl
@[simp] theorem State.send_hangs (s : State) (x : Flight) : (s.send x).hangs = s.hangs := rfl
@[simp] theorem State.send_clusterRecs (s : State) (x : Flight) : (s.send x).clusterRecs = s.clusterRecs := rfl
@[simp] theorem State.send_gone (s : State) (x : Flight) : (s.send x).gone = s.gone := rfl
@[simp] theorem State.send_joinUsed (s : State) (x : Flight) : (s.send x).joinUsed = s.joinUsed := rfl
@[simp] theorem State.send_doorbells (s : State) (x : Flight) : (s.send x).doorbells = s.doorbells := rfl
@[simp] theorem State.send_redq (s : State) (x : Flight) : (s.send x).redq = s.redq := rfl
@[simp] theorem State.send_closed (s : State) (x : Flight) : (s.send x).closed = s.closed := rfl
@[simp] theorem State.send_spdmWait (s : State) (x : Flight) : (s.send x).spdmWait = s.spdmWait := rfl
@[simp] theorem State.send_spdm (s : State) (x : Flight) : (s.send x).spdm = s.spdm := rfl
@[simp] theorem State.send_fradb (s : State) (x : Flight) : (s.send x).fradb = s.fradb := rfl
@[simp] theorem State.send_clock (s : State) (x : Flight) : (s.send x).clock = s.clock := rfl
@[simp] theorem State.send_flight (s : State) (x : Flight) : (s.send x).flight = s.flight ++ [x] := rfl
@[simp] theorem State.send_agenda (s : State) (x : Flight) : (s.send x).agenda = s.agenda := rfl
@[simp] theorem State.send_ev (s : State) (x : Flight) : (s.send x).ev = s.ev := rfl
@[simp] theorem State.send_ir (s : State) (x : Flight) : (s.send x).ir = s.ir := rfl
@[simp] theorem State.send_fresh (s : State) (x : Flight) : (s.send x).fresh = s.fresh := rfl

/-! ### tick -/

@[simp] theorem State.tick_cur (s : State) : (s.tick).cur = s.cur := rfl
@[simp] theorem State.tick_others (s : State) : (s.tick).others = s.others := rfl
@[simp] theorem State.tick_clusters (s : State) : (s.tick).clusters = s.clusters := rfl
@[simp] theorem State.tick_dies (s : State) : (s.tick).dies = s.dies := rfl
@[simp] theorem State.tick_mdies (s : State) : (s.tick).mdies = s.mdies := rfl
@[simp] theorem State.tick_mem (s : State) : (s.tick).mem = s.mem := rfl
@[simp] theorem State.tick_dirty (s : State) : (s.tick).dirty = s.dirty := rfl
@[simp] theorem State.tick_hostMem (s : State) : (s.tick).hostMem = s.hostMem := rfl
@[simp] theorem State.tick_peerMem (s : State) : (s.tick).peerMem = s.peerMem := rfl
@[simp] theorem State.tick_weights (s : State) : (s.tick).weights = s.weights := rfl
@[simp] theorem State.tick_tlb (s : State) : (s.tick).tlb = s.tlb := rfl
@[simp] theorem State.tick_names (s : State) : (s.tick).names = s.names := rfl
@[simp] theorem State.tick_hold (s : State) : (s.tick).hold = s.hold := rfl
@[simp] theorem State.tick_joinerFree (s : State) : (s.tick).joinerFree = s.joinerFree := rfl
@[simp] theorem State.tick_skeins (s : State) : (s.tick).skeins = s.skeins := rfl
@[simp] theorem State.tick_skeinErrors (s : State) : (s.tick).skeinErrors = s.skeinErrors := rfl
@[simp] theorem State.tick_waiting (s : State) : (s.tick).waiting = s.waiting := rfl
@[simp] theorem State.tick_started (s : State) : (s.tick).started = s.started := rfl
@[simp] theorem State.tick_plq (s : State) : (s.tick).plq = s.plq := rfl
@[simp] theorem State.tick_queueTails (s : State) : (s.tick).queueTails = s.queueTails := rfl
@[simp] theorem State.tick_stageqs (s : State) : (s.tick).stageqs = s.stageqs := rfl
@[simp] theorem State.tick_watches (s : State) : (s.tick).watches = s.watches := rfl
@[simp] theorem State.tick_abuf (s : State) : (s.tick).abuf = s.abuf := rfl
@[simp] theorem State.tick_rsets (s : State) : (s.tick).rsets = s.rsets := rfl
@[simp] theorem State.tick_rsetCap (s : State) : (s.tick).rsetCap = s.rsetCap := rfl
@[simp] theorem State.tick_rsetLost (s : State) : (s.tick).rsetLost = s.rsetLost := rfl
@[simp] theorem State.tick_tokcap (s : State) : (s.tick).tokcap = s.tokcap := rfl
@[simp] theorem State.tick_nextLaunchId (s : State) : (s.tick).nextLaunchId = s.nextLaunchId := rfl
@[simp] theorem State.tick_prectl (s : State) : (s.tick).prectl = s.prectl := rfl
@[simp] theorem State.tick_peers (s : State) : (s.tick).peers = s.peers := rfl
@[simp] theorem State.tick_links (s : State) : (s.tick).links = s.links := rfl
@[simp] theorem State.tick_performed (s : State) : (s.tick).performed = s.performed := rfl
@[simp] theorem State.tick_incarn (s : State) : (s.tick).incarn = s.incarn := rfl
@[simp] theorem State.tick_did (s : State) : (s.tick).did = s.did := rfl
@[simp] theorem State.tick_ports (s : State) : (s.tick).ports = s.ports := rfl
@[simp] theorem State.tick_howns (s : State) : (s.tick).howns = s.howns := rfl
@[simp] theorem State.tick_owner (s : State) : (s.tick).owner = s.owner := rfl
@[simp] theorem State.tick_epoch (s : State) : (s.tick).epoch = s.epoch := rfl
@[simp] theorem State.tick_handoverSeq (s : State) : (s.tick).handoverSeq = s.handoverSeq := rfl
@[simp] theorem State.tick_complexes (s : State) : (s.tick).complexes = s.complexes := rfl
@[simp] theorem State.tick_stateTable (s : State) : (s.tick).stateTable = s.stateTable := rfl
@[simp] theorem State.tick_mgmt (s : State) : (s.tick).mgmt = s.mgmt := rfl
@[simp] theorem State.tick_fwWait (s : State) : (s.tick).fwWait = s.fwWait := rfl
@[simp] theorem State.tick_fuse (s : State) : (s.tick).fuse = s.fuse := rfl
@[simp] theorem State.tick_lostHosts (s : State) : (s.tick).lostHosts = s.lostHosts := rfl
@[simp] theorem State.tick_ntlb (s : State) : (s.tick).ntlb = s.ntlb := rfl
@[simp] theorem State.tick_lost (s : State) : (s.tick).lost = s.lost := rfl
@[simp] theorem State.tick_imports (s : State) : (s.tick).imports = s.imports := rfl
@[simp] theorem State.tick_keys (s : State) : (s.tick).keys = s.keys := rfl
@[simp] theorem State.tick_alarm (s : State) : (s.tick).alarm = s.alarm := rfl
@[simp] theorem State.tick_identity (s : State) : (s.tick).identity = s.identity := rfl
@[simp] theorem State.tick_debugCut (s : State) : (s.tick).debugCut = s.debugCut := rfl
@[simp] theorem State.tick_bases (s : State) : (s.tick).bases = s.bases := rfl
@[simp] theorem State.tick_reports (s : State) : (s.tick).reports = s.reports := rfl
@[simp] theorem State.tick_events (s : State) : (s.tick).events = s.events := rfl
@[simp] theorem State.tick_hangs (s : State) : (s.tick).hangs = s.hangs := rfl
@[simp] theorem State.tick_clusterRecs (s : State) : (s.tick).clusterRecs = s.clusterRecs := rfl
@[simp] theorem State.tick_gone (s : State) : (s.tick).gone = s.gone := rfl
@[simp] theorem State.tick_joinUsed (s : State) : (s.tick).joinUsed = s.joinUsed := rfl
@[simp] theorem State.tick_doorbells (s : State) : (s.tick).doorbells = s.doorbells := rfl
@[simp] theorem State.tick_redq (s : State) : (s.tick).redq = s.redq := rfl
@[simp] theorem State.tick_closed (s : State) : (s.tick).closed = s.closed := rfl
@[simp] theorem State.tick_spdmWait (s : State) : (s.tick).spdmWait = s.spdmWait := rfl
@[simp] theorem State.tick_spdm (s : State) : (s.tick).spdm = s.spdm := rfl
@[simp] theorem State.tick_fradb (s : State) : (s.tick).fradb = s.fradb := rfl
@[simp] theorem State.tick_clock (s : State) : (s.tick).clock = s.clock := rfl
@[simp] theorem State.tick_flight (s : State) : (s.tick).flight = s.flight := rfl
@[simp] theorem State.tick_agenda (s : State) : (s.tick).agenda = s.agenda := rfl
@[simp] theorem State.tick_ev (s : State) : (s.tick).ev = s.ev := rfl
@[simp] theorem State.tick_ir (s : State) : (s.tick).ir = s.ir := rfl
@[simp] theorem State.tick_fresh (s : State) : (s.tick).fresh = s.fresh + 1 := rfl

/-! ### modCluster -/

@[simp] theorem State.modCluster_cur (s : State) (n : Nat) (f : Cluster → Cluster) : (s.modCluster n f).cur = s.cur := rfl
@[simp] theorem State.modCluster_others (s : State) (n : Nat) (f : Cluster → Cluster) : (s.modCluster n f).others = s.others := rfl
@[simp] theorem State.modCluster_clusters (s : State) (n : Nat) (f : Cluster → Cluster) : (s.modCluster n f).clusters = modAt f n s.clusters := rfl
@[simp] theorem State.modCluster_dies (s : State) (n : Nat) (f : Cluster → Cluster) : (s.modCluster n f).dies = s.dies := rfl
@[simp] theorem State.modCluster_mdies (s : State) (n : Nat) (f : Cluster → Cluster) : (s.modCluster n f).mdies = s.mdies := rfl
@[simp] theorem State.modCluster_mem (s : State) (n : Nat) (f : Cluster → Cluster) : (s.modCluster n f).mem = s.mem := rfl
@[simp] theorem State.modCluster_dirty (s : State) (n : Nat) (f : Cluster → Cluster) : (s.modCluster n f).dirty = s.dirty := rfl
@[simp] theorem State.modCluster_hostMem (s : State) (n : Nat) (f : Cluster → Cluster) : (s.modCluster n f).hostMem = s.hostMem := rfl
@[simp] theorem State.modCluster_peerMem (s : State) (n : Nat) (f : Cluster → Cluster) : (s.modCluster n f).peerMem = s.peerMem := rfl
@[simp] theorem State.modCluster_weights (s : State) (n : Nat) (f : Cluster → Cluster) : (s.modCluster n f).weights = s.weights := rfl
@[simp] theorem State.modCluster_tlb (s : State) (n : Nat) (f : Cluster → Cluster) : (s.modCluster n f).tlb = s.tlb := rfl
@[simp] theorem State.modCluster_names (s : State) (n : Nat) (f : Cluster → Cluster) : (s.modCluster n f).names = s.names := rfl
@[simp] theorem State.modCluster_hold (s : State) (n : Nat) (f : Cluster → Cluster) : (s.modCluster n f).hold = s.hold := rfl
@[simp] theorem State.modCluster_joinerFree (s : State) (n : Nat) (f : Cluster → Cluster) : (s.modCluster n f).joinerFree = s.joinerFree := rfl
@[simp] theorem State.modCluster_skeins (s : State) (n : Nat) (f : Cluster → Cluster) : (s.modCluster n f).skeins = s.skeins := rfl
@[simp] theorem State.modCluster_skeinErrors (s : State) (n : Nat) (f : Cluster → Cluster) : (s.modCluster n f).skeinErrors = s.skeinErrors := rfl
@[simp] theorem State.modCluster_waiting (s : State) (n : Nat) (f : Cluster → Cluster) : (s.modCluster n f).waiting = s.waiting := rfl
@[simp] theorem State.modCluster_started (s : State) (n : Nat) (f : Cluster → Cluster) : (s.modCluster n f).started = s.started := rfl
@[simp] theorem State.modCluster_plq (s : State) (n : Nat) (f : Cluster → Cluster) : (s.modCluster n f).plq = s.plq := rfl
@[simp] theorem State.modCluster_queueTails (s : State) (n : Nat) (f : Cluster → Cluster) : (s.modCluster n f).queueTails = s.queueTails := rfl
@[simp] theorem State.modCluster_stageqs (s : State) (n : Nat) (f : Cluster → Cluster) : (s.modCluster n f).stageqs = s.stageqs := rfl
@[simp] theorem State.modCluster_watches (s : State) (n : Nat) (f : Cluster → Cluster) : (s.modCluster n f).watches = s.watches := rfl
@[simp] theorem State.modCluster_abuf (s : State) (n : Nat) (f : Cluster → Cluster) : (s.modCluster n f).abuf = s.abuf := rfl
@[simp] theorem State.modCluster_rsets (s : State) (n : Nat) (f : Cluster → Cluster) : (s.modCluster n f).rsets = s.rsets := rfl
@[simp] theorem State.modCluster_rsetCap (s : State) (n : Nat) (f : Cluster → Cluster) : (s.modCluster n f).rsetCap = s.rsetCap := rfl
@[simp] theorem State.modCluster_rsetLost (s : State) (n : Nat) (f : Cluster → Cluster) : (s.modCluster n f).rsetLost = s.rsetLost := rfl
@[simp] theorem State.modCluster_tokcap (s : State) (n : Nat) (f : Cluster → Cluster) : (s.modCluster n f).tokcap = s.tokcap := rfl
@[simp] theorem State.modCluster_nextLaunchId (s : State) (n : Nat) (f : Cluster → Cluster) : (s.modCluster n f).nextLaunchId = s.nextLaunchId := rfl
@[simp] theorem State.modCluster_prectl (s : State) (n : Nat) (f : Cluster → Cluster) : (s.modCluster n f).prectl = s.prectl := rfl
@[simp] theorem State.modCluster_peers (s : State) (n : Nat) (f : Cluster → Cluster) : (s.modCluster n f).peers = s.peers := rfl
@[simp] theorem State.modCluster_links (s : State) (n : Nat) (f : Cluster → Cluster) : (s.modCluster n f).links = s.links := rfl
@[simp] theorem State.modCluster_performed (s : State) (n : Nat) (f : Cluster → Cluster) : (s.modCluster n f).performed = s.performed := rfl
@[simp] theorem State.modCluster_incarn (s : State) (n : Nat) (f : Cluster → Cluster) : (s.modCluster n f).incarn = s.incarn := rfl
@[simp] theorem State.modCluster_did (s : State) (n : Nat) (f : Cluster → Cluster) : (s.modCluster n f).did = s.did := rfl
@[simp] theorem State.modCluster_ports (s : State) (n : Nat) (f : Cluster → Cluster) : (s.modCluster n f).ports = s.ports := rfl
@[simp] theorem State.modCluster_howns (s : State) (n : Nat) (f : Cluster → Cluster) : (s.modCluster n f).howns = s.howns := rfl
@[simp] theorem State.modCluster_owner (s : State) (n : Nat) (f : Cluster → Cluster) : (s.modCluster n f).owner = s.owner := rfl
@[simp] theorem State.modCluster_epoch (s : State) (n : Nat) (f : Cluster → Cluster) : (s.modCluster n f).epoch = s.epoch := rfl
@[simp] theorem State.modCluster_handoverSeq (s : State) (n : Nat) (f : Cluster → Cluster) : (s.modCluster n f).handoverSeq = s.handoverSeq := rfl
@[simp] theorem State.modCluster_complexes (s : State) (n : Nat) (f : Cluster → Cluster) : (s.modCluster n f).complexes = s.complexes := rfl
@[simp] theorem State.modCluster_stateTable (s : State) (n : Nat) (f : Cluster → Cluster) : (s.modCluster n f).stateTable = s.stateTable := rfl
@[simp] theorem State.modCluster_mgmt (s : State) (n : Nat) (f : Cluster → Cluster) : (s.modCluster n f).mgmt = s.mgmt := rfl
@[simp] theorem State.modCluster_fwWait (s : State) (n : Nat) (f : Cluster → Cluster) : (s.modCluster n f).fwWait = s.fwWait := rfl
@[simp] theorem State.modCluster_fuse (s : State) (n : Nat) (f : Cluster → Cluster) : (s.modCluster n f).fuse = s.fuse := rfl
@[simp] theorem State.modCluster_lostHosts (s : State) (n : Nat) (f : Cluster → Cluster) : (s.modCluster n f).lostHosts = s.lostHosts := rfl
@[simp] theorem State.modCluster_ntlb (s : State) (n : Nat) (f : Cluster → Cluster) : (s.modCluster n f).ntlb = s.ntlb := rfl
@[simp] theorem State.modCluster_lost (s : State) (n : Nat) (f : Cluster → Cluster) : (s.modCluster n f).lost = s.lost := rfl
@[simp] theorem State.modCluster_imports (s : State) (n : Nat) (f : Cluster → Cluster) : (s.modCluster n f).imports = s.imports := rfl
@[simp] theorem State.modCluster_keys (s : State) (n : Nat) (f : Cluster → Cluster) : (s.modCluster n f).keys = s.keys := rfl
@[simp] theorem State.modCluster_alarm (s : State) (n : Nat) (f : Cluster → Cluster) : (s.modCluster n f).alarm = s.alarm := rfl
@[simp] theorem State.modCluster_identity (s : State) (n : Nat) (f : Cluster → Cluster) : (s.modCluster n f).identity = s.identity := rfl
@[simp] theorem State.modCluster_debugCut (s : State) (n : Nat) (f : Cluster → Cluster) : (s.modCluster n f).debugCut = s.debugCut := rfl
@[simp] theorem State.modCluster_bases (s : State) (n : Nat) (f : Cluster → Cluster) : (s.modCluster n f).bases = s.bases := rfl
@[simp] theorem State.modCluster_reports (s : State) (n : Nat) (f : Cluster → Cluster) : (s.modCluster n f).reports = s.reports := rfl
@[simp] theorem State.modCluster_events (s : State) (n : Nat) (f : Cluster → Cluster) : (s.modCluster n f).events = s.events := rfl
@[simp] theorem State.modCluster_hangs (s : State) (n : Nat) (f : Cluster → Cluster) : (s.modCluster n f).hangs = s.hangs := rfl
@[simp] theorem State.modCluster_clusterRecs (s : State) (n : Nat) (f : Cluster → Cluster) : (s.modCluster n f).clusterRecs = s.clusterRecs := rfl
@[simp] theorem State.modCluster_gone (s : State) (n : Nat) (f : Cluster → Cluster) : (s.modCluster n f).gone = s.gone := rfl
@[simp] theorem State.modCluster_joinUsed (s : State) (n : Nat) (f : Cluster → Cluster) : (s.modCluster n f).joinUsed = s.joinUsed := rfl
@[simp] theorem State.modCluster_doorbells (s : State) (n : Nat) (f : Cluster → Cluster) : (s.modCluster n f).doorbells = s.doorbells := rfl
@[simp] theorem State.modCluster_redq (s : State) (n : Nat) (f : Cluster → Cluster) : (s.modCluster n f).redq = s.redq := rfl
@[simp] theorem State.modCluster_closed (s : State) (n : Nat) (f : Cluster → Cluster) : (s.modCluster n f).closed = s.closed := rfl
@[simp] theorem State.modCluster_spdmWait (s : State) (n : Nat) (f : Cluster → Cluster) : (s.modCluster n f).spdmWait = s.spdmWait := rfl
@[simp] theorem State.modCluster_spdm (s : State) (n : Nat) (f : Cluster → Cluster) : (s.modCluster n f).spdm = s.spdm := rfl
@[simp] theorem State.modCluster_fradb (s : State) (n : Nat) (f : Cluster → Cluster) : (s.modCluster n f).fradb = s.fradb := rfl
@[simp] theorem State.modCluster_clock (s : State) (n : Nat) (f : Cluster → Cluster) : (s.modCluster n f).clock = s.clock := rfl
@[simp] theorem State.modCluster_flight (s : State) (n : Nat) (f : Cluster → Cluster) : (s.modCluster n f).flight = s.flight := rfl
@[simp] theorem State.modCluster_agenda (s : State) (n : Nat) (f : Cluster → Cluster) : (s.modCluster n f).agenda = s.agenda := rfl
@[simp] theorem State.modCluster_ev (s : State) (n : Nat) (f : Cluster → Cluster) : (s.modCluster n f).ev = s.ev := rfl
@[simp] theorem State.modCluster_ir (s : State) (n : Nat) (f : Cluster → Cluster) : (s.modCluster n f).ir = s.ir := rfl
@[simp] theorem State.modCluster_fresh (s : State) (n : Nat) (f : Cluster → Cluster) : (s.modCluster n f).fresh = s.fresh := rfl

/-! ### modDie -/

@[simp] theorem State.modDie_cur (s : State) (n : Nat) (f : Die → Die) : (s.modDie n f).cur = s.cur := rfl
@[simp] theorem State.modDie_others (s : State) (n : Nat) (f : Die → Die) : (s.modDie n f).others = s.others := rfl
@[simp] theorem State.modDie_clusters (s : State) (n : Nat) (f : Die → Die) : (s.modDie n f).clusters = s.clusters := rfl
@[simp] theorem State.modDie_dies (s : State) (n : Nat) (f : Die → Die) : (s.modDie n f).dies = modAt f n s.dies := rfl
@[simp] theorem State.modDie_mdies (s : State) (n : Nat) (f : Die → Die) : (s.modDie n f).mdies = s.mdies := rfl
@[simp] theorem State.modDie_mem (s : State) (n : Nat) (f : Die → Die) : (s.modDie n f).mem = s.mem := rfl
@[simp] theorem State.modDie_dirty (s : State) (n : Nat) (f : Die → Die) : (s.modDie n f).dirty = s.dirty := rfl
@[simp] theorem State.modDie_hostMem (s : State) (n : Nat) (f : Die → Die) : (s.modDie n f).hostMem = s.hostMem := rfl
@[simp] theorem State.modDie_peerMem (s : State) (n : Nat) (f : Die → Die) : (s.modDie n f).peerMem = s.peerMem := rfl
@[simp] theorem State.modDie_weights (s : State) (n : Nat) (f : Die → Die) : (s.modDie n f).weights = s.weights := rfl
@[simp] theorem State.modDie_tlb (s : State) (n : Nat) (f : Die → Die) : (s.modDie n f).tlb = s.tlb := rfl
@[simp] theorem State.modDie_names (s : State) (n : Nat) (f : Die → Die) : (s.modDie n f).names = s.names := rfl
@[simp] theorem State.modDie_hold (s : State) (n : Nat) (f : Die → Die) : (s.modDie n f).hold = s.hold := rfl
@[simp] theorem State.modDie_joinerFree (s : State) (n : Nat) (f : Die → Die) : (s.modDie n f).joinerFree = s.joinerFree := rfl
@[simp] theorem State.modDie_skeins (s : State) (n : Nat) (f : Die → Die) : (s.modDie n f).skeins = s.skeins := rfl
@[simp] theorem State.modDie_skeinErrors (s : State) (n : Nat) (f : Die → Die) : (s.modDie n f).skeinErrors = s.skeinErrors := rfl
@[simp] theorem State.modDie_waiting (s : State) (n : Nat) (f : Die → Die) : (s.modDie n f).waiting = s.waiting := rfl
@[simp] theorem State.modDie_started (s : State) (n : Nat) (f : Die → Die) : (s.modDie n f).started = s.started := rfl
@[simp] theorem State.modDie_plq (s : State) (n : Nat) (f : Die → Die) : (s.modDie n f).plq = s.plq := rfl
@[simp] theorem State.modDie_queueTails (s : State) (n : Nat) (f : Die → Die) : (s.modDie n f).queueTails = s.queueTails := rfl
@[simp] theorem State.modDie_stageqs (s : State) (n : Nat) (f : Die → Die) : (s.modDie n f).stageqs = s.stageqs := rfl
@[simp] theorem State.modDie_watches (s : State) (n : Nat) (f : Die → Die) : (s.modDie n f).watches = s.watches := rfl
@[simp] theorem State.modDie_abuf (s : State) (n : Nat) (f : Die → Die) : (s.modDie n f).abuf = s.abuf := rfl
@[simp] theorem State.modDie_rsets (s : State) (n : Nat) (f : Die → Die) : (s.modDie n f).rsets = s.rsets := rfl
@[simp] theorem State.modDie_rsetCap (s : State) (n : Nat) (f : Die → Die) : (s.modDie n f).rsetCap = s.rsetCap := rfl
@[simp] theorem State.modDie_rsetLost (s : State) (n : Nat) (f : Die → Die) : (s.modDie n f).rsetLost = s.rsetLost := rfl
@[simp] theorem State.modDie_tokcap (s : State) (n : Nat) (f : Die → Die) : (s.modDie n f).tokcap = s.tokcap := rfl
@[simp] theorem State.modDie_nextLaunchId (s : State) (n : Nat) (f : Die → Die) : (s.modDie n f).nextLaunchId = s.nextLaunchId := rfl
@[simp] theorem State.modDie_prectl (s : State) (n : Nat) (f : Die → Die) : (s.modDie n f).prectl = s.prectl := rfl
@[simp] theorem State.modDie_peers (s : State) (n : Nat) (f : Die → Die) : (s.modDie n f).peers = s.peers := rfl
@[simp] theorem State.modDie_links (s : State) (n : Nat) (f : Die → Die) : (s.modDie n f).links = s.links := rfl
@[simp] theorem State.modDie_performed (s : State) (n : Nat) (f : Die → Die) : (s.modDie n f).performed = s.performed := rfl
@[simp] theorem State.modDie_incarn (s : State) (n : Nat) (f : Die → Die) : (s.modDie n f).incarn = s.incarn := rfl
@[simp] theorem State.modDie_did (s : State) (n : Nat) (f : Die → Die) : (s.modDie n f).did = s.did := rfl
@[simp] theorem State.modDie_ports (s : State) (n : Nat) (f : Die → Die) : (s.modDie n f).ports = s.ports := rfl
@[simp] theorem State.modDie_howns (s : State) (n : Nat) (f : Die → Die) : (s.modDie n f).howns = s.howns := rfl
@[simp] theorem State.modDie_owner (s : State) (n : Nat) (f : Die → Die) : (s.modDie n f).owner = s.owner := rfl
@[simp] theorem State.modDie_epoch (s : State) (n : Nat) (f : Die → Die) : (s.modDie n f).epoch = s.epoch := rfl
@[simp] theorem State.modDie_handoverSeq (s : State) (n : Nat) (f : Die → Die) : (s.modDie n f).handoverSeq = s.handoverSeq := rfl
@[simp] theorem State.modDie_complexes (s : State) (n : Nat) (f : Die → Die) : (s.modDie n f).complexes = s.complexes := rfl
@[simp] theorem State.modDie_stateTable (s : State) (n : Nat) (f : Die → Die) : (s.modDie n f).stateTable = s.stateTable := rfl
@[simp] theorem State.modDie_mgmt (s : State) (n : Nat) (f : Die → Die) : (s.modDie n f).mgmt = s.mgmt := rfl
@[simp] theorem State.modDie_fwWait (s : State) (n : Nat) (f : Die → Die) : (s.modDie n f).fwWait = s.fwWait := rfl
@[simp] theorem State.modDie_fuse (s : State) (n : Nat) (f : Die → Die) : (s.modDie n f).fuse = s.fuse := rfl
@[simp] theorem State.modDie_lostHosts (s : State) (n : Nat) (f : Die → Die) : (s.modDie n f).lostHosts = s.lostHosts := rfl
@[simp] theorem State.modDie_ntlb (s : State) (n : Nat) (f : Die → Die) : (s.modDie n f).ntlb = s.ntlb := rfl
@[simp] theorem State.modDie_lost (s : State) (n : Nat) (f : Die → Die) : (s.modDie n f).lost = s.lost := rfl
@[simp] theorem State.modDie_imports (s : State) (n : Nat) (f : Die → Die) : (s.modDie n f).imports = s.imports := rfl
@[simp] theorem State.modDie_keys (s : State) (n : Nat) (f : Die → Die) : (s.modDie n f).keys = s.keys := rfl
@[simp] theorem State.modDie_alarm (s : State) (n : Nat) (f : Die → Die) : (s.modDie n f).alarm = s.alarm := rfl
@[simp] theorem State.modDie_identity (s : State) (n : Nat) (f : Die → Die) : (s.modDie n f).identity = s.identity := rfl
@[simp] theorem State.modDie_debugCut (s : State) (n : Nat) (f : Die → Die) : (s.modDie n f).debugCut = s.debugCut := rfl
@[simp] theorem State.modDie_bases (s : State) (n : Nat) (f : Die → Die) : (s.modDie n f).bases = s.bases := rfl
@[simp] theorem State.modDie_reports (s : State) (n : Nat) (f : Die → Die) : (s.modDie n f).reports = s.reports := rfl
@[simp] theorem State.modDie_events (s : State) (n : Nat) (f : Die → Die) : (s.modDie n f).events = s.events := rfl
@[simp] theorem State.modDie_hangs (s : State) (n : Nat) (f : Die → Die) : (s.modDie n f).hangs = s.hangs := rfl
@[simp] theorem State.modDie_clusterRecs (s : State) (n : Nat) (f : Die → Die) : (s.modDie n f).clusterRecs = s.clusterRecs := rfl
@[simp] theorem State.modDie_gone (s : State) (n : Nat) (f : Die → Die) : (s.modDie n f).gone = s.gone := rfl
@[simp] theorem State.modDie_joinUsed (s : State) (n : Nat) (f : Die → Die) : (s.modDie n f).joinUsed = s.joinUsed := rfl
@[simp] theorem State.modDie_doorbells (s : State) (n : Nat) (f : Die → Die) : (s.modDie n f).doorbells = s.doorbells := rfl
@[simp] theorem State.modDie_redq (s : State) (n : Nat) (f : Die → Die) : (s.modDie n f).redq = s.redq := rfl
@[simp] theorem State.modDie_closed (s : State) (n : Nat) (f : Die → Die) : (s.modDie n f).closed = s.closed := rfl
@[simp] theorem State.modDie_spdmWait (s : State) (n : Nat) (f : Die → Die) : (s.modDie n f).spdmWait = s.spdmWait := rfl
@[simp] theorem State.modDie_spdm (s : State) (n : Nat) (f : Die → Die) : (s.modDie n f).spdm = s.spdm := rfl
@[simp] theorem State.modDie_fradb (s : State) (n : Nat) (f : Die → Die) : (s.modDie n f).fradb = s.fradb := rfl
@[simp] theorem State.modDie_clock (s : State) (n : Nat) (f : Die → Die) : (s.modDie n f).clock = s.clock := rfl
@[simp] theorem State.modDie_flight (s : State) (n : Nat) (f : Die → Die) : (s.modDie n f).flight = s.flight := rfl
@[simp] theorem State.modDie_agenda (s : State) (n : Nat) (f : Die → Die) : (s.modDie n f).agenda = s.agenda := rfl
@[simp] theorem State.modDie_ev (s : State) (n : Nat) (f : Die → Die) : (s.modDie n f).ev = s.ev := rfl
@[simp] theorem State.modDie_ir (s : State) (n : Nat) (f : Die → Die) : (s.modDie n f).ir = s.ir := rfl
@[simp] theorem State.modDie_fresh (s : State) (n : Nat) (f : Die → Die) : (s.modDie n f).fresh = s.fresh := rfl

/-! ### modMdie -/

@[simp] theorem State.modMdie_cur (s : State) (n : Nat) (f : MDie → MDie) : (s.modMdie n f).cur = s.cur := rfl
@[simp] theorem State.modMdie_others (s : State) (n : Nat) (f : MDie → MDie) : (s.modMdie n f).others = s.others := rfl
@[simp] theorem State.modMdie_clusters (s : State) (n : Nat) (f : MDie → MDie) : (s.modMdie n f).clusters = s.clusters := rfl
@[simp] theorem State.modMdie_dies (s : State) (n : Nat) (f : MDie → MDie) : (s.modMdie n f).dies = s.dies := rfl
@[simp] theorem State.modMdie_mdies (s : State) (n : Nat) (f : MDie → MDie) : (s.modMdie n f).mdies = modAt f n s.mdies := rfl
@[simp] theorem State.modMdie_mem (s : State) (n : Nat) (f : MDie → MDie) : (s.modMdie n f).mem = s.mem := rfl
@[simp] theorem State.modMdie_dirty (s : State) (n : Nat) (f : MDie → MDie) : (s.modMdie n f).dirty = s.dirty := rfl
@[simp] theorem State.modMdie_hostMem (s : State) (n : Nat) (f : MDie → MDie) : (s.modMdie n f).hostMem = s.hostMem := rfl
@[simp] theorem State.modMdie_peerMem (s : State) (n : Nat) (f : MDie → MDie) : (s.modMdie n f).peerMem = s.peerMem := rfl
@[simp] theorem State.modMdie_weights (s : State) (n : Nat) (f : MDie → MDie) : (s.modMdie n f).weights = s.weights := rfl
@[simp] theorem State.modMdie_tlb (s : State) (n : Nat) (f : MDie → MDie) : (s.modMdie n f).tlb = s.tlb := rfl
@[simp] theorem State.modMdie_names (s : State) (n : Nat) (f : MDie → MDie) : (s.modMdie n f).names = s.names := rfl
@[simp] theorem State.modMdie_hold (s : State) (n : Nat) (f : MDie → MDie) : (s.modMdie n f).hold = s.hold := rfl
@[simp] theorem State.modMdie_joinerFree (s : State) (n : Nat) (f : MDie → MDie) : (s.modMdie n f).joinerFree = s.joinerFree := rfl
@[simp] theorem State.modMdie_skeins (s : State) (n : Nat) (f : MDie → MDie) : (s.modMdie n f).skeins = s.skeins := rfl
@[simp] theorem State.modMdie_skeinErrors (s : State) (n : Nat) (f : MDie → MDie) : (s.modMdie n f).skeinErrors = s.skeinErrors := rfl
@[simp] theorem State.modMdie_waiting (s : State) (n : Nat) (f : MDie → MDie) : (s.modMdie n f).waiting = s.waiting := rfl
@[simp] theorem State.modMdie_started (s : State) (n : Nat) (f : MDie → MDie) : (s.modMdie n f).started = s.started := rfl
@[simp] theorem State.modMdie_plq (s : State) (n : Nat) (f : MDie → MDie) : (s.modMdie n f).plq = s.plq := rfl
@[simp] theorem State.modMdie_queueTails (s : State) (n : Nat) (f : MDie → MDie) : (s.modMdie n f).queueTails = s.queueTails := rfl
@[simp] theorem State.modMdie_stageqs (s : State) (n : Nat) (f : MDie → MDie) : (s.modMdie n f).stageqs = s.stageqs := rfl
@[simp] theorem State.modMdie_watches (s : State) (n : Nat) (f : MDie → MDie) : (s.modMdie n f).watches = s.watches := rfl
@[simp] theorem State.modMdie_abuf (s : State) (n : Nat) (f : MDie → MDie) : (s.modMdie n f).abuf = s.abuf := rfl
@[simp] theorem State.modMdie_rsets (s : State) (n : Nat) (f : MDie → MDie) : (s.modMdie n f).rsets = s.rsets := rfl
@[simp] theorem State.modMdie_rsetCap (s : State) (n : Nat) (f : MDie → MDie) : (s.modMdie n f).rsetCap = s.rsetCap := rfl
@[simp] theorem State.modMdie_rsetLost (s : State) (n : Nat) (f : MDie → MDie) : (s.modMdie n f).rsetLost = s.rsetLost := rfl
@[simp] theorem State.modMdie_tokcap (s : State) (n : Nat) (f : MDie → MDie) : (s.modMdie n f).tokcap = s.tokcap := rfl
@[simp] theorem State.modMdie_nextLaunchId (s : State) (n : Nat) (f : MDie → MDie) : (s.modMdie n f).nextLaunchId = s.nextLaunchId := rfl
@[simp] theorem State.modMdie_prectl (s : State) (n : Nat) (f : MDie → MDie) : (s.modMdie n f).prectl = s.prectl := rfl
@[simp] theorem State.modMdie_peers (s : State) (n : Nat) (f : MDie → MDie) : (s.modMdie n f).peers = s.peers := rfl
@[simp] theorem State.modMdie_links (s : State) (n : Nat) (f : MDie → MDie) : (s.modMdie n f).links = s.links := rfl
@[simp] theorem State.modMdie_performed (s : State) (n : Nat) (f : MDie → MDie) : (s.modMdie n f).performed = s.performed := rfl
@[simp] theorem State.modMdie_incarn (s : State) (n : Nat) (f : MDie → MDie) : (s.modMdie n f).incarn = s.incarn := rfl
@[simp] theorem State.modMdie_did (s : State) (n : Nat) (f : MDie → MDie) : (s.modMdie n f).did = s.did := rfl
@[simp] theorem State.modMdie_ports (s : State) (n : Nat) (f : MDie → MDie) : (s.modMdie n f).ports = s.ports := rfl
@[simp] theorem State.modMdie_howns (s : State) (n : Nat) (f : MDie → MDie) : (s.modMdie n f).howns = s.howns := rfl
@[simp] theorem State.modMdie_owner (s : State) (n : Nat) (f : MDie → MDie) : (s.modMdie n f).owner = s.owner := rfl
@[simp] theorem State.modMdie_epoch (s : State) (n : Nat) (f : MDie → MDie) : (s.modMdie n f).epoch = s.epoch := rfl
@[simp] theorem State.modMdie_handoverSeq (s : State) (n : Nat) (f : MDie → MDie) : (s.modMdie n f).handoverSeq = s.handoverSeq := rfl
@[simp] theorem State.modMdie_complexes (s : State) (n : Nat) (f : MDie → MDie) : (s.modMdie n f).complexes = s.complexes := rfl
@[simp] theorem State.modMdie_stateTable (s : State) (n : Nat) (f : MDie → MDie) : (s.modMdie n f).stateTable = s.stateTable := rfl
@[simp] theorem State.modMdie_mgmt (s : State) (n : Nat) (f : MDie → MDie) : (s.modMdie n f).mgmt = s.mgmt := rfl
@[simp] theorem State.modMdie_fwWait (s : State) (n : Nat) (f : MDie → MDie) : (s.modMdie n f).fwWait = s.fwWait := rfl
@[simp] theorem State.modMdie_fuse (s : State) (n : Nat) (f : MDie → MDie) : (s.modMdie n f).fuse = s.fuse := rfl
@[simp] theorem State.modMdie_lostHosts (s : State) (n : Nat) (f : MDie → MDie) : (s.modMdie n f).lostHosts = s.lostHosts := rfl
@[simp] theorem State.modMdie_ntlb (s : State) (n : Nat) (f : MDie → MDie) : (s.modMdie n f).ntlb = s.ntlb := rfl
@[simp] theorem State.modMdie_lost (s : State) (n : Nat) (f : MDie → MDie) : (s.modMdie n f).lost = s.lost := rfl
@[simp] theorem State.modMdie_imports (s : State) (n : Nat) (f : MDie → MDie) : (s.modMdie n f).imports = s.imports := rfl
@[simp] theorem State.modMdie_keys (s : State) (n : Nat) (f : MDie → MDie) : (s.modMdie n f).keys = s.keys := rfl
@[simp] theorem State.modMdie_alarm (s : State) (n : Nat) (f : MDie → MDie) : (s.modMdie n f).alarm = s.alarm := rfl
@[simp] theorem State.modMdie_identity (s : State) (n : Nat) (f : MDie → MDie) : (s.modMdie n f).identity = s.identity := rfl
@[simp] theorem State.modMdie_debugCut (s : State) (n : Nat) (f : MDie → MDie) : (s.modMdie n f).debugCut = s.debugCut := rfl
@[simp] theorem State.modMdie_bases (s : State) (n : Nat) (f : MDie → MDie) : (s.modMdie n f).bases = s.bases := rfl
@[simp] theorem State.modMdie_reports (s : State) (n : Nat) (f : MDie → MDie) : (s.modMdie n f).reports = s.reports := rfl
@[simp] theorem State.modMdie_events (s : State) (n : Nat) (f : MDie → MDie) : (s.modMdie n f).events = s.events := rfl
@[simp] theorem State.modMdie_hangs (s : State) (n : Nat) (f : MDie → MDie) : (s.modMdie n f).hangs = s.hangs := rfl
@[simp] theorem State.modMdie_clusterRecs (s : State) (n : Nat) (f : MDie → MDie) : (s.modMdie n f).clusterRecs = s.clusterRecs := rfl
@[simp] theorem State.modMdie_gone (s : State) (n : Nat) (f : MDie → MDie) : (s.modMdie n f).gone = s.gone := rfl
@[simp] theorem State.modMdie_joinUsed (s : State) (n : Nat) (f : MDie → MDie) : (s.modMdie n f).joinUsed = s.joinUsed := rfl
@[simp] theorem State.modMdie_doorbells (s : State) (n : Nat) (f : MDie → MDie) : (s.modMdie n f).doorbells = s.doorbells := rfl
@[simp] theorem State.modMdie_redq (s : State) (n : Nat) (f : MDie → MDie) : (s.modMdie n f).redq = s.redq := rfl
@[simp] theorem State.modMdie_closed (s : State) (n : Nat) (f : MDie → MDie) : (s.modMdie n f).closed = s.closed := rfl
@[simp] theorem State.modMdie_spdmWait (s : State) (n : Nat) (f : MDie → MDie) : (s.modMdie n f).spdmWait = s.spdmWait := rfl
@[simp] theorem State.modMdie_spdm (s : State) (n : Nat) (f : MDie → MDie) : (s.modMdie n f).spdm = s.spdm := rfl
@[simp] theorem State.modMdie_fradb (s : State) (n : Nat) (f : MDie → MDie) : (s.modMdie n f).fradb = s.fradb := rfl
@[simp] theorem State.modMdie_clock (s : State) (n : Nat) (f : MDie → MDie) : (s.modMdie n f).clock = s.clock := rfl
@[simp] theorem State.modMdie_flight (s : State) (n : Nat) (f : MDie → MDie) : (s.modMdie n f).flight = s.flight := rfl
@[simp] theorem State.modMdie_agenda (s : State) (n : Nat) (f : MDie → MDie) : (s.modMdie n f).agenda = s.agenda := rfl
@[simp] theorem State.modMdie_ev (s : State) (n : Nat) (f : MDie → MDie) : (s.modMdie n f).ev = s.ev := rfl
@[simp] theorem State.modMdie_ir (s : State) (n : Nat) (f : MDie → MDie) : (s.modMdie n f).ir = s.ir := rfl
@[simp] theorem State.modMdie_fresh (s : State) (n : Nat) (f : MDie → MDie) : (s.modMdie n f).fresh = s.fresh := rfl

/-! ### logEvent -/

@[simp] theorem State.logEvent_cur (s : State) (k d x : Nat) : (s.logEvent k d x).cur = s.cur := rfl
@[simp] theorem State.logEvent_others (s : State) (k d x : Nat) : (s.logEvent k d x).others = s.others := rfl
@[simp] theorem State.logEvent_clusters (s : State) (k d x : Nat) : (s.logEvent k d x).clusters = s.clusters := rfl
@[simp] theorem State.logEvent_dies (s : State) (k d x : Nat) : (s.logEvent k d x).dies = s.dies := rfl
@[simp] theorem State.logEvent_mdies (s : State) (k d x : Nat) : (s.logEvent k d x).mdies = s.mdies := rfl
@[simp] theorem State.logEvent_mem (s : State) (k d x : Nat) : (s.logEvent k d x).mem = s.mem := rfl
@[simp] theorem State.logEvent_dirty (s : State) (k d x : Nat) : (s.logEvent k d x).dirty = s.dirty := rfl
@[simp] theorem State.logEvent_hostMem (s : State) (k d x : Nat) : (s.logEvent k d x).hostMem = s.hostMem := rfl
@[simp] theorem State.logEvent_peerMem (s : State) (k d x : Nat) : (s.logEvent k d x).peerMem = s.peerMem := rfl
@[simp] theorem State.logEvent_weights (s : State) (k d x : Nat) : (s.logEvent k d x).weights = s.weights := rfl
@[simp] theorem State.logEvent_tlb (s : State) (k d x : Nat) : (s.logEvent k d x).tlb = s.tlb := rfl
@[simp] theorem State.logEvent_names (s : State) (k d x : Nat) : (s.logEvent k d x).names = s.names := rfl
@[simp] theorem State.logEvent_hold (s : State) (k d x : Nat) : (s.logEvent k d x).hold = s.hold := rfl
@[simp] theorem State.logEvent_joinerFree (s : State) (k d x : Nat) : (s.logEvent k d x).joinerFree = s.joinerFree := rfl
@[simp] theorem State.logEvent_skeins (s : State) (k d x : Nat) : (s.logEvent k d x).skeins = s.skeins := rfl
@[simp] theorem State.logEvent_skeinErrors (s : State) (k d x : Nat) : (s.logEvent k d x).skeinErrors = s.skeinErrors := rfl
@[simp] theorem State.logEvent_waiting (s : State) (k d x : Nat) : (s.logEvent k d x).waiting = s.waiting := rfl
@[simp] theorem State.logEvent_started (s : State) (k d x : Nat) : (s.logEvent k d x).started = s.started := rfl
@[simp] theorem State.logEvent_plq (s : State) (k d x : Nat) : (s.logEvent k d x).plq = s.plq := rfl
@[simp] theorem State.logEvent_queueTails (s : State) (k d x : Nat) : (s.logEvent k d x).queueTails = s.queueTails := rfl
@[simp] theorem State.logEvent_stageqs (s : State) (k d x : Nat) : (s.logEvent k d x).stageqs = s.stageqs := rfl
@[simp] theorem State.logEvent_watches (s : State) (k d x : Nat) : (s.logEvent k d x).watches = s.watches := rfl
@[simp] theorem State.logEvent_abuf (s : State) (k d x : Nat) : (s.logEvent k d x).abuf = s.abuf := rfl
@[simp] theorem State.logEvent_rsets (s : State) (k d x : Nat) : (s.logEvent k d x).rsets = s.rsets := rfl
@[simp] theorem State.logEvent_rsetCap (s : State) (k d x : Nat) : (s.logEvent k d x).rsetCap = s.rsetCap := rfl
@[simp] theorem State.logEvent_rsetLost (s : State) (k d x : Nat) : (s.logEvent k d x).rsetLost = s.rsetLost := rfl
@[simp] theorem State.logEvent_tokcap (s : State) (k d x : Nat) : (s.logEvent k d x).tokcap = s.tokcap := rfl
@[simp] theorem State.logEvent_nextLaunchId (s : State) (k d x : Nat) : (s.logEvent k d x).nextLaunchId = s.nextLaunchId := rfl
@[simp] theorem State.logEvent_prectl (s : State) (k d x : Nat) : (s.logEvent k d x).prectl = s.prectl := rfl
@[simp] theorem State.logEvent_peers (s : State) (k d x : Nat) : (s.logEvent k d x).peers = s.peers := rfl
@[simp] theorem State.logEvent_links (s : State) (k d x : Nat) : (s.logEvent k d x).links = s.links := rfl
@[simp] theorem State.logEvent_performed (s : State) (k d x : Nat) : (s.logEvent k d x).performed = s.performed := rfl
@[simp] theorem State.logEvent_incarn (s : State) (k d x : Nat) : (s.logEvent k d x).incarn = s.incarn := rfl
@[simp] theorem State.logEvent_did (s : State) (k d x : Nat) : (s.logEvent k d x).did = s.did := rfl
@[simp] theorem State.logEvent_ports (s : State) (k d x : Nat) : (s.logEvent k d x).ports = s.ports := rfl
@[simp] theorem State.logEvent_howns (s : State) (k d x : Nat) : (s.logEvent k d x).howns = s.howns := rfl
@[simp] theorem State.logEvent_owner (s : State) (k d x : Nat) : (s.logEvent k d x).owner = s.owner := rfl
@[simp] theorem State.logEvent_epoch (s : State) (k d x : Nat) : (s.logEvent k d x).epoch = s.epoch := rfl
@[simp] theorem State.logEvent_handoverSeq (s : State) (k d x : Nat) : (s.logEvent k d x).handoverSeq = s.handoverSeq := rfl
@[simp] theorem State.logEvent_complexes (s : State) (k d x : Nat) : (s.logEvent k d x).complexes = s.complexes := rfl
@[simp] theorem State.logEvent_stateTable (s : State) (k d x : Nat) : (s.logEvent k d x).stateTable = s.stateTable := rfl
@[simp] theorem State.logEvent_mgmt (s : State) (k d x : Nat) : (s.logEvent k d x).mgmt = s.mgmt := rfl
@[simp] theorem State.logEvent_fwWait (s : State) (k d x : Nat) : (s.logEvent k d x).fwWait = s.fwWait := rfl
@[simp] theorem State.logEvent_fuse (s : State) (k d x : Nat) : (s.logEvent k d x).fuse = s.fuse := rfl
@[simp] theorem State.logEvent_lostHosts (s : State) (k d x : Nat) : (s.logEvent k d x).lostHosts = s.lostHosts := rfl
@[simp] theorem State.logEvent_ntlb (s : State) (k d x : Nat) : (s.logEvent k d x).ntlb = s.ntlb := rfl
@[simp] theorem State.logEvent_lost (s : State) (k d x : Nat) : (s.logEvent k d x).lost = s.lost := rfl
@[simp] theorem State.logEvent_imports (s : State) (k d x : Nat) : (s.logEvent k d x).imports = s.imports := rfl
@[simp] theorem State.logEvent_keys (s : State) (k d x : Nat) : (s.logEvent k d x).keys = s.keys := rfl
@[simp] theorem State.logEvent_alarm (s : State) (k d x : Nat) : (s.logEvent k d x).alarm = s.alarm := rfl
@[simp] theorem State.logEvent_identity (s : State) (k d x : Nat) : (s.logEvent k d x).identity = s.identity := rfl
@[simp] theorem State.logEvent_debugCut (s : State) (k d x : Nat) : (s.logEvent k d x).debugCut = s.debugCut := rfl
@[simp] theorem State.logEvent_bases (s : State) (k d x : Nat) : (s.logEvent k d x).bases = s.bases := rfl
@[simp] theorem State.logEvent_reports (s : State) (k d x : Nat) : (s.logEvent k d x).reports = s.reports := rfl
@[simp] theorem State.logEvent_events (s : State) (k d x : Nat) : (s.logEvent k d x).events = s.events ++ [⟨k, d, x⟩] := rfl
@[simp] theorem State.logEvent_hangs (s : State) (k d x : Nat) : (s.logEvent k d x).hangs = s.hangs := rfl
@[simp] theorem State.logEvent_clusterRecs (s : State) (k d x : Nat) : (s.logEvent k d x).clusterRecs = s.clusterRecs := rfl
@[simp] theorem State.logEvent_gone (s : State) (k d x : Nat) : (s.logEvent k d x).gone = s.gone := rfl
@[simp] theorem State.logEvent_joinUsed (s : State) (k d x : Nat) : (s.logEvent k d x).joinUsed = s.joinUsed := rfl
@[simp] theorem State.logEvent_doorbells (s : State) (k d x : Nat) : (s.logEvent k d x).doorbells = s.doorbells := rfl
@[simp] theorem State.logEvent_redq (s : State) (k d x : Nat) : (s.logEvent k d x).redq = s.redq := rfl
@[simp] theorem State.logEvent_closed (s : State) (k d x : Nat) : (s.logEvent k d x).closed = s.closed := rfl
@[simp] theorem State.logEvent_spdmWait (s : State) (k d x : Nat) : (s.logEvent k d x).spdmWait = s.spdmWait := rfl
@[simp] theorem State.logEvent_spdm (s : State) (k d x : Nat) : (s.logEvent k d x).spdm = s.spdm := rfl
@[simp] theorem State.logEvent_fradb (s : State) (k d x : Nat) : (s.logEvent k d x).fradb = s.fradb := rfl
@[simp] theorem State.logEvent_clock (s : State) (k d x : Nat) : (s.logEvent k d x).clock = s.clock := rfl
@[simp] theorem State.logEvent_flight (s : State) (k d x : Nat) : (s.logEvent k d x).flight = s.flight := rfl
@[simp] theorem State.logEvent_agenda (s : State) (k d x : Nat) : (s.logEvent k d x).agenda = s.agenda := rfl
@[simp] theorem State.logEvent_ev (s : State) (k d x : Nat) : (s.logEvent k d x).ev = s.ev := rfl
@[simp] theorem State.logEvent_ir (s : State) (k d x : Nat) : (s.logEvent k d x).ir = s.ir := rfl
@[simp] theorem State.logEvent_fresh (s : State) (k d x : Nat) : (s.logEvent k d x).fresh = s.fresh := rfl

/-! ### modThread -/

@[simp] theorem State.modThread_clusters (s : State) (t : Nat) (f : Group → Group) : (s.modThread t f).clusters = s.clusters := by
  unfold State.modThread; split <;> rfl
@[simp] theorem State.modThread_dies (s : State) (t : Nat) (f : Group → Group) : (s.modThread t f).dies = s.dies := by
  unfold State.modThread; split <;> rfl
@[simp] theorem State.modThread_mdies (s : State) (t : Nat) (f : Group → Group) : (s.modThread t f).mdies = s.mdies := by
  unfold State.modThread; split <;> rfl
@[simp] theorem State.modThread_mem (s : State) (t : Nat) (f : Group → Group) : (s.modThread t f).mem = s.mem := by
  unfold State.modThread; split <;> rfl
@[simp] theorem State.modThread_dirty (s : State) (t : Nat) (f : Group → Group) : (s.modThread t f).dirty = s.dirty := by
  unfold State.modThread; split <;> rfl
@[simp] theorem State.modThread_hostMem (s : State) (t : Nat) (f : Group → Group) : (s.modThread t f).hostMem = s.hostMem := by
  unfold State.modThread; split <;> rfl
@[simp] theorem State.modThread_peerMem (s : State) (t : Nat) (f : Group → Group) : (s.modThread t f).peerMem = s.peerMem := by
  unfold State.modThread; split <;> rfl
@[simp] theorem State.modThread_weights (s : State) (t : Nat) (f : Group → Group) : (s.modThread t f).weights = s.weights := by
  unfold State.modThread; split <;> rfl
@[simp] theorem State.modThread_tlb (s : State) (t : Nat) (f : Group → Group) : (s.modThread t f).tlb = s.tlb := by
  unfold State.modThread; split <;> rfl
@[simp] theorem State.modThread_names (s : State) (t : Nat) (f : Group → Group) : (s.modThread t f).names = s.names := by
  unfold State.modThread; split <;> rfl
@[simp] theorem State.modThread_hold (s : State) (t : Nat) (f : Group → Group) : (s.modThread t f).hold = s.hold := by
  unfold State.modThread; split <;> rfl
@[simp] theorem State.modThread_joinerFree (s : State) (t : Nat) (f : Group → Group) : (s.modThread t f).joinerFree = s.joinerFree := by
  unfold State.modThread; split <;> rfl
@[simp] theorem State.modThread_skeins (s : State) (t : Nat) (f : Group → Group) : (s.modThread t f).skeins = s.skeins := by
  unfold State.modThread; split <;> rfl
@[simp] theorem State.modThread_skeinErrors (s : State) (t : Nat) (f : Group → Group) : (s.modThread t f).skeinErrors = s.skeinErrors := by
  unfold State.modThread; split <;> rfl
@[simp] theorem State.modThread_waiting (s : State) (t : Nat) (f : Group → Group) : (s.modThread t f).waiting = s.waiting := by
  unfold State.modThread; split <;> rfl
@[simp] theorem State.modThread_started (s : State) (t : Nat) (f : Group → Group) : (s.modThread t f).started = s.started := by
  unfold State.modThread; split <;> rfl
@[simp] theorem State.modThread_plq (s : State) (t : Nat) (f : Group → Group) : (s.modThread t f).plq = s.plq := by
  unfold State.modThread; split <;> rfl
@[simp] theorem State.modThread_queueTails (s : State) (t : Nat) (f : Group → Group) : (s.modThread t f).queueTails = s.queueTails := by
  unfold State.modThread; split <;> rfl
@[simp] theorem State.modThread_stageqs (s : State) (t : Nat) (f : Group → Group) : (s.modThread t f).stageqs = s.stageqs := by
  unfold State.modThread; split <;> rfl
@[simp] theorem State.modThread_watches (s : State) (t : Nat) (f : Group → Group) : (s.modThread t f).watches = s.watches := by
  unfold State.modThread; split <;> rfl
@[simp] theorem State.modThread_abuf (s : State) (t : Nat) (f : Group → Group) : (s.modThread t f).abuf = s.abuf := by
  unfold State.modThread; split <;> rfl
@[simp] theorem State.modThread_rsets (s : State) (t : Nat) (f : Group → Group) : (s.modThread t f).rsets = s.rsets := by
  unfold State.modThread; split <;> rfl
@[simp] theorem State.modThread_rsetCap (s : State) (t : Nat) (f : Group → Group) : (s.modThread t f).rsetCap = s.rsetCap := by
  unfold State.modThread; split <;> rfl
@[simp] theorem State.modThread_rsetLost (s : State) (t : Nat) (f : Group → Group) : (s.modThread t f).rsetLost = s.rsetLost := by
  unfold State.modThread; split <;> rfl
@[simp] theorem State.modThread_tokcap (s : State) (t : Nat) (f : Group → Group) : (s.modThread t f).tokcap = s.tokcap := by
  unfold State.modThread; split <;> rfl
@[simp] theorem State.modThread_nextLaunchId (s : State) (t : Nat) (f : Group → Group) : (s.modThread t f).nextLaunchId = s.nextLaunchId := by
  unfold State.modThread; split <;> rfl
@[simp] theorem State.modThread_prectl (s : State) (t : Nat) (f : Group → Group) : (s.modThread t f).prectl = s.prectl := by
  unfold State.modThread; split <;> rfl
@[simp] theorem State.modThread_peers (s : State) (t : Nat) (f : Group → Group) : (s.modThread t f).peers = s.peers := by
  unfold State.modThread; split <;> rfl
@[simp] theorem State.modThread_links (s : State) (t : Nat) (f : Group → Group) : (s.modThread t f).links = s.links := by
  unfold State.modThread; split <;> rfl
@[simp] theorem State.modThread_performed (s : State) (t : Nat) (f : Group → Group) : (s.modThread t f).performed = s.performed := by
  unfold State.modThread; split <;> rfl
@[simp] theorem State.modThread_incarn (s : State) (t : Nat) (f : Group → Group) : (s.modThread t f).incarn = s.incarn := by
  unfold State.modThread; split <;> rfl
@[simp] theorem State.modThread_did (s : State) (t : Nat) (f : Group → Group) : (s.modThread t f).did = s.did := by
  unfold State.modThread; split <;> rfl
@[simp] theorem State.modThread_ports (s : State) (t : Nat) (f : Group → Group) : (s.modThread t f).ports = s.ports := by
  unfold State.modThread; split <;> rfl
@[simp] theorem State.modThread_howns (s : State) (t : Nat) (f : Group → Group) : (s.modThread t f).howns = s.howns := by
  unfold State.modThread; split <;> rfl
@[simp] theorem State.modThread_owner (s : State) (t : Nat) (f : Group → Group) : (s.modThread t f).owner = s.owner := by
  unfold State.modThread; split <;> rfl
@[simp] theorem State.modThread_epoch (s : State) (t : Nat) (f : Group → Group) : (s.modThread t f).epoch = s.epoch := by
  unfold State.modThread; split <;> rfl
@[simp] theorem State.modThread_handoverSeq (s : State) (t : Nat) (f : Group → Group) : (s.modThread t f).handoverSeq = s.handoverSeq := by
  unfold State.modThread; split <;> rfl
@[simp] theorem State.modThread_complexes (s : State) (t : Nat) (f : Group → Group) : (s.modThread t f).complexes = s.complexes := by
  unfold State.modThread; split <;> rfl
@[simp] theorem State.modThread_stateTable (s : State) (t : Nat) (f : Group → Group) : (s.modThread t f).stateTable = s.stateTable := by
  unfold State.modThread; split <;> rfl
@[simp] theorem State.modThread_mgmt (s : State) (t : Nat) (f : Group → Group) : (s.modThread t f).mgmt = s.mgmt := by
  unfold State.modThread; split <;> rfl
@[simp] theorem State.modThread_fwWait (s : State) (t : Nat) (f : Group → Group) : (s.modThread t f).fwWait = s.fwWait := by
  unfold State.modThread; split <;> rfl
@[simp] theorem State.modThread_fuse (s : State) (t : Nat) (f : Group → Group) : (s.modThread t f).fuse = s.fuse := by
  unfold State.modThread; split <;> rfl
@[simp] theorem State.modThread_lostHosts (s : State) (t : Nat) (f : Group → Group) : (s.modThread t f).lostHosts = s.lostHosts := by
  unfold State.modThread; split <;> rfl
@[simp] theorem State.modThread_ntlb (s : State) (t : Nat) (f : Group → Group) : (s.modThread t f).ntlb = s.ntlb := by
  unfold State.modThread; split <;> rfl
@[simp] theorem State.modThread_lost (s : State) (t : Nat) (f : Group → Group) : (s.modThread t f).lost = s.lost := by
  unfold State.modThread; split <;> rfl
@[simp] theorem State.modThread_imports (s : State) (t : Nat) (f : Group → Group) : (s.modThread t f).imports = s.imports := by
  unfold State.modThread; split <;> rfl
@[simp] theorem State.modThread_keys (s : State) (t : Nat) (f : Group → Group) : (s.modThread t f).keys = s.keys := by
  unfold State.modThread; split <;> rfl
@[simp] theorem State.modThread_alarm (s : State) (t : Nat) (f : Group → Group) : (s.modThread t f).alarm = s.alarm := by
  unfold State.modThread; split <;> rfl
@[simp] theorem State.modThread_identity (s : State) (t : Nat) (f : Group → Group) : (s.modThread t f).identity = s.identity := by
  unfold State.modThread; split <;> rfl
@[simp] theorem State.modThread_debugCut (s : State) (t : Nat) (f : Group → Group) : (s.modThread t f).debugCut = s.debugCut := by
  unfold State.modThread; split <;> rfl
@[simp] theorem State.modThread_bases (s : State) (t : Nat) (f : Group → Group) : (s.modThread t f).bases = s.bases := by
  unfold State.modThread; split <;> rfl
@[simp] theorem State.modThread_reports (s : State) (t : Nat) (f : Group → Group) : (s.modThread t f).reports = s.reports := by
  unfold State.modThread; split <;> rfl
@[simp] theorem State.modThread_events (s : State) (t : Nat) (f : Group → Group) : (s.modThread t f).events = s.events := by
  unfold State.modThread; split <;> rfl
@[simp] theorem State.modThread_hangs (s : State) (t : Nat) (f : Group → Group) : (s.modThread t f).hangs = s.hangs := by
  unfold State.modThread; split <;> rfl
@[simp] theorem State.modThread_clusterRecs (s : State) (t : Nat) (f : Group → Group) : (s.modThread t f).clusterRecs = s.clusterRecs := by
  unfold State.modThread; split <;> rfl
@[simp] theorem State.modThread_gone (s : State) (t : Nat) (f : Group → Group) : (s.modThread t f).gone = s.gone := by
  unfold State.modThread; split <;> rfl
@[simp] theorem State.modThread_joinUsed (s : State) (t : Nat) (f : Group → Group) : (s.modThread t f).joinUsed = s.joinUsed := by
  unfold State.modThread; split <;> rfl
@[simp] theorem State.modThread_doorbells (s : State) (t : Nat) (f : Group → Group) : (s.modThread t f).doorbells = s.doorbells := by
  unfold State.modThread; split <;> rfl
@[simp] theorem State.modThread_redq (s : State) (t : Nat) (f : Group → Group) : (s.modThread t f).redq = s.redq := by
  unfold State.modThread; split <;> rfl
@[simp] theorem State.modThread_closed (s : State) (t : Nat) (f : Group → Group) : (s.modThread t f).closed = s.closed := by
  unfold State.modThread; split <;> rfl
@[simp] theorem State.modThread_spdmWait (s : State) (t : Nat) (f : Group → Group) : (s.modThread t f).spdmWait = s.spdmWait := by
  unfold State.modThread; split <;> rfl
@[simp] theorem State.modThread_spdm (s : State) (t : Nat) (f : Group → Group) : (s.modThread t f).spdm = s.spdm := by
  unfold State.modThread; split <;> rfl
@[simp] theorem State.modThread_fradb (s : State) (t : Nat) (f : Group → Group) : (s.modThread t f).fradb = s.fradb := by
  unfold State.modThread; split <;> rfl
@[simp] theorem State.modThread_clock (s : State) (t : Nat) (f : Group → Group) : (s.modThread t f).clock = s.clock := by
  unfold State.modThread; split <;> rfl
@[simp] theorem State.modThread_flight (s : State) (t : Nat) (f : Group → Group) : (s.modThread t f).flight = s.flight := by
  unfold State.modThread; split <;> rfl
@[simp] theorem State.modThread_agenda (s : State) (t : Nat) (f : Group → Group) : (s.modThread t f).agenda = s.agenda := by
  unfold State.modThread; split <;> rfl
@[simp] theorem State.modThread_ev (s : State) (t : Nat) (f : Group → Group) : (s.modThread t f).ev = s.ev := by
  unfold State.modThread; split <;> rfl
@[simp] theorem State.modThread_ir (s : State) (t : Nat) (f : Group → Group) : (s.modThread t f).ir = s.ir := by
  unfold State.modThread; split <;> rfl
@[simp] theorem State.modThread_fresh (s : State) (t : Nat) (f : Group → Group) : (s.modThread t f).fresh = s.fresh := by
  unfold State.modThread; split <;> rfl

/-! ### Arms of a group -/

@[simp] theorem Group.mapArm_tid (g : Group) (b : Bool) (f : Arm → Arm) : (g.mapArm b f).tid = g.tid := by
  cases b <;> rfl
@[simp] theorem Group.mapMe_tid (g : Group) (f : Arm → Arm) : (g.mapMe f).tid = g.tid :=
  g.mapArm_tid g.sel f
@[simp] theorem Group.mapArm_seq (g : Group) (b : Bool) (f : Arm → Arm) : (g.mapArm b f).seq = g.seq := by
  cases b <;> rfl
@[simp] theorem Group.mapMe_seq (g : Group) (f : Arm → Arm) : (g.mapMe f).seq = g.seq :=
  g.mapArm_seq g.sel f
@[simp] theorem Group.mapArm_name (g : Group) (b : Bool) (f : Arm → Arm) : (g.mapArm b f).name = g.name := by
  cases b <;> rfl
@[simp] theorem Group.mapMe_name (g : Group) (f : Arm → Arm) : (g.mapMe f).name = g.name :=
  g.mapArm_name g.sel f
@[simp] theorem Group.mapArm_region (g : Group) (b : Bool) (f : Arm → Arm) : (g.mapArm b f).region = g.region := by
  cases b <;> rfl
@[simp] theorem Group.mapMe_region (g : Group) (f : Arm → Arm) : (g.mapMe f).region = g.region :=
  g.mapArm_region g.sel f
@[simp] theorem Group.mapArm_rank (g : Group) (b : Bool) (f : Arm → Arm) : (g.mapArm b f).rank = g.rank := by
  cases b <;> rfl
@[simp] theorem Group.mapMe_rank (g : Group) (f : Arm → Arm) : (g.mapMe f).rank = g.rank :=
  g.mapArm_rank g.sel f
@[simp] theorem Group.mapArm_ngroups (g : Group) (b : Bool) (f : Arm → Arm) : (g.mapArm b f).ngroups = g.ngroups := by
  cases b <;> rfl
@[simp] theorem Group.mapMe_ngroups (g : Group) (f : Arm → Arm) : (g.mapMe f).ngroups = g.ngroups :=
  g.mapArm_ngroups g.sel f
@[simp] theorem Group.mapArm_launchId (g : Group) (b : Bool) (f : Arm → Arm) : (g.mapArm b f).launchId = g.launchId := by
  cases b <;> rfl
@[simp] theorem Group.mapMe_launchId (g : Group) (f : Arm → Arm) : (g.mapMe f).launchId = g.launchId :=
  g.mapArm_launchId g.sel f
@[simp] theorem Group.mapArm_nbidx (g : Group) (b : Bool) (f : Arm → Arm) : (g.mapArm b f).nbidx = g.nbidx := by
  cases b <;> rfl
@[simp] theorem Group.mapMe_nbidx (g : Group) (f : Arm → Arm) : (g.mapMe f).nbidx = g.nbidx :=
  g.mapArm_nbidx g.sel f
@[simp] theorem Group.mapArm_vregs (g : Group) (b : Bool) (f : Arm → Arm) : (g.mapArm b f).vregs = g.vregs := by
  cases b <;> rfl
@[simp] theorem Group.mapMe_vregs (g : Group) (f : Arm → Arm) : (g.mapMe f).vregs = g.vregs :=
  g.mapArm_vregs g.sel f
@[simp] theorem Group.mapArm_lastLanes (g : Group) (b : Bool) (f : Arm → Arm) : (g.mapArm b f).lastLanes = g.lastLanes := by
  cases b <;> rfl
@[simp] theorem Group.mapMe_lastLanes (g : Group) (f : Arm → Arm) : (g.mapMe f).lastLanes = g.lastLanes :=
  g.mapArm_lastLanes g.sel f
@[simp] theorem Group.mapArm_spadKiB (g : Group) (b : Bool) (f : Arm → Arm) : (g.mapArm b f).spadKiB = g.spadKiB := by
  cases b <;> rfl
@[simp] theorem Group.mapMe_spadKiB (g : Group) (f : Arm → Arm) : (g.mapMe f).spadKiB = g.spadKiB :=
  g.mapArm_spadKiB g.sel f
@[simp] theorem Group.mapArm_info (g : Group) (b : Bool) (f : Arm → Arm) : (g.mapArm b f).info = g.info := by
  cases b <;> rfl
@[simp] theorem Group.mapMe_info (g : Group) (f : Arm → Arm) : (g.mapMe f).info = g.info :=
  g.mapArm_info g.sel f
@[simp] theorem Group.mapArm_eff (g : Group) (b : Bool) (f : Arm → Arm) : (g.mapArm b f).eff = g.eff := by
  cases b <;> rfl
@[simp] theorem Group.mapMe_eff (g : Group) (f : Arm → Arm) : (g.mapMe f).eff = g.eff :=
  g.mapArm_eff g.sel f
@[simp] theorem Group.mapArm_loc (g : Group) (b : Bool) (f : Arm → Arm) : (g.mapArm b f).loc = g.loc := by
  cases b <;> rfl
@[simp] theorem Group.mapMe_loc (g : Group) (f : Arm → Arm) : (g.mapMe f).loc = g.loc :=
  g.mapArm_loc g.sel f
@[simp] theorem Group.mapArm_resident (g : Group) (b : Bool) (f : Arm → Arm) : (g.mapArm b f).resident = g.resident := by
  cases b <;> rfl
@[simp] theorem Group.mapMe_resident (g : Group) (f : Arm → Arm) : (g.mapMe f).resident = g.resident :=
  g.mapArm_resident g.sel f
@[simp] theorem Group.mapArm_migrating (g : Group) (b : Bool) (f : Arm → Arm) : (g.mapArm b f).migrating = g.migrating := by
  cases b <;> rfl
@[simp] theorem Group.mapArm_evicted (g : Group) (b : Bool) (f : Arm → Arm) : (g.mapArm b f).evicted = g.evicted := by
  cases b <;> rfl
@[simp] theorem Group.mapMe_migrating (g : Group) (f : Arm → Arm) : (g.mapMe f).migrating = g.migrating :=
  g.mapArm_migrating g.sel f
@[simp] theorem Group.mapMe_evicted (g : Group) (f : Arm → Arm) : (g.mapMe f).evicted = g.evicted :=
  g.mapArm_evicted g.sel f
@[simp] theorem Group.mapArm_s (g : Group) (b : Bool) (f : Arm → Arm) : (g.mapArm b f).s = g.s := by
  cases b <;> rfl
@[simp] theorem Group.mapMe_s (g : Group) (f : Arm → Arm) : (g.mapMe f).s = g.s :=
  g.mapArm_s g.sel f
@[simp] theorem Group.mapArm_sfull (g : Group) (b : Bool) (f : Arm → Arm) : (g.mapArm b f).sfull = g.sfull := by
  cases b <;> rfl
@[simp] theorem Group.mapMe_sfull (g : Group) (f : Arm → Arm) : (g.mapMe f).sfull = g.sfull :=
  g.mapArm_sfull g.sel f
@[simp] theorem Group.mapArm_v (g : Group) (b : Bool) (f : Arm → Arm) : (g.mapArm b f).v = g.v := by
  cases b <;> rfl
@[simp] theorem Group.mapMe_v (g : Group) (f : Arm → Arm) : (g.mapMe f).v = g.v :=
  g.mapArm_v g.sel f
@[simp] theorem Group.mapArm_p (g : Group) (b : Bool) (f : Arm → Arm) : (g.mapArm b f).p = g.p := by
  cases b <;> rfl
@[simp] theorem Group.mapMe_p (g : Group) (f : Arm → Arm) : (g.mapMe f).p = g.p :=
  g.mapArm_p g.sel f
@[simp] theorem Group.mapArm_pfull (g : Group) (b : Bool) (f : Arm → Arm) : (g.mapArm b f).pfull = g.pfull := by
  cases b <;> rfl
@[simp] theorem Group.mapMe_pfull (g : Group) (f : Arm → Arm) : (g.mapMe f).pfull = g.pfull :=
  g.mapArm_pfull g.sel f
@[simp] theorem Group.mapArm_sigPend (g : Group) (b : Bool) (f : Arm → Arm) : (g.mapArm b f).sigPend = g.sigPend := by
  cases b <;> rfl
@[simp] theorem Group.mapMe_sigPend (g : Group) (f : Arm → Arm) : (g.mapMe f).sigPend = g.sigPend :=
  g.mapArm_sigPend g.sel f
@[simp] theorem Group.mapArm_wakePend (g : Group) (b : Bool) (f : Arm → Arm) : (g.mapArm b f).wakePend = g.wakePend := by
  cases b <;> rfl
@[simp] theorem Group.mapMe_wakePend (g : Group) (f : Arm → Arm) : (g.mapMe f).wakePend = g.wakePend :=
  g.mapArm_wakePend g.sel f
@[simp] theorem Group.mapArm_repoch (g : Group) (b : Bool) (f : Arm → Arm) : (g.mapArm b f).repoch = g.repoch := by
  cases b <;> rfl
@[simp] theorem Group.mapMe_repoch (g : Group) (f : Arm → Arm) : (g.mapMe f).repoch = g.repoch :=
  g.mapArm_repoch g.sel f
@[simp] theorem Group.mapArm_nerr (g : Group) (b : Bool) (f : Arm → Arm) : (g.mapArm b f).nerr = g.nerr := by
  cases b <;> rfl
@[simp] theorem Group.mapMe_nerr (g : Group) (f : Arm → Arm) : (g.mapMe f).nerr = g.nerr :=
  g.mapArm_nerr g.sel f
@[simp] theorem Group.mapArm_nout (g : Group) (b : Bool) (f : Arm → Arm) : (g.mapArm b f).nout = g.nout := by
  cases b <;> rfl
@[simp] theorem Group.mapMe_nout (g : Group) (f : Arm → Arm) : (g.mapMe f).nout = g.nout :=
  g.mapArm_nout g.sel f
@[simp] theorem Group.mapArm_tcause (g : Group) (b : Bool) (f : Arm → Arm) : (g.mapArm b f).tcause = g.tcause := by
  cases b <;> rfl
@[simp] theorem Group.mapMe_tcause (g : Group) (f : Arm → Arm) : (g.mapMe f).tcause = g.tcause :=
  g.mapArm_tcause g.sel f
@[simp] theorem Group.mapArm_tpc (g : Group) (b : Bool) (f : Arm → Arm) : (g.mapArm b f).tpc = g.tpc := by
  cases b <;> rfl
@[simp] theorem Group.mapMe_tpc (g : Group) (f : Arm → Arm) : (g.mapMe f).tpc = g.tpc :=
  g.mapArm_tpc g.sel f
@[simp] theorem Group.mapArm_taddr (g : Group) (b : Bool) (f : Arm → Arm) : (g.mapArm b f).taddr = g.taddr := by
  cases b <;> rfl
@[simp] theorem Group.mapMe_taddr (g : Group) (f : Arm → Arm) : (g.mapMe f).taddr = g.taddr :=
  g.mapArm_taddr g.sel f
@[simp] theorem Group.mapArm_tinfo (g : Group) (b : Bool) (f : Arm → Arm) : (g.mapArm b f).tinfo = g.tinfo := by
  cases b <;> rfl
@[simp] theorem Group.mapMe_tinfo (g : Group) (f : Arm → Arm) : (g.mapMe f).tinfo = g.tinfo :=
  g.mapArm_tinfo g.sel f
@[simp] theorem Group.mapArm_stkB (g : Group) (b : Bool) (f : Arm → Arm) : (g.mapArm b f).stkB = g.stkB := by
  cases b <;> rfl
@[simp] theorem Group.mapMe_stkB (g : Group) (f : Arm → Arm) : (g.mapMe f).stkB = g.stkB :=
  g.mapArm_stkB g.sel f
@[simp] theorem Group.mapArm_spwin (g : Group) (b : Bool) (f : Arm → Arm) : (g.mapArm b f).spwin = g.spwin := by
  cases b <;> rfl
@[simp] theorem Group.mapMe_spwin (g : Group) (f : Arm → Arm) : (g.mapMe f).spwin = g.spwin :=
  g.mapArm_spwin g.sel f
@[simp] theorem Group.mapArm_spad (g : Group) (b : Bool) (f : Arm → Arm) : (g.mapArm b f).spad = g.spad := by
  cases b <;> rfl
@[simp] theorem Group.mapMe_spad (g : Group) (f : Arm → Arm) : (g.mapMe f).spad = g.spad :=
  g.mapArm_spad g.sel f
@[simp] theorem Group.mapArm_halted (g : Group) (b : Bool) (f : Arm → Arm) : (g.mapArm b f).halted = g.halted := by
  cases b <;> rfl
@[simp] theorem Group.mapMe_halted (g : Group) (f : Arm → Arm) : (g.mapMe f).halted = g.halted :=
  g.mapArm_halted g.sel f
@[simp] theorem Group.mapArm_faulted (g : Group) (b : Bool) (f : Arm → Arm) : (g.mapArm b f).faulted = g.faulted := by
  cases b <;> rfl
@[simp] theorem Group.mapMe_faulted (g : Group) (f : Arm → Arm) : (g.mapMe f).faulted = g.faulted :=
  g.mapArm_faulted g.sel f
@[simp] theorem Group.mapArm_hold (g : Group) (b : Bool) (f : Arm → Arm) : (g.mapArm b f).hold = g.hold := by
  cases b <;> rfl
@[simp] theorem Group.mapMe_hold (g : Group) (f : Arm → Arm) : (g.mapMe f).hold = g.hold :=
  g.mapArm_hold g.sel f
@[simp] theorem Group.mapArm_damaged (g : Group) (b : Bool) (f : Arm → Arm) : (g.mapArm b f).damaged = g.damaged := by
  cases b <;> rfl
@[simp] theorem Group.mapArm_preempted (g : Group) (b : Bool) (f : Arm → Arm) : (g.mapArm b f).preempted = g.preempted := by
  cases b <;> rfl
@[simp] theorem Group.mapMe_damaged (g : Group) (f : Arm → Arm) : (g.mapMe f).damaged = g.damaged :=
  g.mapArm_damaged g.sel f
@[simp] theorem Group.mapMe_preempted (g : Group) (f : Arm → Arm) : (g.mapMe f).preempted = g.preempted :=
  g.mapArm_preempted g.sel f
@[simp] theorem Group.mapArm_mchecks (g : Group) (b : Bool) (f : Arm → Arm) : (g.mapArm b f).mchecks = g.mchecks := by
  cases b <;> rfl
@[simp] theorem Group.mapMe_mchecks (g : Group) (f : Arm → Arm) : (g.mapMe f).mchecks = g.mchecks :=
  g.mapArm_mchecks g.sel f
@[simp] theorem Group.mapArm_bar (g : Group) (b : Bool) (f : Arm → Arm) : (g.mapArm b f).bar = g.bar := by
  cases b <;> rfl
@[simp] theorem Group.mapMe_bar (g : Group) (f : Arm → Arm) : (g.mapMe f).bar = g.bar :=
  g.mapArm_bar g.sel f
@[simp] theorem Group.mapArm_phases (g : Group) (b : Bool) (f : Arm → Arm) : (g.mapArm b f).phases = g.phases := by
  cases b <;> rfl
@[simp] theorem Group.mapMe_phases (g : Group) (f : Arm → Arm) : (g.mapMe f).phases = g.phases :=
  g.mapArm_phases g.sel f
@[simp] theorem Group.mapArm_pend (g : Group) (b : Bool) (f : Arm → Arm) : (g.mapArm b f).pend = g.pend := by
  cases b <;> rfl
@[simp] theorem Group.mapMe_pend (g : Group) (f : Arm → Arm) : (g.mapMe f).pend = g.pend :=
  g.mapArm_pend g.sel f
@[simp] theorem Group.mapArm_bad (g : Group) (b : Bool) (f : Arm → Arm) : (g.mapArm b f).bad = g.bad := by
  cases b <;> rfl
@[simp] theorem Group.mapMe_bad (g : Group) (f : Arm → Arm) : (g.mapMe f).bad = g.bad :=
  g.mapArm_bad g.sel f
@[simp] theorem Group.mapArm_recs (g : Group) (b : Bool) (f : Arm → Arm) : (g.mapArm b f).recs = g.recs := by
  cases b <;> rfl
@[simp] theorem Group.mapMe_recs (g : Group) (f : Arm → Arm) : (g.mapMe f).recs = g.recs :=
  g.mapArm_recs g.sel f
@[simp] theorem Group.mapArm_saveRec (g : Group) (b : Bool) (f : Arm → Arm) : (g.mapArm b f).saveRec = g.saveRec := by
  cases b <;> rfl
@[simp] theorem Group.mapMe_saveRec (g : Group) (f : Arm → Arm) : (g.mapMe f).saveRec = g.saveRec :=
  g.mapArm_saveRec g.sel f
@[simp] theorem Group.mapArm_exiting (g : Group) (b : Bool) (f : Arm → Arm) : (g.mapArm b f).exiting = g.exiting := by
  cases b <;> rfl
@[simp] theorem Group.mapMe_exiting (g : Group) (f : Arm → Arm) : (g.mapMe f).exiting = g.exiting :=
  g.mapArm_exiting g.sel f
@[simp] theorem Group.mapArm_sel (g : Group) (b : Bool) (f : Arm → Arm) : (g.mapArm b f).sel = g.sel := by
  cases b <;> rfl
@[simp] theorem Group.mapMe_sel (g : Group) (f : Arm → Arm) : (g.mapMe f).sel = g.sel :=
  g.mapArm_sel g.sel f

@[simp] theorem Group.arm_mapArm_same (g : Group) (b : Bool) (f : Arm → Arm) : (g.mapArm b f).arm b = f (g.arm b) := by
  cases b <;> rfl
@[simp] theorem Group.arm_mapArm_other (g : Group) (b : Bool) (f : Arm → Arm) :
    (g.mapArm b f).arm (!b) = g.arm (!b) := by
  cases b <;> rfl
@[simp] theorem Group.me_mapMe (g : Group) (f : Arm → Arm) : (g.mapMe f).me = f g.me := by
  unfold Group.mapMe Group.me; rw [Group.mapArm_sel]; exact Group.arm_mapArm_same g g.sel f
@[simp] theorem Group.other_mapMe (g : Group) (f : Arm → Arm) : (g.mapMe f).arm (!g.sel) = g.arm (!g.sel) :=
  Group.arm_mapArm_other g g.sel f

/-! ### Registers of a group -/

@[simp] theorem Group.setFull_tid (g : Group) (r : RegId) (b : Bool) : (g.setFull r b).tid = g.tid := by
  cases r <;> simp [Group.setFull]
  split <;> rfl
@[simp] theorem Group.setFull_seq (g : Group) (r : RegId) (b : Bool) : (g.setFull r b).seq = g.seq := by
  cases r <;> simp [Group.setFull]
  split <;> rfl
@[simp] theorem Group.setFull_name (g : Group) (r : RegId) (b : Bool) : (g.setFull r b).name = g.name := by
  cases r <;> simp [Group.setFull]
  split <;> rfl
@[simp] theorem Group.setFull_region (g : Group) (r : RegId) (b : Bool) : (g.setFull r b).region = g.region := by
  cases r <;> simp [Group.setFull]
  split <;> rfl
@[simp] theorem Group.setFull_rank (g : Group) (r : RegId) (b : Bool) : (g.setFull r b).rank = g.rank := by
  cases r <;> simp [Group.setFull]
  split <;> rfl
@[simp] theorem Group.setFull_ngroups (g : Group) (r : RegId) (b : Bool) : (g.setFull r b).ngroups = g.ngroups := by
  cases r <;> simp [Group.setFull]
  split <;> rfl
@[simp] theorem Group.setFull_launchId (g : Group) (r : RegId) (b : Bool) : (g.setFull r b).launchId = g.launchId := by
  cases r <;> simp [Group.setFull]
  split <;> rfl
@[simp] theorem Group.setFull_nbidx (g : Group) (r : RegId) (b : Bool) : (g.setFull r b).nbidx = g.nbidx := by
  cases r <;> simp [Group.setFull]
  split <;> rfl
@[simp] theorem Group.setFull_vregs (g : Group) (r : RegId) (b : Bool) : (g.setFull r b).vregs = g.vregs := by
  cases r <;> simp [Group.setFull]
  split <;> rfl
@[simp] theorem Group.setFull_lastLanes (g : Group) (r : RegId) (b : Bool) : (g.setFull r b).lastLanes = g.lastLanes := by
  cases r <;> simp [Group.setFull]
  split <;> rfl
@[simp] theorem Group.setFull_spadKiB (g : Group) (r : RegId) (b : Bool) : (g.setFull r b).spadKiB = g.spadKiB := by
  cases r <;> simp [Group.setFull]
  split <;> rfl
@[simp] theorem Group.setFull_info (g : Group) (r : RegId) (b : Bool) : (g.setFull r b).info = g.info := by
  cases r <;> simp [Group.setFull]
  split <;> rfl
@[simp] theorem Group.setFull_eff (g : Group) (r : RegId) (b : Bool) : (g.setFull r b).eff = g.eff := by
  cases r <;> simp [Group.setFull]
  split <;> rfl
@[simp] theorem Group.setFull_loc (g : Group) (r : RegId) (b : Bool) : (g.setFull r b).loc = g.loc := by
  cases r <;> simp [Group.setFull]
  split <;> rfl
@[simp] theorem Group.setFull_resident (g : Group) (r : RegId) (b : Bool) : (g.setFull r b).resident = g.resident := by
  cases r <;> simp [Group.setFull]
  split <;> rfl
@[simp] theorem Group.setFull_migrating (g : Group) (r : RegId) (b : Bool) : (g.setFull r b).migrating = g.migrating := by
  cases r <;> simp [Group.setFull]
  split <;> rfl
@[simp] theorem Group.setFull_evicted (g : Group) (r : RegId) (b : Bool) : (g.setFull r b).evicted = g.evicted := by
  cases r <;> simp [Group.setFull]
  split <;> rfl
@[simp] theorem Group.setFull_sigPend (g : Group) (r : RegId) (b : Bool) : (g.setFull r b).sigPend = g.sigPend := by
  cases r <;> simp [Group.setFull]
  split <;> rfl
@[simp] theorem Group.setFull_wakePend (g : Group) (r : RegId) (b : Bool) : (g.setFull r b).wakePend = g.wakePend := by
  cases r <;> simp [Group.setFull]
  split <;> rfl
@[simp] theorem Group.setFull_repoch (g : Group) (r : RegId) (b : Bool) : (g.setFull r b).repoch = g.repoch := by
  cases r <;> simp [Group.setFull]
  split <;> rfl
@[simp] theorem Group.setFull_nerr (g : Group) (r : RegId) (b : Bool) : (g.setFull r b).nerr = g.nerr := by
  cases r <;> simp [Group.setFull]
  split <;> rfl
@[simp] theorem Group.setFull_nout (g : Group) (r : RegId) (b : Bool) : (g.setFull r b).nout = g.nout := by
  cases r <;> simp [Group.setFull]
  split <;> rfl
@[simp] theorem Group.setFull_tcause (g : Group) (r : RegId) (b : Bool) : (g.setFull r b).tcause = g.tcause := by
  cases r <;> simp [Group.setFull]
  split <;> rfl
@[simp] theorem Group.setFull_tpc (g : Group) (r : RegId) (b : Bool) : (g.setFull r b).tpc = g.tpc := by
  cases r <;> simp [Group.setFull]
  split <;> rfl
@[simp] theorem Group.setFull_taddr (g : Group) (r : RegId) (b : Bool) : (g.setFull r b).taddr = g.taddr := by
  cases r <;> simp [Group.setFull]
  split <;> rfl
@[simp] theorem Group.setFull_tinfo (g : Group) (r : RegId) (b : Bool) : (g.setFull r b).tinfo = g.tinfo := by
  cases r <;> simp [Group.setFull]
  split <;> rfl
@[simp] theorem Group.setFull_stkB (g : Group) (r : RegId) (b : Bool) : (g.setFull r b).stkB = g.stkB := by
  cases r <;> simp [Group.setFull]
  split <;> rfl
@[simp] theorem Group.setFull_spwin (g : Group) (r : RegId) (b : Bool) : (g.setFull r b).spwin = g.spwin := by
  cases r <;> simp [Group.setFull]
  split <;> rfl
@[simp] theorem Group.setFull_spad (g : Group) (r : RegId) (b : Bool) : (g.setFull r b).spad = g.spad := by
  cases r <;> simp [Group.setFull]
  split <;> rfl
@[simp] theorem Group.setFull_halted (g : Group) (r : RegId) (b : Bool) : (g.setFull r b).halted = g.halted := by
  cases r <;> simp [Group.setFull]
  split <;> rfl
@[simp] theorem Group.setFull_faulted (g : Group) (r : RegId) (b : Bool) : (g.setFull r b).faulted = g.faulted := by
  cases r <;> simp [Group.setFull]
  split <;> rfl
@[simp] theorem Group.setFull_hold (g : Group) (r : RegId) (b : Bool) : (g.setFull r b).hold = g.hold := by
  cases r <;> simp [Group.setFull]
  split <;> rfl
@[simp] theorem Group.setFull_damaged (g : Group) (r : RegId) (b : Bool) : (g.setFull r b).damaged = g.damaged := by
  cases r <;> simp [Group.setFull]
  split <;> rfl
@[simp] theorem Group.setFull_preempted (g : Group) (r : RegId) (b : Bool) : (g.setFull r b).preempted = g.preempted := by
  cases r <;> simp [Group.setFull]
  split <;> rfl
@[simp] theorem Group.setFull_mchecks (g : Group) (r : RegId) (b : Bool) : (g.setFull r b).mchecks = g.mchecks := by
  cases r <;> simp [Group.setFull]
  split <;> rfl
@[simp] theorem Group.setFull_bar (g : Group) (r : RegId) (b : Bool) : (g.setFull r b).bar = g.bar := by
  cases r <;> simp [Group.setFull]
  split <;> rfl
@[simp] theorem Group.setFull_phases (g : Group) (r : RegId) (b : Bool) : (g.setFull r b).phases = g.phases := by
  cases r <;> simp [Group.setFull]
  split <;> rfl
@[simp] theorem Group.setFull_pend (g : Group) (r : RegId) (b : Bool) : (g.setFull r b).pend = g.pend := by
  cases r <;> simp [Group.setFull]
  split <;> rfl
@[simp] theorem Group.setFull_recs (g : Group) (r : RegId) (b : Bool) : (g.setFull r b).recs = g.recs := by
  cases r <;> simp [Group.setFull]
  split <;> rfl
@[simp] theorem Group.setFull_saveRec (g : Group) (r : RegId) (b : Bool) : (g.setFull r b).saveRec = g.saveRec := by
  cases r <;> simp [Group.setFull]
  split <;> rfl
@[simp] theorem Group.setFull_exiting (g : Group) (r : RegId) (b : Bool) : (g.setFull r b).exiting = g.exiting := by
  cases r <;> simp [Group.setFull]
  split <;> rfl
@[simp] theorem Group.setFull_sel (g : Group) (r : RegId) (b : Bool) : (g.setFull r b).sel = g.sel := by
  cases r <;> simp [Group.setFull]
  split <;> rfl
@[simp] theorem Group.put32_tid (g : Group) (r : RegId) (x : W32) : (g.put32 r x).tid = g.tid := by
  cases r <;> simp [Group.put32, Group.clearBad]
@[simp] theorem Group.put32_seq (g : Group) (r : RegId) (x : W32) : (g.put32 r x).seq = g.seq := by
  cases r <;> simp [Group.put32, Group.clearBad]
@[simp] theorem Group.put32_name (g : Group) (r : RegId) (x : W32) : (g.put32 r x).name = g.name := by
  cases r <;> simp [Group.put32, Group.clearBad]
@[simp] theorem Group.put32_region (g : Group) (r : RegId) (x : W32) : (g.put32 r x).region = g.region := by
  cases r <;> simp [Group.put32, Group.clearBad]
@[simp] theorem Group.put32_rank (g : Group) (r : RegId) (x : W32) : (g.put32 r x).rank = g.rank := by
  cases r <;> simp [Group.put32, Group.clearBad]
@[simp] theorem Group.put32_ngroups (g : Group) (r : RegId) (x : W32) : (g.put32 r x).ngroups = g.ngroups := by
  cases r <;> simp [Group.put32, Group.clearBad]
@[simp] theorem Group.put32_launchId (g : Group) (r : RegId) (x : W32) : (g.put32 r x).launchId = g.launchId := by
  cases r <;> simp [Group.put32, Group.clearBad]
@[simp] theorem Group.put32_nbidx (g : Group) (r : RegId) (x : W32) : (g.put32 r x).nbidx = g.nbidx := by
  cases r <;> simp [Group.put32, Group.clearBad]
@[simp] theorem Group.put32_vregs (g : Group) (r : RegId) (x : W32) : (g.put32 r x).vregs = g.vregs := by
  cases r <;> simp [Group.put32, Group.clearBad]
@[simp] theorem Group.put32_lastLanes (g : Group) (r : RegId) (x : W32) : (g.put32 r x).lastLanes = g.lastLanes := by
  cases r <;> simp [Group.put32, Group.clearBad]
@[simp] theorem Group.put32_spadKiB (g : Group) (r : RegId) (x : W32) : (g.put32 r x).spadKiB = g.spadKiB := by
  cases r <;> simp [Group.put32, Group.clearBad]
@[simp] theorem Group.put32_info (g : Group) (r : RegId) (x : W32) : (g.put32 r x).info = g.info := by
  cases r <;> simp [Group.put32, Group.clearBad]
@[simp] theorem Group.put32_eff (g : Group) (r : RegId) (x : W32) : (g.put32 r x).eff = g.eff := by
  cases r <;> simp [Group.put32, Group.clearBad]
@[simp] theorem Group.put32_loc (g : Group) (r : RegId) (x : W32) : (g.put32 r x).loc = g.loc := by
  cases r <;> simp [Group.put32, Group.clearBad]
@[simp] theorem Group.put32_resident (g : Group) (r : RegId) (x : W32) : (g.put32 r x).resident = g.resident := by
  cases r <;> simp [Group.put32, Group.clearBad]
@[simp] theorem Group.put32_migrating (g : Group) (r : RegId) (x : W32) : (g.put32 r x).migrating = g.migrating := by
  cases r <;> simp [Group.put32, Group.clearBad]
@[simp] theorem Group.put32_evicted (g : Group) (r : RegId) (x : W32) : (g.put32 r x).evicted = g.evicted := by
  cases r <;> simp [Group.put32, Group.clearBad]
@[simp] theorem Group.put32_sigPend (g : Group) (r : RegId) (x : W32) : (g.put32 r x).sigPend = g.sigPend := by
  cases r <;> simp [Group.put32, Group.clearBad]
@[simp] theorem Group.put32_wakePend (g : Group) (r : RegId) (x : W32) : (g.put32 r x).wakePend = g.wakePend := by
  cases r <;> simp [Group.put32, Group.clearBad]
@[simp] theorem Group.put32_repoch (g : Group) (r : RegId) (x : W32) : (g.put32 r x).repoch = g.repoch := by
  cases r <;> simp [Group.put32, Group.clearBad]
@[simp] theorem Group.put32_nerr (g : Group) (r : RegId) (x : W32) : (g.put32 r x).nerr = g.nerr := by
  cases r <;> simp [Group.put32, Group.clearBad]
@[simp] theorem Group.put32_nout (g : Group) (r : RegId) (x : W32) : (g.put32 r x).nout = g.nout := by
  cases r <;> simp [Group.put32, Group.clearBad]
@[simp] theorem Group.put32_tcause (g : Group) (r : RegId) (x : W32) : (g.put32 r x).tcause = g.tcause := by
  cases r <;> simp [Group.put32, Group.clearBad]
@[simp] theorem Group.put32_tpc (g : Group) (r : RegId) (x : W32) : (g.put32 r x).tpc = g.tpc := by
  cases r <;> simp [Group.put32, Group.clearBad]
@[simp] theorem Group.put32_taddr (g : Group) (r : RegId) (x : W32) : (g.put32 r x).taddr = g.taddr := by
  cases r <;> simp [Group.put32, Group.clearBad]
@[simp] theorem Group.put32_tinfo (g : Group) (r : RegId) (x : W32) : (g.put32 r x).tinfo = g.tinfo := by
  cases r <;> simp [Group.put32, Group.clearBad]
@[simp] theorem Group.put32_stkB (g : Group) (r : RegId) (x : W32) : (g.put32 r x).stkB = g.stkB := by
  cases r <;> simp [Group.put32, Group.clearBad]
@[simp] theorem Group.put32_spwin (g : Group) (r : RegId) (x : W32) : (g.put32 r x).spwin = g.spwin := by
  cases r <;> simp [Group.put32, Group.clearBad]
@[simp] theorem Group.put32_spad (g : Group) (r : RegId) (x : W32) : (g.put32 r x).spad = g.spad := by
  cases r <;> simp [Group.put32, Group.clearBad]
@[simp] theorem Group.put32_halted (g : Group) (r : RegId) (x : W32) : (g.put32 r x).halted = g.halted := by
  cases r <;> simp [Group.put32, Group.clearBad]
@[simp] theorem Group.put32_faulted (g : Group) (r : RegId) (x : W32) : (g.put32 r x).faulted = g.faulted := by
  cases r <;> simp [Group.put32, Group.clearBad]
@[simp] theorem Group.put32_hold (g : Group) (r : RegId) (x : W32) : (g.put32 r x).hold = g.hold := by
  cases r <;> simp [Group.put32, Group.clearBad]
@[simp] theorem Group.put32_damaged (g : Group) (r : RegId) (x : W32) : (g.put32 r x).damaged = g.damaged := by
  cases r <;> simp [Group.put32, Group.clearBad]
@[simp] theorem Group.put32_preempted (g : Group) (r : RegId) (x : W32) : (g.put32 r x).preempted = g.preempted := by
  cases r <;> simp [Group.put32, Group.clearBad]
@[simp] theorem Group.put32_mchecks (g : Group) (r : RegId) (x : W32) : (g.put32 r x).mchecks = g.mchecks := by
  cases r <;> simp [Group.put32, Group.clearBad]
@[simp] theorem Group.put32_bar (g : Group) (r : RegId) (x : W32) : (g.put32 r x).bar = g.bar := by
  cases r <;> simp [Group.put32, Group.clearBad]
@[simp] theorem Group.put32_phases (g : Group) (r : RegId) (x : W32) : (g.put32 r x).phases = g.phases := by
  cases r <;> simp [Group.put32, Group.clearBad]
@[simp] theorem Group.put32_pend (g : Group) (r : RegId) (x : W32) : (g.put32 r x).pend = g.pend := by
  cases r <;> simp [Group.put32, Group.clearBad]
@[simp] theorem Group.put32_recs (g : Group) (r : RegId) (x : W32) : (g.put32 r x).recs = g.recs := by
  cases r <;> simp [Group.put32, Group.clearBad]
@[simp] theorem Group.put32_saveRec (g : Group) (r : RegId) (x : W32) : (g.put32 r x).saveRec = g.saveRec := by
  cases r <;> simp [Group.put32, Group.clearBad]
@[simp] theorem Group.put32_exiting (g : Group) (r : RegId) (x : W32) : (g.put32 r x).exiting = g.exiting := by
  cases r <;> simp [Group.put32, Group.clearBad]
@[simp] theorem Group.put32_sel (g : Group) (r : RegId) (x : W32) : (g.put32 r x).sel = g.sel := by
  cases r <;> simp [Group.put32, Group.clearBad]
@[simp] theorem Group.putV_tid (g : Group) (n : Nat) (m : Mask) (xs : List W32) (t : Nat) :
    (g.putV n m xs t).tid = g.tid := rfl
@[simp] theorem Group.putV_seq (g : Group) (n : Nat) (m : Mask) (xs : List W32) (t : Nat) :
    (g.putV n m xs t).seq = g.seq := rfl
@[simp] theorem Group.putV_name (g : Group) (n : Nat) (m : Mask) (xs : List W32) (t : Nat) :
    (g.putV n m xs t).name = g.name := rfl
@[simp] theorem Group.putV_region (g : Group) (n : Nat) (m : Mask) (xs : List W32) (t : Nat) :
    (g.putV n m xs t).region = g.region := rfl
@[simp] theorem Group.putV_rank (g : Group) (n : Nat) (m : Mask) (xs : List W32) (t : Nat) :
    (g.putV n m xs t).rank = g.rank := rfl
@[simp] theorem Group.putV_ngroups (g : Group) (n : Nat) (m : Mask) (xs : List W32) (t : Nat) :
    (g.putV n m xs t).ngroups = g.ngroups := rfl
@[simp] theorem Group.putV_launchId (g : Group) (n : Nat) (m : Mask) (xs : List W32) (t : Nat) :
    (g.putV n m xs t).launchId = g.launchId := rfl
@[simp] theorem Group.putV_nbidx (g : Group) (n : Nat) (m : Mask) (xs : List W32) (t : Nat) :
    (g.putV n m xs t).nbidx = g.nbidx := rfl
@[simp] theorem Group.putV_vregs (g : Group) (n : Nat) (m : Mask) (xs : List W32) (t : Nat) :
    (g.putV n m xs t).vregs = g.vregs := rfl
@[simp] theorem Group.putV_lastLanes (g : Group) (n : Nat) (m : Mask) (xs : List W32) (t : Nat) :
    (g.putV n m xs t).lastLanes = g.lastLanes := rfl
@[simp] theorem Group.putV_spadKiB (g : Group) (n : Nat) (m : Mask) (xs : List W32) (t : Nat) :
    (g.putV n m xs t).spadKiB = g.spadKiB := rfl
@[simp] theorem Group.putV_info (g : Group) (n : Nat) (m : Mask) (xs : List W32) (t : Nat) :
    (g.putV n m xs t).info = g.info := rfl
@[simp] theorem Group.putV_eff (g : Group) (n : Nat) (m : Mask) (xs : List W32) (t : Nat) :
    (g.putV n m xs t).eff = g.eff := rfl
@[simp] theorem Group.putV_loc (g : Group) (n : Nat) (m : Mask) (xs : List W32) (t : Nat) :
    (g.putV n m xs t).loc = g.loc := rfl
@[simp] theorem Group.putV_resident (g : Group) (n : Nat) (m : Mask) (xs : List W32) (t : Nat) :
    (g.putV n m xs t).resident = g.resident := rfl
@[simp] theorem Group.putV_migrating (g : Group) (n : Nat) (m : Mask) (xs : List W32) (t : Nat) :
    (g.putV n m xs t).migrating = g.migrating := rfl
@[simp] theorem Group.putV_evicted (g : Group) (n : Nat) (m : Mask) (xs : List W32) (t : Nat) :
    (g.putV n m xs t).evicted = g.evicted := rfl
@[simp] theorem Group.putV_sigPend (g : Group) (n : Nat) (m : Mask) (xs : List W32) (t : Nat) :
    (g.putV n m xs t).sigPend = g.sigPend := rfl
@[simp] theorem Group.putV_wakePend (g : Group) (n : Nat) (m : Mask) (xs : List W32) (t : Nat) :
    (g.putV n m xs t).wakePend = g.wakePend := rfl
@[simp] theorem Group.putV_repoch (g : Group) (n : Nat) (m : Mask) (xs : List W32) (t : Nat) :
    (g.putV n m xs t).repoch = g.repoch := rfl
@[simp] theorem Group.putV_nerr (g : Group) (n : Nat) (m : Mask) (xs : List W32) (t : Nat) :
    (g.putV n m xs t).nerr = g.nerr := rfl
@[simp] theorem Group.putV_nout (g : Group) (n : Nat) (m : Mask) (xs : List W32) (t : Nat) :
    (g.putV n m xs t).nout = g.nout := rfl
@[simp] theorem Group.putV_tcause (g : Group) (n : Nat) (m : Mask) (xs : List W32) (t : Nat) :
    (g.putV n m xs t).tcause = g.tcause := rfl
@[simp] theorem Group.putV_tpc (g : Group) (n : Nat) (m : Mask) (xs : List W32) (t : Nat) :
    (g.putV n m xs t).tpc = g.tpc := rfl
@[simp] theorem Group.putV_taddr (g : Group) (n : Nat) (m : Mask) (xs : List W32) (t : Nat) :
    (g.putV n m xs t).taddr = g.taddr := rfl
@[simp] theorem Group.putV_tinfo (g : Group) (n : Nat) (m : Mask) (xs : List W32) (t : Nat) :
    (g.putV n m xs t).tinfo = g.tinfo := rfl
@[simp] theorem Group.putV_stkB (g : Group) (n : Nat) (m : Mask) (xs : List W32) (t : Nat) :
    (g.putV n m xs t).stkB = g.stkB := rfl
@[simp] theorem Group.putV_spwin (g : Group) (n : Nat) (m : Mask) (xs : List W32) (t : Nat) :
    (g.putV n m xs t).spwin = g.spwin := rfl
@[simp] theorem Group.putV_spad (g : Group) (n : Nat) (m : Mask) (xs : List W32) (t : Nat) :
    (g.putV n m xs t).spad = g.spad := rfl
@[simp] theorem Group.putV_halted (g : Group) (n : Nat) (m : Mask) (xs : List W32) (t : Nat) :
    (g.putV n m xs t).halted = g.halted := rfl
@[simp] theorem Group.putV_faulted (g : Group) (n : Nat) (m : Mask) (xs : List W32) (t : Nat) :
    (g.putV n m xs t).faulted = g.faulted := rfl
@[simp] theorem Group.putV_hold (g : Group) (n : Nat) (m : Mask) (xs : List W32) (t : Nat) :
    (g.putV n m xs t).hold = g.hold := rfl
@[simp] theorem Group.putV_damaged (g : Group) (n : Nat) (m : Mask) (xs : List W32) (t : Nat) :
    (g.putV n m xs t).damaged = g.damaged := rfl
@[simp] theorem Group.putV_preempted (g : Group) (n : Nat) (m : Mask) (xs : List W32) (t : Nat) :
    (g.putV n m xs t).preempted = g.preempted := rfl
@[simp] theorem Group.putV_mchecks (g : Group) (n : Nat) (m : Mask) (xs : List W32) (t : Nat) :
    (g.putV n m xs t).mchecks = g.mchecks := rfl
@[simp] theorem Group.putV_bar (g : Group) (n : Nat) (m : Mask) (xs : List W32) (t : Nat) :
    (g.putV n m xs t).bar = g.bar := rfl
@[simp] theorem Group.putV_phases (g : Group) (n : Nat) (m : Mask) (xs : List W32) (t : Nat) :
    (g.putV n m xs t).phases = g.phases := rfl
@[simp] theorem Group.putV_pend (g : Group) (n : Nat) (m : Mask) (xs : List W32) (t : Nat) :
    (g.putV n m xs t).pend = g.pend := rfl
@[simp] theorem Group.putV_recs (g : Group) (n : Nat) (m : Mask) (xs : List W32) (t : Nat) :
    (g.putV n m xs t).recs = g.recs := rfl
@[simp] theorem Group.putV_saveRec (g : Group) (n : Nat) (m : Mask) (xs : List W32) (t : Nat) :
    (g.putV n m xs t).saveRec = g.saveRec := rfl
@[simp] theorem Group.putV_exiting (g : Group) (n : Nat) (m : Mask) (xs : List W32) (t : Nat) :
    (g.putV n m xs t).exiting = g.exiting := rfl
@[simp] theorem Group.putV_sel (g : Group) (n : Nat) (m : Mask) (xs : List W32) (t : Nat) :
    (g.putV n m xs t).sel = g.sel := rfl

end Sys2Proof.Machine
end

