-- ==== Sys2Proof/Laws/Issue.lean ====
section
/-!
SUPPORT. What the issue of an instruction can do, said once: go, wait or trap; how it ends; what the end leaves.
-/

namespace Sys2Proof.Machine

/-! ### The end of an instruction -/

/-- With no step and no breakpoint passed, fradb does nothing at an instruction's end. -/
theorem State.debugStop_off {s : State} (h1 : s.fradb.stepping = []) (h2 : s.fradb.passing = []) :
    s.debugStop = s := by
  unfold State.debugStop
  rw [h1, h2]
  rfl

theorem State.trapped_off {s : State} (h1 : s.fradb.stepping = []) (h2 : s.fradb.passing = [])
    (h3 : s.cur.me.owes = []) (t : Trap) :
    s.trapped t = (s.modCur fun g => g.mapMe Arm.ready).takeTrap t := by
  unfold State.trapped
  rw [State.debugStop_off (by simpa using h1) (by simpa using h2)]
  simp [State.modCur, h3]

theorem State.finish_off {s : State} (h1 : s.fradb.stepping = []) (h2 : s.fradb.passing = []) (p : Pre) :
    s.finish p = s.modCur fun g => (g.emptyMail p).mapMe Arm.ready := by
  unfold State.finish
  rw [State.debugStop_off (by simpa using h1) (by simpa using h2)]

/-! ### Which way the issue goes -/

/-- An issue always answers a next state. -/
theorem issue_eq (len : Nat) (p : Pre) (body : State → Eff) (s : State) :
    issue len p body s = .next (issueState len p body s) := rfl

/-- The checks pass: the instruction's own effect. -/
theorem issueState_go {len : Nat} {p : Pre} {body : State → Eff} {s : State}
    (hr : s.cur.me.replay = false) (hv : p.verdict s = .go) :
    issueState len p body s = (body s).apply len p := by
  simp [issueState, hr, hv]

/-- A check fails: its trap. -/
theorem issueState_trap {len : Nat} {p : Pre} {body : State → Eff} {s : State} {t : Trap}
    (hr : s.cur.me.replay = false) (hv : p.verdict s = .trap t) :
    issueState len p body s = s.trapped t := by
  simp [issueState, hr, hv]

/-- A register is empty: the arm blocks on it. -/
theorem issueState_wait {len : Nat} {p : Pre} {body : State → Eff} {s : State} {r : RegId} {w : Bool}
    (hr : s.cur.me.replay = false) (hv : p.verdict s = .wait r w) :
    issueState len p body s = s.block r w := by
  simp [issueState, hr, hv]

/-- A resumed instruction meets only its own effect. -/
theorem issueState_replay {len : Nat} {p : Pre} {body : State → Eff} {s : State}
    (hr : s.cur.me.replay = true) :
    issueState len p body s = ((body s).unpark p).apply len p := by
  simp [issueState, hr]

/-- All the ways an issue can go. -/
theorem issueState_cases (len : Nat) (p : Pre) (body : State → Eff) (s : State) :
    (s.cur.me.replay = true ∧ issueState len p body s = ((body s).unpark p).apply len p) ∨
    (s.cur.me.replay = false ∧ p.verdict s = .go ∧ issueState len p body s = (body s).apply len p) ∨
    (∃ t, s.cur.me.replay = false ∧ p.verdict s = .trap t ∧ issueState len p body s = s.trapped t) ∨
    (∃ r w, s.cur.me.replay = false ∧ p.verdict s = .wait r w ∧ issueState len p body s = s.block r w) := by
  cases hr : s.cur.me.replay with
  | true => exact .inl ⟨rfl, issueState_replay hr⟩
  | false =>
    cases hv : p.verdict s with
    | go => exact .inr (.inl ⟨rfl, rfl, issueState_go hr hv⟩)
    | trap t => exact .inr (.inr (.inl ⟨t, rfl, rfl, issueState_trap hr hv⟩))
    | wait r w => exact .inr (.inr (.inr ⟨r, w, rfl, rfl, issueState_wait hr hv⟩))

/-- Sources all full and no destination with a producer outstanding pass step 6. -/
theorem Pre.sources_go {p : Pre} {g : Group} (hs : ∀ x ∈ p.srcs, g.full x.reg = true)
    (hd : ∀ r ∈ p.dests, r ∉ g.pend) : p.sources g = .go := by
  have h1 : p.srcs.find? (fun x => !g.full x.reg) = none := by
    rw [List.find?_eq_none]
    intro x hx
    simp [hs x hx]
  have h2 : p.dests.find? (fun r => g.pend.contains r && !g.full r) = none := by
    rw [List.find?_eq_none]
    intro r hr
    simp [hd r hr]
  simp only [Pre.sources, h1, h2]

/-- With no damaged register no source is one. -/
theorem Pre.badSource_none {g : Group} (h : g.bad = []) (p : Pre) : p.badSource g = none := by
  simp [Pre.badSource, h]

/-- The checks that are decided by their parts. -/
theorem Pre.verdict_go {p : Pre} {s : State} (he : p.early s = none) (hm : p.modeCheck s = none)
    (hs : ∀ x ∈ p.srcs, s.cur.full x.reg = true) (hd : ∀ r ∈ p.dests, r ∉ s.cur.pend)
    (ht : p.tags = none) (hb : s.cur.bad = []) : p.verdict s = .go := by
  simp [Pre.verdict, he, hm, Pre.sources_go hs hd, ht, Pre.badSource_none hb]

/-- An issue whose checks pass and whose effect is complete. -/
theorem issue_done {len : Nat} {p : Pre} {body : State → Eff} {s t : State} (hr : s.cur.me.replay = false)
    (hv : p.verdict s = .go) (hb : body s = .done t) :
    issue len p body s = .next ((t.finish p).advance len) := by
  rw [issue_eq, issueState_go hr hv, hb]
  rfl

/-- An issue whose checks pass and that completes with no effect: no mailbox register is emptied (R428). -/
theorem issue_idle {len : Nat} {p : Pre} {body : State → Eff} {s t : State} (hr : s.cur.me.replay = false)
    (hv : p.verdict s = .go) (hb : body s = .idle t) :
    issue len p body s = .next ((t.finish {}).advance len) := by
  rw [issue_eq, issueState_go hr hv, hb]
  rfl

/-- An issue whose checks pass and whose effect traps. -/
theorem issue_trap {len : Nat} {p : Pre} {body : State → Eff} {s t : State} {x : Trap}
    (hr : s.cur.me.replay = false) (hv : p.verdict s = .go) (hb : body s = .trap t x) :
    issue len p body s = .next (t.trapped x) := by
  rw [issue_eq, issueState_go hr hv, hb]
  rfl

/-- Emptying mailbox sources changes full/empty bits and nothing else. -/
theorem Group.emptyMail_eq (g : Group) (p : Pre) : ∃ x, g.emptyMail p = { g with sfull := x } := by
  unfold Group.emptyMail
  suffices h : ∀ (l : List Src) (g : Group), ∃ x,
      l.foldl (fun g x => match x.reg with
        | .s n => if 32 ≤ n ∧ n < 40 ∧ !p.dests.contains (.s n) then g.setFull (.s n) false else g
        | _ => g) g = { g with sfull := x } from h p.srcs g
  intro l
  induction l with
  | nil => exact fun g => ⟨g.sfull, rfl⟩
  | cons a l ih =>
    intro g
    rw [List.foldl_cons]
    obtain ⟨x, hx⟩ := ih (match a.reg with
      | .s n => if 32 ≤ n ∧ n < 40 ∧ !p.dests.contains (.s n) then g.setFull (.s n) false else g
      | _ => g)
    refine ⟨x, hx.trans ?_⟩
    cases a.reg with
    | s n => dsimp only; split <;> rfl
    | b armB n => rfl
    | v n => rfl
    | p n => rfl

/-- No source in the mailbox: nothing is emptied. -/
theorem Group.emptyMail_none {g : Group} {p : Pre} (h : ∀ x ∈ p.srcs, ∀ n, x.reg = .s n → ¬ (32 ≤ n ∧ n < 40)) :
    g.emptyMail p = g := by
  unfold Group.emptyMail
  suffices H : ∀ (l : List Src), (∀ x ∈ l, ∀ n, x.reg = .s n → ¬ (32 ≤ n ∧ n < 40)) →
      l.foldl (fun g x => match x.reg with
        | .s n => if 32 ≤ n ∧ n < 40 ∧ !p.dests.contains (.s n) then g.setFull (.s n) false else g
        | _ => g) g = g from H p.srcs h
  intro l
  induction l with
  | nil => exact fun _ => rfl
  | cons a l ih =>
    intro hl
    rw [List.foldl_cons]
    have ha := hl a (List.mem_cons_self ..)
    have hrest := ih fun x hx => hl x (List.mem_cons_of_mem _ hx)
    obtain ⟨reg, e⟩ := a
    cases reg with
    | s n =>
      have := ha n rfl
      have h' : ¬ (32 ≤ n ∧ n < 40 ∧ (!p.dests.contains (.s n)) = true) := fun x => this ⟨x.1, x.2.1⟩
      simp only [h', if_false]
      exact hrest
    | b armB n => exact hrest
    | v n => exact hrest
    | p n => exact hrest

end Sys2Proof.Machine
end

