-- ==== Sys2Proof/Laws/Registers.lean ====
section
/-!
SUPPORT. Laws of registers: a write reads back, leaves every other register, and sets the full bit; how the
writes of an instruction compose into its frame.
-/

namespace Sys2Proof.Machine

/-! ### Vectors -/

theorem vget_vset_same {α : Type} {n : Nat} (v : Vector α n) {i : Nat} (h : i < n) (x d : α) :
    vget (vset v i x) i d = x := by
  simp [vget, vset, List.getD, h]

theorem vget_vset_other {α : Type} {n : Nat} (v : Vector α n) {i j : Nat} (h : j ≠ i) (x d : α) :
    vget (vset v i x) j d = vget v j d := by
  simp [vget, vset, List.getD, h.symm]

theorem vget_tab {α : Type} {n : Nat} (f : Nat → α) {i : Nat} (h : i < n) (d : α) : vget (tab n f) i d = f i := by
  simp [vget, tab, List.getD, h]

theorem bit_getLsbD {w : Nat} (n m : Nat) (h : m < w) : (BitVec.ofNat w (2 ^ n)).getLsbD m = decide (n = m) := by
  rw [BitVec.getLsbD_ofNat, Nat.testBit_two_pow]
  simp [h]

theorem setBit_same {w : Nat} (x : BitVec w) {n : Nat} (h : n < w) (b : Bool) : (setBit x n b).getLsbD n = b := by
  have e := bit_getLsbD (w := w) n n h
  cases b
  · rw [setBit, if_neg (by decide), BitVec.getLsbD_and, BitVec.getLsbD_not, e]; simp
  · rw [setBit, if_pos rfl, BitVec.getLsbD_or, e]; simp

theorem setBit_other {w : Nat} (x : BitVec w) {n m : Nat} (h : m ≠ n) (b : Bool) :
    (setBit x n b).getLsbD m = x.getLsbD m := by
  by_cases hm : m < w
  · have e := bit_getLsbD (w := w) n m hm
    have e' : (BitVec.ofNat w (2 ^ n)).getLsbD m = false := by rw [e]; simpa using fun x => h x.symm
    cases b
    · rw [setBit, if_neg (by decide), BitVec.getLsbD_and, BitVec.getLsbD_not, e']; simp [hm]
    · rw [setBit, if_pos rfl, BitVec.getLsbD_or, e']; simp
  · rw [BitVec.getLsbD_of_ge _ _ (Nat.le_of_not_lt hm), BitVec.getLsbD_of_ge _ _ (Nat.le_of_not_lt hm)]

/-! ### One register written -/

@[simp] theorem Group.mapArm_arm_same (g : Group) (b : Bool) (f : Arm → Arm) : (g.mapArm b f).arm b = f (g.arm b) := by
  cases b <;> rfl

theorem Group.mapArm_arm_other (g : Group) {b c : Bool} (h : c ≠ b) (f : Arm → Arm) :
    (g.mapArm b f).arm c = g.arm c := by
  cases b <;> cases c <;> first | rfl | exact absurd rfl h

@[simp] theorem Group.mapMe_me (g : Group) (f : Arm → Arm) : (g.mapMe f).me = f g.me := by
  unfold Group.mapMe Group.me
  rw [Group.mapArm_sel, Group.mapArm_arm_same]

/-- The registers that an arm reaches: its own bank, never the other's. -/
def RegId.mine (armB : Bool) : RegId → Bool
  | .b x _ => x == armB
  | _ => true

/-- What an instruction's writes do to its group: the frame of State.Completes before the instruction ends. -/
structure Group.Writes (g h : Group) (dests : List RegId) (after : Arm → Arm) : Prop where
  group : h.rest = g.rest
  own : h.me.rest = (after g.me).rest
  other : h.arm (!g.sel) = g.arm (!g.sel)
  value : ∀ r : RegId, r.real = true → r ∉ dests → h.value r = g.value r
  full : ∀ r : RegId, r.real = true → r ∉ dests → h.full r = g.full r
  filled : ∀ r ∈ dests, r.real = true → h.full r = true

theorem Group.rest_sel {g h : Group} (e : h.rest = g.rest) : h.sel = g.sel := by
  have := congrArg Group.sel e
  exact this
theorem Group.rest_bad {g h : Group} (e : h.rest = g.rest) : h.bad = g.bad := by
  have := congrArg Group.bad e
  exact this

theorem Group.Writes.refl (g : Group) : g.Writes g [] id :=
  ⟨rfl, rfl, rfl, fun _ _ _ => rfl, fun _ _ _ => rfl, fun _ h => absurd h (List.not_mem_nil)⟩

/-- Writes one after another: the second may not lie in the other arm's bank. -/
theorem Group.Writes.trans {g h k : Group} {ds es : List RegId} {f : Arm → Arm}
    (w1 : g.Writes h ds f) (w2 : h.Writes k es id) : g.Writes k (ds ++ es) f where
  group := w2.group.trans w1.group
  own := w2.own.trans w1.own
  other := by
    have e : h.sel = g.sel := Group.rest_sel w1.group
    have o := w2.other
    rw [e] at o
    exact o.trans w1.other
  value r hr hd := by
    simp only [List.mem_append, not_or] at hd
    exact (w2.value r hr hd.2).trans (w1.value r hr hd.1)
  full r hr hd := by
    simp only [List.mem_append, not_or] at hd
    exact (w2.full r hr hd.2).trans (w1.full r hr hd.1)
  filled r hd hr := by
    by_cases he : r ∈ es
    · exact w2.filled r he hr
    · rw [w2.full r hr he]
      exact w1.filled r ((List.mem_append.mp hd).resolve_right he) hr

@[simp] theorem Group.mapArm_rest (g : Group) (b : Bool) (f : Arm → Arm) : (g.mapArm b f).rest = g.rest := by
  cases b <;> rfl

@[simp] theorem Group.mapMe_rest (g : Group) (f : Arm → Arm) : (g.mapMe f).rest = g.rest := g.mapArm_rest _ f

theorem Group.mapMe_other (g : Group) (f : Arm → Arm) : (g.mapMe f).arm (!g.sel) = g.arm (!g.sel) :=
  g.mapArm_arm_other (by cases g.sel <;> simp) f

/-- A change of the arm that has the turn leaves every register but those of its bank. -/
theorem Group.mapMe_value (g : Group) (f : Arm → Arm) {r : RegId} (h : ∀ n, r ≠ .b g.sel n) :
    (g.mapMe f).value r = g.value r ∧ (g.mapMe f).full r = g.full r := by
  cases r with
  | b c m =>
    have hc : c ≠ g.sel := fun e => h m (by rw [e])
    have e : (g.mapMe f).arm c = g.arm c := g.mapArm_arm_other hc f
    exact ⟨by simp only [Group.value, Group.val32, e], by simp only [Group.full, e]⟩
  | s m => unfold Group.mapMe Group.mapArm; cases g.sel <;> exact ⟨rfl, rfl⟩
  | v m => unfold Group.mapMe Group.mapArm; cases g.sel <;> exact ⟨rfl, rfl⟩
  | p m => unfold Group.mapMe Group.mapArm; cases g.sel <;> exact ⟨rfl, rfl⟩

/-- With no damaged register nothing is cleared. -/
theorem Group.clearBad_none {g : Group} (h : g.bad = []) (r : RegId) : g.clearBad r = g := by
  simp only [Group.clearBad, h, List.filter_nil]
  rw [← h]

/-- A write of s48 to s63 of the arm that has the turn. -/
theorem Group.put32_bank {g : Group} (h : g.bad = []) (n : Nat) (x : W32) :
    g.put32 (.b g.sel n) x = g.mapMe fun a =>
      { a with bank := vset a.bank (n - 48) x, bfull := setBit a.bfull (n - 48) true } := by
  unfold Group.put32 Group.setFull Group.mapMe
  dsimp only
  rw [Group.clearBad_none]
  · unfold Group.mapArm
    cases g.sel <;> rfl
  · unfold Group.mapArm
    cases g.sel <;> exact h

/-- A write of s0 to s47. -/
theorem Group.put32_s {g : Group} (h : g.bad = []) (n : Nat) (x : W32) :
    g.put32 (.s n) x = { g with s := vset g.s n x, sfull := setBit g.sfull n true } :=
  Group.clearBad_none (by exact h) _

/-- A register of the group or of the arm's own bank. -/
theorem Group.writes_put32 (g : Group) {r : RegId} (hb : g.bad = []) (hr : r.real = true)
    (hm : r.mine g.sel = true) (hk : (∃ n, r = .s n) ∨ ∃ b n, r = .b b n) (x : W32) :
    g.Writes (g.put32 r x) [r] id ∧ (g.put32 r x).val32 r = x := by
  rcases hk with ⟨n, rfl⟩ | ⟨b, n, rfl⟩
  · simp only [RegId.real, decide_eq_true_eq] at hr
    rw [Group.put32_s hb]
    refine ⟨⟨rfl, rfl, rfl, ?_, ?_, ?_⟩, vget_vset_same _ hr _ _⟩
    · intro q hq hd
      cases q with
      | s m =>
        have h : m ≠ n := fun e => hd (by simp [e])
        simp [Group.value, Group.val32, vget_vset_other _ h]
      | b c m => rfl
      | v m => rfl
      | p m => rfl
    · intro q hq hd
      cases q with
      | s m => exact setBit_other _ (fun e => hd (by simp [e])) _
      | b c m => rfl
      | v m => rfl
      | p m => rfl
    · intro q hd _
      obtain rfl := List.mem_singleton.mp hd
      exact setBit_same _ (by omega) _
  · simp only [RegId.real, Bool.and_eq_true, decide_eq_true_eq] at hr
    simp only [RegId.mine, beq_iff_eq] at hm
    subst hm
    have h16 : n - 48 < 16 := by omega
    rw [Group.put32_bank hb]
    have me := g.mapMe_me fun a => { a with bank := vset a.bank (n - 48) x, bfull := setBit a.bfull (n - 48) true }
    have ar : ∀ f, (g.mapMe f).arm g.sel = (g.mapMe f).me := fun f => by
      unfold Group.me
      rw [Group.mapMe_sel]
    refine ⟨⟨g.mapMe_rest _, ?_, g.mapMe_other _, ?_, ?_, ?_⟩, ?_⟩
    · rw [me]; rfl
    · intro q hq hd
      by_cases hc : ∀ m, q ≠ .b g.sel m
      · exact (g.mapMe_value _ hc).1
      · simp only [ne_eq, not_forall, not_not] at hc
        obtain ⟨m, rfl⟩ := hc
        simp only [RegId.real, Bool.and_eq_true, decide_eq_true_eq] at hq
        have h : m - 48 ≠ n - 48 := fun e => hd (by simp; omega)
        simp only [Group.value, Group.val32, ar, me]
        rw [vget_vset_other _ h]
        rfl
    · intro q hq hd
      by_cases hc : ∀ m, q ≠ .b g.sel m
      · exact (g.mapMe_value _ hc).2
      · simp only [ne_eq, not_forall, not_not] at hc
        obtain ⟨m, rfl⟩ := hc
        simp only [RegId.real, Bool.and_eq_true, decide_eq_true_eq] at hq
        have h : m - 48 ≠ n - 48 := fun e => hd (by simp; omega)
        simp only [Group.full, ar, me]
        rw [setBit_other _ h]
        rfl
    · intro q hd _
      obtain rfl := List.mem_singleton.mp hd
      simp only [Group.full, ar, me]
      exact setBit_same _ h16 _
    · simp only [Group.val32, ar, me]
      exact vget_vset_same _ h16 _ _

theorem RegId.ofS_real {armB : Bool} {n : Nat} (h : n < 64) : (RegId.ofS armB n).real = true := by
  unfold RegId.ofS
  split <;> simp [RegId.real] <;> omega

theorem RegId.ofS_mine (armB : Bool) (n : Nat) : (RegId.ofS armB n).mine armB = true := by
  unfold RegId.ofS
  split <;> simp [RegId.mine]

theorem RegId.ofS_kind (armB : Bool) (n : Nat) :
    (∃ m, RegId.ofS armB n = .s m) ∨ ∃ b m, RegId.ofS armB n = .b b m := by
  unfold RegId.ofS
  split
  · exact .inl ⟨n, rfl⟩
  · exact .inr ⟨armB, n, rfl⟩

theorem RegId.ofS_inj {armB : Bool} {m n : Nat} (h : RegId.ofS armB m = RegId.ofS armB n) : m = n := by
  unfold RegId.ofS at h
  split at h <;> split at h <;> simp_all

/-- s(n) of the arm written: read back, and nothing else changed. -/
theorem Group.writes_setS (g : Group) {n : Nat} (hb : g.bad = []) (h : n < 64) (x : W32) :
    g.Writes (g.setS n x) [.ofS g.sel n] id ∧ (g.setS n x).val32 (.ofS g.sel n) = x :=
  g.writes_put32 hb (RegId.ofS_real h) (RegId.ofS_mine ..) (RegId.ofS_kind ..) x

theorem Group.Writes.val32 {g h : Group} {ds : List RegId} {f : Arm → Arm} (w : g.Writes h ds f) {r : RegId}
    (hr : r.real = true) (hd : r ∉ ds) : h.val32 r = g.val32 r := by
  have e := w.value r hr hd
  cases r with
  | s n => simpa [Group.value] using e
  | b c n => simpa [Group.value] using e
  | v n => rfl
  | p n => rfl

theorem pairOf_lo_hi (x : W64) : pairOf (loW x) (hiW x) = x := by
  unfold pairOf loW hiW
  apply BitVec.eq_of_getLsbD_eq
  intro i hi
  rw [BitVec.getLsbD_append]
  by_cases h : i < 32
  · simp [h]
  · simp [h]
    have e : 32 + (i - 32) = i := by omega
    rw [e]
    simp
    intro _
    omega

/-- A pair of the arm written: read back, and nothing else changed. -/
theorem Group.writes_setSP (g : Group) {n : Nat} (hb : g.bad = []) (h : n + 1 < 64) (x : W64) :
    g.Writes (g.setSP n x) [.ofS g.sel n, .ofS g.sel (n + 1)] id ∧
    pairOf ((g.setSP n x).val32 (.ofS g.sel n)) ((g.setSP n x).val32 (.ofS g.sel (n + 1))) = x := by
  obtain ⟨w1, v1⟩ := g.writes_put32 hb (RegId.ofS_real (armB := g.sel) (show n < 64 by omega))
    (RegId.ofS_mine ..) (RegId.ofS_kind ..) (loW x)
  have e : (g.put32 (.ofS g.sel n) (loW x)).sel = g.sel := Group.rest_sel w1.group
  have hb' : (g.put32 (.ofS g.sel n) (loW x)).bad = [] := (Group.rest_bad w1.group).trans hb
  obtain ⟨w2, v2⟩ := (g.put32 (.ofS g.sel n) (loW x)).writes_put32 hb' (RegId.ofS_real (armB := g.sel) h)
    (by rw [e]; exact RegId.ofS_mine ..) (RegId.ofS_kind ..) (hiW x)
  refine ⟨w1.trans w2, ?_⟩
  unfold Group.setSP Group.put64
  have ne : RegId.ofS g.sel n ∉ [RegId.ofS g.sel (n + 1)] := fun m => by
    have := RegId.ofS_inj (List.mem_singleton.mp m)
    omega
  rw [v2, w2.val32 (RegId.ofS_real (by omega)) ne, v1]
  exact pairOf_lo_hi x

/-- Lanes of v(n) written. -/
theorem Group.writes_putV (g : Group) {n : Nat} (hb : g.bad = []) (h : n < 128) (m : Mask) (xs : List W32)
    (tag : Nat) :
    g.Writes (g.putV n m xs tag) [.v n] id ∧
    (g.putV n m xs tag).vreg n = ⟨mergeLanes m xs (g.vreg n).lanes, tag, true⟩ := by
  have e : g.putV n m xs tag = { g with v := vset g.v n ⟨mergeLanes m xs (g.vreg n).lanes, tag, true⟩ } := by
    unfold Group.putV
    rw [hb, List.filter_nil, ← hb]
  have r : (g.putV n m xs tag).vreg n = ⟨mergeLanes m xs (g.vreg n).lanes, tag, true⟩ := by
    rw [e]
    exact vget_vset_same _ h _ _
  refine ⟨⟨by rw [e]; rfl, by rw [e]; rfl, by rw [e]; rfl, ?_, ?_, ?_⟩, r⟩
  · intro q hq hd
    rw [e]
    cases q with
    | s m => rfl
    | b c m => rfl
    | v m =>
      have h : m ≠ n := fun x => hd (by simp [x])
      simp only [Group.value, Group.vreg, vget_vset_other _ h]
    | p m => rfl
  · intro q hq hd
    rw [e]
    cases q with
    | s m => rfl
    | b c m => rfl
    | v m =>
      have h : m ≠ n := fun x => hd (by simp [x])
      simp only [Group.full, Group.vreg, vget_vset_other _ h]
    | p m => rfl
  · intro q hd _
    obtain rfl := List.mem_singleton.mp hd
    simp only [Group.full, r]

/-- Lane k after lanes are written. -/
theorem lane_putV {g : Group} {n k : Nat} (hb : g.bad = []) (h : n < 128) (hk : k < 96) (m : Mask) (f : Nat → W32)
    (tag : Nat) :
    (g.putV n m (overLanes m f) tag).lane n k = if m.getLsbD k then f k else g.lane n k := by
  unfold Group.lane
  rw [(g.writes_putV hb h m _ tag).2]
  simp only [mergeLanes, vget_tab _ hk]
  split
  · next hm => simp [overLanes, List.getD, hk, hm]
  · rfl

/-- Bits of p(n) written. -/
theorem Group.writes_putP (g : Group) {n : Nat} (hb : g.bad = []) (h : 0 < n ∧ n < 8) (m x : Mask) :
    g.Writes (g.putP n m x) [.p n] id ∧ (g.putP n m x).pred n = (x &&& m) ||| (g.pred n &&& ~~~m) := by
  have h0 : n ≠ 0 := by omega
  have e : g.putP n m x = { g with
      p := vset g.p n ((x &&& m) ||| (vget g.p n 0 &&& ~~~m)), pfull := setBit g.pfull n true } := by
    unfold Group.putP
    rw [if_neg h0, Group.clearBad_none]
    · simp [Group.setFull, h0]
    · simpa [Group.setFull, h0] using hb
  have r : (g.putP n m x).pred n = (x &&& m) ||| (g.pred n &&& ~~~m) := by
    rw [e]
    simp only [Group.pred, h0, if_false]
    exact vget_vset_same _ h.2 _ _
  refine ⟨⟨by rw [e]; rfl, by rw [e]; rfl, by rw [e]; rfl, ?_, ?_, ?_⟩, r⟩
  · intro q hq hd
    rw [e]
    cases q with
    | s m => rfl
    | b c m => rfl
    | v m => rfl
    | p m =>
      have h : m ≠ n := fun x => hd (by simp [x])
      simp only [Group.value, Group.pred, vget_vset_other _ h]
  · intro q hq hd
    rw [e]
    cases q with
    | s m => rfl
    | b c m => rfl
    | v m => rfl
    | p m =>
      have h : m ≠ n := fun x => hd (by simp [x])
      simp only [Group.full, setBit_other _ h]
  · intro q hd _
    obtain rfl := List.mem_singleton.mp hd
    rw [e]
    simp [Group.full, setBit_same _ h.2]

/-- Fields of the arm other than its bank changed after the writes. -/
theorem Group.Writes.mapMe {g h : Group} {ds : List RegId} (w : g.Writes h ds id) (f : Arm → Arm)
    (hb : ∀ a, (f a).bank = a.bank ∧ (f a).bfull = a.bfull) (hf : ∀ a b : Arm, a.rest = b.rest → (f a).rest = (f b).rest) :
    g.Writes (h.mapMe f) ds f := by
  have es : h.sel = g.sel := Group.rest_sel w.group
  have val : ∀ r, (h.mapMe f).value r = h.value r ∧ (h.mapMe f).full r = h.full r := fun r => by
    by_cases hc : ∀ m, r ≠ .b h.sel m
    · exact h.mapMe_value f hc
    · simp only [ne_eq, not_forall, not_not] at hc
      obtain ⟨m, rfl⟩ := hc
      have a : (h.mapMe f).arm h.sel = f (h.arm h.sel) := h.mapArm_arm_same _ f
      exact ⟨by simp only [Group.value, Group.val32, a, (hb _).1], by simp only [Group.full, a, (hb _).2]⟩
  refine ⟨?_, ?_, ?_, ?_, ?_, ?_⟩
  · rw [Group.mapMe_rest]; exact w.group
  · rw [Group.mapMe_me]; exact hf _ _ w.own
  · have := h.mapMe_other f
    rw [es] at this
    exact this.trans w.other
  · exact fun r hr hd => (val r).1.trans (w.value r hr hd)
  · exact fun r hr hd => (val r).2.trans (w.full r hr hd)
  · exact fun r hd hr => (val r).2.trans (w.filled r hd hr)

end Sys2Proof.Machine
end

