-- ==== Sys2Proof/Laws/Completes.lean ====
section
/-!
SUPPORT. How an instruction that only writes its group's registers completes, said once: the next state, the
frame, the values.
-/

namespace Sys2Proof.Machine

/-- What the emptying of mailbox sources leaves full. -/
theorem Group.emptyMail_full (g : Group) (p : Pre) {r : RegId} (hr : r.real = true) :
    (g.emptyMail p).full r =
      if (∃ x ∈ p.srcs, x.reg = r) ∧ r.mailbox = true ∧ r ∉ p.dests then false else g.full r := by
  unfold Group.emptyMail
  suffices H : ∀ (l : List Src) (g : Group), (l.foldl (fun g x => match x.reg with
      | .s n => if 32 ≤ n ∧ n < 40 ∧ !p.dests.contains (.s n) then g.setFull (.s n) false else g
      | _ => g) g).full r =
      if (∃ x ∈ l, x.reg = r) ∧ r.mailbox = true ∧ r ∉ p.dests then false else g.full r from H p.srcs g
  intro l
  induction l with
  | nil => intro g; simp
  | cons a l ih =>
    intro g
    rw [List.foldl_cons, ih]
    by_cases hl : (∃ x ∈ l, x.reg = r) ∧ r.mailbox = true ∧ r ∉ p.dests
    · rw [if_pos hl, if_pos ⟨⟨hl.1.choose, List.mem_cons_of_mem _ hl.1.choose_spec.1, hl.1.choose_spec.2⟩, hl.2⟩]
    · rw [if_neg hl]
      by_cases ha : a.reg = r ∧ r.mailbox = true ∧ r ∉ p.dests
      · rw [if_pos ⟨⟨a, List.mem_cons_self .., ha.1⟩, ha.2⟩]
        obtain ⟨rfl, hm, hd⟩ := ha
        revert hr hm hd
        cases a.reg with
        | s n =>
          intro hr hm hd
          simp only [RegId.mailbox, Bool.and_eq_true, decide_eq_true_eq] at hm
          have c : 32 ≤ n ∧ n < 40 ∧ (!p.dests.contains (.s n)) = true := ⟨hm.1, hm.2, by simp [hd]⟩
          simp only [c, and_self, if_true]
          exact setBit_same _ (by omega) _
        | b c n => intro _ hm _; exact absurd hm (by simp [RegId.mailbox])
        | v n => intro _ hm _; exact absurd hm (by simp [RegId.mailbox])
        | p n => intro _ hm _; exact absurd hm (by simp [RegId.mailbox])
      · have hc : ¬ ((∃ x ∈ a :: l, x.reg = r) ∧ r.mailbox = true ∧ r ∉ p.dests) := by
          rintro ⟨⟨x, hx, e⟩, h2⟩
          rcases List.mem_cons.mp hx with rfl | hx
          · exact ha ⟨e, h2⟩
          · exact hl ⟨⟨x, hx, e⟩, h2⟩
        rw [if_neg hc]
        revert ha
        cases a.reg with
        | s n =>
          intro ha
          dsimp only
          split
          · next c =>
            cases r with
            | s m =>
              have h : m ≠ n := by
                rintro rfl
                exact ha ⟨rfl, by simp [RegId.mailbox, c.1, c.2.1], by simpa using c.2.2⟩
              exact setBit_other _ h _
            | b c m => rfl
            | v m => rfl
            | p m => rfl
          · rfl
        | b c n => exact fun _ => rfl
        | v n => exact fun _ => rfl
        | p n => exact fun _ => rfl

theorem Group.emptyMail_value (g : Group) (p : Pre) (r : RegId) : (g.emptyMail p).value r = g.value r := by
  obtain ⟨x, hx⟩ := g.emptyMail_eq p
  rw [hx]
  cases r <;> rfl

theorem Group.emptyMail_rest (g : Group) (p : Pre) : (g.emptyMail p).rest = g.rest := by
  obtain ⟨x, hx⟩ := g.emptyMail_eq p
  rw [hx]
  rfl

theorem Group.emptyMail_arm (g : Group) (p : Pre) (b : Bool) : (g.emptyMail p).arm b = g.arm b := by
  obtain ⟨x, hx⟩ := g.emptyMail_eq p
  rw [hx]
  rfl

/-- The group after an instruction of a length whose writes are done. -/
def Group.ended (g : Group) (p : Pre) (len : Nat) : Group :=
  ((g.emptyMail p).mapMe Arm.ready).mapMe fun a => a.next len

theorem Group.ended_value (g : Group) (p : Pre) (len : Nat) (r : RegId) : (g.ended p len).value r = g.value r := by
  have step : ∀ (g : Group) (f : Arm → Arm), (∀ a, (f a).bank = a.bank) → (g.mapMe f).value r = g.value r := by
    intro g f hf
    by_cases hc : ∀ m, r ≠ .b g.sel m
    · exact (g.mapMe_value f hc).1
    · simp only [ne_eq, not_forall, not_not] at hc
      obtain ⟨m, rfl⟩ := hc
      have a : (g.mapMe f).arm g.sel = f (g.arm g.sel) := g.mapArm_arm_same _ f
      simp only [Group.value, Group.val32, a, hf]
  unfold Group.ended
  rw [step _ (fun a => a.next len) (fun _ => rfl), step _ Arm.ready (fun _ => rfl), Group.emptyMail_value]

theorem Group.ended_full (g : Group) (p : Pre) (len : Nat) (r : RegId) :
    (g.ended p len).full r = (g.emptyMail p).full r := by
  have step : ∀ (g : Group) (f : Arm → Arm), (∀ a, (f a).bfull = a.bfull) → (g.mapMe f).full r = g.full r := by
    intro g f hf
    by_cases hc : ∀ m, r ≠ .b g.sel m
    · exact (g.mapMe_value f hc).2
    · simp only [ne_eq, not_forall, not_not] at hc
      obtain ⟨m, rfl⟩ := hc
      have a : (g.mapMe f).arm g.sel = f (g.arm g.sel) := g.mapArm_arm_same _ f
      simp only [Group.full, a, hf]
  unfold Group.ended
  rw [step _ (fun a => a.next len) (fun _ => rfl), step _ Arm.ready (fun _ => rfl)]

/-- An instruction that only writes registers of its group, and meets no check: the frame, and every register
as the writes leave it. -/
theorem issue_completes {len : Nat} {p : Pre} {f : Group → Group} {s : State} {srcs : List RegId} {aft : Arm → Arm}
    (R : s.Ready srcs p.dests) (hs : ∀ r, r ∈ srcs ↔ ∃ x ∈ p.srcs, x.reg = r)
    (he : p.early s = none) (hm : p.modeCheck s = none) (ht : p.tags = none)
    (w : s.cur.Writes (f s.cur) p.dests aft) :
    ∃ t, issue len p (doneG f) s = .next t ∧ s.Completes t srcs p.dests (fun a => (aft a).next len) ∧
      (∀ r, t.cur.value r = (f s.cur).value r) ∧ t.cur.sel = s.cur.sel := by
  have hv : p.verdict s = .go := Pre.verdict_go he hm (fun x hx => R.full _ ((hs _).mpr ⟨x, hx, rfl⟩)) R.free ht R.sound
  have hb : doneG f s = .done (s.modCur f) := rfl
  refine ⟨_, issue_done R.fresh hv hb, ?_⟩
  have et : ((s.modCur f).finish p).advance len = { s with cur := (f s.cur).ended p len } := by
    rw [State.finish_off (by exact R.noStep) (by exact R.noPass)]
    rfl
  rw [et]
  have rest : ((f s.cur).ended p len).rest = (f s.cur).rest := by
    unfold Group.ended
    rw [Group.mapMe_rest, Group.mapMe_rest, Group.emptyMail_rest]
  have sel : ((f s.cur).emptyMail p).sel = s.cur.sel :=
    Group.rest_sel ((Group.emptyMail_rest _ _).trans w.group)
  have fsel : (f s.cur).sel = s.cur.sel := Group.rest_sel w.group
  refine ⟨⟨rfl, rest.trans w.group, ?_, ?_, ?_, ?_, ?_, ?_⟩, fun r => Group.ended_value _ _ _ r,
    Group.rest_sel (rest.trans w.group)⟩
  · show ((f s.cur).ended p len).me.rest = _
    unfold Group.ended
    rw [Group.mapMe_me, Group.mapMe_me]
    have e : ((f s.cur).emptyMail p).me = (f s.cur).me := by
      unfold Group.me
      rw [Group.emptyMail_arm, sel, fsel]
    rw [e]
    have := w.own
    simp only [Arm.rest, Arm.ready, Arm.next] at this ⊢
    simp only [Arm.mk.injEq] at this ⊢
    simp_all
  · show ((f s.cur).ended p len).arm (!s.cur.sel) = _
    unfold Group.ended
    have ne : (!s.cur.sel) ≠ s.cur.sel := by cases s.cur.sel <;> simp
    unfold Group.mapMe
    rw [Group.mapArm_sel, sel, Group.mapArm_arm_other _ ne, Group.mapArm_arm_other _ ne, Group.emptyMail_arm]
    exact w.other
  · exact fun r hr hd => (Group.ended_value _ _ _ r).trans (w.value r hr hd)
  · intro r hr hd hn
    show ((f s.cur).ended p len).full r = _
    rw [Group.ended_full, Group.emptyMail_full _ _ hr, if_neg fun h => hn ⟨(hs r).mpr h.1, h.2.1⟩]
    exact w.full r hr hd
  · intro r hd hr
    show ((f s.cur).ended p len).full r = true
    rw [Group.ended_full, Group.emptyMail_full _ _ hr, if_neg fun h => h.2.2 hd]
    exact w.filled r hd hr
  · intro r hx hmb hd
    have hr : r.real = true := by
      cases r with
      | s n => simp only [RegId.mailbox, Bool.and_eq_true, decide_eq_true_eq] at hmb; simp [RegId.real]; omega
      | b c n => simp [RegId.mailbox] at hmb
      | v n => simp [RegId.mailbox] at hmb
      | p n => simp [RegId.mailbox] at hmb
    show ((f s.cur).ended p len).full r = false
    rw [Group.ended_full, Group.emptyMail_full _ _ hr, if_pos ⟨(hs r).mp hx, hmb, hd⟩]

end Sys2Proof.Machine
end

