-- ==== Sys2Proof/Laws/Memory.lean ====
section
/-!
SUPPORT. Laws of byte memory: a read after a write, and the canonical form that every operation keeps.
-/

namespace Sys2Proof.Machine

/-! ### Cells -/

theorem cellsWfFrom_mono {lo lo' : Nat} (h : lo' ≤ lo) {cs : List Host.Cell}
    (w : cellsWfFrom lo cs = true) : cellsWfFrom lo' cs = true := by
  cases cs with
  | nil => rfl
  | cons c r =>
    obtain ⟨k, c⟩ := c
    simp only [cellsWfFrom, Bool.and_eq_true, decide_eq_true_eq] at w ⊢
    exact ⟨⟨by omega, w.1.2⟩, w.2⟩

theorem cellsGet_below {lo a : Nat} {cs : List Host.Cell} (w : cellsWfFrom lo cs = true) (h : a < lo) :
    cellsGet cs a = 0 := by
  induction cs generalizing lo with
  | nil => rfl
  | cons c r ih =>
    obtain ⟨k, c⟩ := c
    simp only [cellsWfFrom, Bool.and_eq_true, decide_eq_true_eq] at w
    have hk : k ≠ a := by omega
    simp only [cellsGet, hk, if_false]
    exact ih w.2 (by omega)

theorem cellsGet_put_same {lo : Nat} {cs : List Host.Cell} (w : cellsWfFrom lo cs = true) (a : Nat) (b : Byte) :
    cellsGet (cellsPut cs a b) a = b := by
  induction cs generalizing lo with
  | nil => unfold cellsPut; split <;> simp_all [cellsGet]
  | cons c r ih =>
    obtain ⟨k, c⟩ := c
    simp only [cellsWfFrom, Bool.and_eq_true, decide_eq_true_eq] at w
    simp only [cellsPut]
    split
    · next h =>
      split
      · next hb =>
        have hk : k ≠ a := by omega
        simp only [cellsGet, hk, if_false, hb]
        exact cellsGet_below w.2 (by omega)
      · simp [cellsGet]
    · split
      · next h =>
        split
        · next hb => rw [hb]; exact cellsGet_below w.2 (by omega)
        · simp [cellsGet]
      · next h =>
        have hk : k ≠ a := by omega
        simp only [cellsGet, hk, if_false]
        exact ih w.2

theorem cellsGet_put_other {a a' : Nat} (h : a' ≠ a) (cs : List Host.Cell) (b : Byte) :
    cellsGet (cellsPut cs a b) a' = cellsGet cs a' := by
  have h' : a ≠ a' := fun e => h e.symm
  induction cs with
  | nil => unfold cellsPut; split <;> simp_all [cellsGet]
  | cons c r ih =>
    obtain ⟨k, c⟩ := c
    simp only [cellsPut]
    split
    · split
      · rfl
      · simp [cellsGet, h']
    · split
      · next e =>
        have hk : k ≠ a' := by omega
        split <;> simp [cellsGet, h', hk]
      · simp only [cellsGet, ih]

theorem cellsWf_put {lo a : Nat} (h : lo ≤ a) {cs : List Host.Cell} (w : cellsWfFrom lo cs = true) (b : Byte) :
    cellsWfFrom lo (cellsPut cs a b) = true := by
  induction cs generalizing lo with
  | nil => unfold cellsPut; split <;> simp_all [cellsWfFrom]
  | cons c r ih =>
    obtain ⟨k, c⟩ := c
    have w0 := w
    simp only [cellsWfFrom, Bool.and_eq_true, decide_eq_true_eq] at w
    simp only [cellsPut]
    split
    · next hl =>
      split
      · exact w0
      · next hb =>
        simp only [cellsWfFrom, Bool.and_eq_true, decide_eq_true_eq]
        exact ⟨⟨h, hb⟩, ⟨by omega, w.1.2⟩, w.2⟩
    · split
      · next he =>
        split
        · exact cellsWfFrom_mono (by omega) w.2
        · next hb =>
          simp only [cellsWfFrom, Bool.and_eq_true, decide_eq_true_eq]
          exact ⟨⟨h, hb⟩, he ▸ w.2⟩
      · next h1 h2 =>
        simp only [cellsWfFrom, Bool.and_eq_true, decide_eq_true_eq]
        exact ⟨w.1, ih (by omega) w.2⟩

theorem cellsWf_filter {lo : Nat} {cs : List Host.Cell} (w : cellsWfFrom lo cs = true) (p : Host.Cell → Bool) :
    cellsWfFrom lo (cs.filter p) = true := by
  induction cs generalizing lo with
  | nil => rfl
  | cons c r ih =>
    obtain ⟨k, c⟩ := c
    simp only [cellsWfFrom, Bool.and_eq_true, decide_eq_true_eq] at w
    by_cases hp : p (k, c) = true
    · rw [List.filter_cons_of_pos hp]
      simp only [cellsWfFrom, Bool.and_eq_true, decide_eq_true_eq]
      exact ⟨w.1, ih w.2⟩
    · rw [List.filter_cons_of_neg hp]
      exact cellsWfFrom_mono (by omega) (ih w.2)

/-! ### Memory -/

@[simp] theorem Memory.wf_empty : Memory.empty.wf = true := rfl

/-- A byte written reads back. -/
theorem Memory.get_put_same {m : Memory} (w : m.wf = true) (a : Nat) (b : Byte) : (m.put a b).get a = b :=
  cellsGet_put_same w a b

/-- A byte written leaves every other one. -/
theorem Memory.get_put_other {a a' : Nat} (h : a' ≠ a) (m : Memory) (b : Byte) :
    (m.put a b).get a' = m.get a' := cellsGet_put_other h m.cells b

/-- A write keeps the canonical form. -/
theorem Memory.wf_put {m : Memory} (w : m.wf = true) (a : Nat) (b : Byte) : (m.put a b).wf = true :=
  cellsWf_put (Nat.zero_le a) w b

theorem Memory.wf_putBytes {m : Memory} (w : m.wf = true) (a : Nat) (bs : List Byte) :
    (m.putBytes a bs).wf = true := by
  induction bs generalizing m a with
  | nil => exact w
  | cons b bs ih => exact ih (Memory.wf_put w a b) (a + 1)

theorem Memory.wf_wr {m : Memory} (w : m.wf = true) (a n v : Nat) : (m.wr a n v).wf = true :=
  Memory.wf_putBytes w a _

/-- Bytes outside those written are as before. -/
theorem Memory.get_putBytes_other {m : Memory} {a x : Nat} {bs : List Byte}
    (h : x < a ∨ a + bs.length ≤ x) : (m.putBytes a bs).get x = m.get x := by
  induction bs generalizing m a with
  | nil => rfl
  | cons b bs ih =>
    simp only [List.length_cons] at h
    rw [Memory.putBytes, ih (by omega), Memory.get_put_other (by omega)]

theorem leBytes_length (n v : Nat) : (leBytes n v).length = n := by
  induction n generalizing v with
  | zero => rfl
  | succ n ih => simp [leBytes, ih]

/-- A write of n bytes changes no other byte. -/
theorem Memory.get_wr_other {m : Memory} {a n x : Nat} (v : Nat) (h : x < a ∨ a + n ≤ x) :
    (m.wr a n v).get x = m.get x :=
  Memory.get_putBytes_other (by rw [leBytes_length]; exact h)

theorem Memory.bytes_congr {m m' : Memory} {a n : Nat} (h : ∀ x, a ≤ x → x < a + n → m.get x = m'.get x) :
    m.bytes a n = m'.bytes a n := by
  induction n generalizing a with
  | zero => rfl
  | succ n ih =>
    rw [Memory.bytes, Memory.bytes, h a (Nat.le_refl a) (by omega), ih fun x h1 h2 => h x (by omega) (by omega)]

theorem Memory.bytes_putBytes {m : Memory} (w : m.wf = true) (a : Nat) (bs : List Byte) :
    (m.putBytes a bs).bytes a bs.length = bs := by
  induction bs generalizing m a with
  | nil => rfl
  | cons b bs ih =>
    have hw := Memory.wf_put w a b
    rw [List.length_cons, Memory.bytes, Memory.putBytes, ih hw (a + 1),
      Memory.get_putBytes_other (by omega), Memory.get_put_same w]

theorem ofBytes_leBytes (n v : Nat) : ofBytes (leBytes n v) = v % 256 ^ n := by
  induction n generalizing v with
  | zero => simp [leBytes, ofBytes, Nat.mod_one]
  | succ n ih =>
    simp only [leBytes, ofBytes, ih]
    rw [Nat.pow_succ, Nat.mul_comm (256 ^ n) 256, Nat.mod_mul]
    simp

/-- A number written reads back, as many bytes as were written. -/
theorem Memory.rd_wr_same {m : Memory} (w : m.wf = true) (a n v : Nat) : (m.wr a n v).rd a n = v % 256 ^ n := by
  have h := Memory.bytes_putBytes w a (leBytes n v)
  rw [leBytes_length] at h
  rw [Memory.rd, Memory.wr, h, ofBytes_leBytes]

/-- A number that a write does not touch reads as before. -/
theorem Memory.rd_wr_other {m : Memory} {a n x k : Nat} (v : Nat) (h : x + k ≤ a ∨ a + n ≤ x) :
    (m.wr a n v).rd x k = m.rd x k := by
  rw [Memory.rd, Memory.rd, Memory.bytes_congr fun y h1 h2 => Memory.get_wr_other v (by omega)]

theorem Memory.wf_overwrite {m : Memory} (w : m.wf = true) (a n : Nat) (cs : List Host.Cell) :
    (m.overwrite a n cs).wf = true := by
  have h : ∀ (cs : List Host.Cell) (m : Memory), m.wf = true →
      (cs.foldl (fun m c => m.put c.1 c.2) m).wf = true := by
    intro cs
    induction cs with
    | nil => exact fun _ w => w
    | cons c cs ih => exact fun m w => ih _ (Memory.wf_put w c.1 c.2)
  exact h cs _ (cellsWf_filter w _)

theorem Memory.wf_clear {m : Memory} (w : m.wf = true) (a n : Nat) : (m.clear a n).wf = true := cellsWf_filter w _

theorem wf_writeFields {m : Memory} (w : m.wf = true) (a : Nat) (fs : List HField) :
    (writeFields m a fs).wf = true := by
  induction fs generalizing m with
  | nil => exact w
  | cons f fs ih => exact ih (Memory.wf_wr w _ _ _)

theorem wf_zeroBytes {m : Memory} (w : m.wf = true) (a n : Nat) : (zeroBytes m a n).wf = true :=
  Memory.wf_putBytes w a _

end Sys2Proof.Machine
end

