-- ==== Sys2Proof/Laws/Scalar.lean ====
section
/-!
SUPPORT. One lemma for each scalar form: when its arm is ready it completes, with the form's result in d.
-/

namespace Sys2Proof.Machine

theorem Group.mem_srcA {g : Group} {ea : Bool} {n : Nat} {rs : List RegId} {r : RegId} :
    (∃ x ∈ g.srcA ea n rs, x.reg = r) ↔ r ∈ rs := by
  simp [Group.srcA]

theorem Group.mem_srcB {g : Group} {eb : Bool} {n : Nat} {rs : List RegId} {r : RegId} :
    (∃ x ∈ g.srcB eb n rs, x.reg = r) ↔ r ∈ rs := by
  simp [Group.srcB]

theorem mem_blocking {rs : List RegId} {r : RegId} : (∃ x ∈ blocking rs, x.reg = r) ↔ r ∈ rs := by
  simp [blocking]

theorem exists_src_append {l m : List Src} {r : RegId} :
    (∃ x ∈ l ++ m, x.reg = r) ↔ (∃ x ∈ l, x.reg = r) ∨ ∃ x ∈ m, x.reg = r := by
  constructor
  · rintro ⟨x, hx, e⟩
    rcases List.mem_append.mp hx with h | h
    · exact .inl ⟨x, h, e⟩
    · exact .inr ⟨x, h, e⟩
  · rintro (⟨x, hx, e⟩ | ⟨x, hx, e⟩)
    · exact ⟨x, List.mem_append_left _ hx, e⟩
    · exact ⟨x, List.mem_append_right _ hx, e⟩

/-- Checks that any thread passes: no field depends on VREGS or ET, and no privilege is asked for. -/
theorem Pre.early_none {p : Pre} {s : State} (h1 : p.seqOk = true) (h2 : p.vs = []) (h3 : p.even = true)
    (h4 : p.seqOnly = false) (h5 : p.priv = 0) : p.early s = none := by
  simp [Pre.early, Pre.fieldsOk, h1, h2, h3, h4, h5]

/-- Checks of MODE that do not apply. -/
theorem Pre.modeCheck_none {p : Pre} {s : State} (h1 : p.readsRm = false) (h2 : p.timing = false ∨ s.cur.eff.det = false)
    (h3 : p.ets = none) (h4 : p.mode = none) : p.modeCheck s = none := by
  rcases h2 with h | h <;> simp [Pre.modeCheck, h1, h, h3, h4]

/-- d ← x in one s register: every form of it. -/
theorem setS_completes {len d : Nat} {p : Pre} {x : Group → W32} {s : State} {srcs : List RegId}
    (R : s.Ready srcs [.ofS s.cur.sel d]) (hd : d < 64) (hp : p.dests = [.ofS s.cur.sel d])
    (hs : ∀ r, r ∈ srcs ↔ ∃ x ∈ p.srcs, x.reg = r)
    (he : p.early s = none) (hm : p.modeCheck s = none) (ht : p.tags = none) :
    ∃ t, issue len p (doneG fun g => g.setS d (x g)) s = .next t ∧ t.cur.val32 (.ofS s.cur.sel d) = x s.cur ∧
      s.Completes t srcs [.ofS s.cur.sel d] fun a => a.next len := by
  obtain ⟨w, v⟩ := s.cur.writes_setS R.sound hd (x s.cur)
  rw [← hp] at R w ⊢
  obtain ⟨t, h1, h2, h3, h4⟩ := issue_completes (f := fun g => g.setS d (x g)) R hs he hm ht w
  refine ⟨t, h1, ?_, h2⟩
  have := h3 (.ofS s.cur.sel d)
  rcases RegId.ofS_kind s.cur.sel d with ⟨n, e⟩ | ⟨b, n, e⟩ <;> rw [e] at this v ⊢ <;>
    simp only [Group.value, RegVal.word.injEq] at this <;> rw [this, v]

theorem scalar2_completes {f : W32 → W32 → W32} {d a b : Nat} {ea eb : Bool} {s : State} (hd : d < 64)
    (R : s.Ready (s.cur.sregs a ++ s.cur.sregs b) [.ofS s.cur.sel d]) :
    ∃ t, scalar2 f d a b ea eb s = .next t ∧
      t.cur.val32 (.ofS s.cur.sel d) = f (s.cur.sval a) (s.cur.sval b) ∧
      s.Completes t (s.cur.sregs a ++ s.cur.sregs b) [.ofS s.cur.sel d] fun x => x.next 4 :=
  setS_completes (p := preScalar s.cur d a b ea eb) (x := fun g => f (g.sval a) (g.sval b)) R hd rfl
    (fun r => by
      rw [show (preScalar s.cur d a b ea eb).srcs = s.cur.srcA ea a (s.cur.sregs a) ++ s.cur.srcB eb b (s.cur.sregs b) from rfl,
        exists_src_append, Group.mem_srcA, Group.mem_srcB, List.mem_append])
    (Pre.early_none rfl rfl rfl rfl rfl) (Pre.modeCheck_none rfl (.inl rfl) rfl rfl) rfl

theorem scalar1_completes {f : W32 → W32} {d a : Nat} {ea : Bool} {s : State} (hd : d < 64)
    (R : s.Ready (s.cur.sregs a) [.ofS s.cur.sel d]) :
    ∃ t, scalar1 f d a ea s = .next t ∧ t.cur.val32 (.ofS s.cur.sel d) = f (s.cur.sval a) ∧
      s.Completes t (s.cur.sregs a) [.ofS s.cur.sel d] fun x => x.next 4 :=
  setS_completes (p := preScalar1 s.cur d a ea) (x := fun g => f (g.sval a)) R hd rfl
    (fun r => by
      rw [show (preScalar1 s.cur d a ea).srcs = s.cur.srcA ea a (s.cur.sregs a) from rfl, Group.mem_srcA])
    (Pre.early_none rfl rfl rfl rfl rfl) (Pre.modeCheck_none rfl (.inl rfl) rfl rfl) rfl

theorem scalarImm_completes {f : W32 → W32} {d a : Nat} {s : State} (hd : d < 64)
    (R : s.Ready (s.cur.sregs a) [.ofS s.cur.sel d]) :
    ∃ t, scalarImm f d a s = .next t ∧ t.cur.val32 (.ofS s.cur.sel d) = f (s.cur.sval a) ∧
      s.Completes t (s.cur.sregs a) [.ofS s.cur.sel d] fun x => x.next 4 :=
  setS_completes (p := preImm s.cur d a) (x := fun g => f (g.sval a)) R hd rfl
    (fun r => by rw [show (preImm s.cur d a).srcs = blocking (s.cur.sregs a) from rfl, mem_blocking])
    (Pre.early_none rfl rfl rfl rfl rfl) (Pre.modeCheck_none rfl (.inl rfl) rfl rfl) rfl

/-- d:d + 1 ← x in a pair. -/
theorem setSP_completes {d : Nat} {p : Pre} {x : Group → W64} {s : State} {srcs : List RegId}
    (R : s.Ready srcs [.ofS s.cur.sel d, .ofS s.cur.sel (d + 1)]) (hd : d + 1 < 64)
    (hp : p.dests = [.ofS s.cur.sel d, .ofS s.cur.sel (d + 1)])
    (hs : ∀ r, r ∈ srcs ↔ ∃ x ∈ p.srcs, x.reg = r)
    (he : p.early s = none) (hm : p.modeCheck s = none) (ht : p.tags = none) :
    ∃ t, issue 4 p (doneG fun g => g.setSP d (x g)) s = .next t ∧
      pairOf (t.cur.val32 (.ofS s.cur.sel d)) (t.cur.val32 (.ofS s.cur.sel (d + 1))) = x s.cur ∧
      s.Completes t srcs [.ofS s.cur.sel d, .ofS s.cur.sel (d + 1)] fun a => a.next 4 := by
  obtain ⟨w, v⟩ := s.cur.writes_setSP R.sound hd (x s.cur)
  rw [← hp] at R w ⊢
  obtain ⟨t, h1, h2, h3, h4⟩ := issue_completes (f := fun g => g.setSP d (x g)) R hs he hm ht w
  refine ⟨t, h1, ?_, h2⟩
  have q : ∀ n, t.cur.val32 (.ofS s.cur.sel n) = (s.cur.setSP d (x s.cur)).val32 (.ofS s.cur.sel n) := by
    intro n
    have := h3 (.ofS s.cur.sel n)
    rcases RegId.ofS_kind s.cur.sel n with ⟨m, e⟩ | ⟨b, m, e⟩ <;> rw [e] at this ⊢ <;>
      simpa only [Group.value, RegVal.word.injEq] using this
  rw [q, q, v]

end Sys2Proof.Machine
end

