-- ==== Sys2Proof/Laws/Vector.lean ====
section
/-!
SUPPORT. One lemma for each way in which vector and predicate instructions write: lanes of v(d), bits of p(d).
-/

namespace Sys2Proof.Machine

/-- Checks that a group passes when its registers lie below VREGS and no privilege is asked for. -/
theorem Pre.early_group {p : Pre} {s : State} (h0 : s.cur.seq = none) (h2 : ∀ n ∈ p.vs, n < s.cur.vregs)
    (h3 : p.even = true) (h4 : p.seqOnly = false) (h5 : p.priv = 0) : p.early s = none := by
  have h : p.fieldsOk s.cur = true := by simpa [Pre.fieldsOk, h3] using h2
  simp [Pre.early, Group.isSeq, h0, h, h4, h5]

/-- Checks of MODE that pass. -/
theorem Pre.modeCheck_ok {p : Pre} {s : State} (h1 : p.readsRm = true → s.cur.rm < 6) (h2 : p.timing = false)
    (h3 : ∀ ok, p.ets = some ok → s.cur.et ∈ ok) (h4 : p.mode = none) : p.modeCheck s = none := by
  have h1' : ¬ (p.readsRm = true ∧ 6 ≤ s.cur.rm) := fun h => by have := h1 h.1; omega
  unfold Pre.modeCheck
  rw [if_neg h1', if_neg (by simp [h2])]
  cases he : p.ets with
  | none => exact h4
  | some ok =>
    have : s.cur.et ∈ ok := h3 ok he
    simpa [this] using h4

/-- SRCNT counted: it changes the arm alone. -/
theorem Group.countSr_eq (g : Group) (r : Bool) :
    g.countSr r = g.mapMe fun a => { a with srcnt := if r = true ∧ g.rm = 5 then a.srcnt + 1 else a.srcnt } := by
  unfold Group.countSr
  by_cases h : r = true ∧ g.rm = 5
  · rw [if_pos (by simp [h.1, h.2])]
    simp only [h, and_self, if_true]
  · rw [if_neg (by simpa using h)]
    simp only [h, if_false]
    unfold Group.mapMe Group.mapArm
    split <;> rfl

/-- Lanes of v(d) ← F, its tag, and SRCNT: every form of it. -/
theorem putV_completes {len d : Nat} {p : Pre} {m : Group → Mask} {F : Group → Nat → W32} {tag : Group → Nat}
    {r : Bool} {s : State} {srcs : List RegId}
    (R : s.Ready srcs [.v d]) (hd : d < 128) (hp : p.dests = [.v d])
    (hs : ∀ r, r ∈ srcs ↔ ∃ x ∈ p.srcs, x.reg = r)
    (he : p.early s = none) (hm : p.modeCheck s = none) (ht : p.tags = none) :
    ∃ t, issue len p (doneG fun g => (g.putV d (m g) (overLanes (m g) (F g)) (tag g)).countSr r) s = .next t ∧
      (∀ k < 96, t.cur.lane d k = if (m s.cur).getLsbD k then F s.cur k else s.cur.lane d k) ∧
      t.cur.tag d = tag s.cur ∧
      s.Completes t srcs [.v d] fun a =>
        { a with pc := a.pc + w64 len, srcnt := if r = true ∧ s.cur.rm = 5 then a.srcnt + 1 else a.srcnt } := by
  have hb := R.sound
  obtain ⟨w, v⟩ := s.cur.writes_putV hb hd (m s.cur) (overLanes (m s.cur) (F s.cur)) (tag s.cur)
  have rmEq : (s.cur.putV d (m s.cur) (overLanes (m s.cur) (F s.cur)) (tag s.cur)).rm = s.cur.rm := rfl
  have w2 := w.mapMe (fun a => { a with srcnt := if r = true ∧ s.cur.rm = 5 then a.srcnt + 1 else a.srcnt })
    (fun _ => ⟨rfl, rfl⟩) (fun a b e => by
      have := congrArg Arm.srcnt e
      simp only [Arm.rest] at this e ⊢
      simp only [Arm.mk.injEq] at e ⊢
      simp_all)
  rw [← hp] at R w2 ⊢
  obtain ⟨t, h1, h2, h3, h4⟩ := issue_completes (len := len)
    (f := fun g => (g.putV d (m g) (overLanes (m g) (F g)) (tag g)).countSr r) R hs he hm ht
    (by rw [Group.countSr_eq, rmEq]; exact w2)
  have h := h3 (.v d)
  rw [Group.countSr_eq, (Group.mapMe_value _ _ (by simp)).1] at h
  simp only [Group.value, RegVal.lanes.injEq] at h
  refine ⟨t, h1, ?_, ?_, h2⟩
  · intro k hk
    unfold Group.lane
    rw [h.1]
    exact lane_putV hb hd hk (m s.cur) (F s.cur) (tag s.cur)
  · unfold Group.tag
    rw [h.2, v]

/-- The same with nothing rounded. -/
theorem putV_completes' {len d : Nat} {p : Pre} {m : Group → Mask} {F : Group → Nat → W32} {tag : Group → Nat}
    {s : State} {srcs : List RegId}
    (R : s.Ready srcs [.v d]) (hd : d < 128) (hp : p.dests = [.v d])
    (hs : ∀ r, r ∈ srcs ↔ ∃ x ∈ p.srcs, x.reg = r)
    (he : p.early s = none) (hm : p.modeCheck s = none) (ht : p.tags = none) :
    ∃ t, issue len p (doneG fun g => g.putV d (m g) (overLanes (m g) (F g)) (tag g)) s = .next t ∧
      (∀ k < 96, t.cur.lane d k = if (m s.cur).getLsbD k then F s.cur k else s.cur.lane d k) ∧
      t.cur.tag d = tag s.cur ∧ s.Completes t srcs [.v d] fun a => a.next len := by
  have := putV_completes (len := len) (m := m) (F := F) (tag := tag) (r := false) R hd hp hs he hm ht
  simpa [Group.countSr, Arm.next] using this

/-- Bits of p(d) ← x on a mask. -/
theorem putP_completes {d : Nat} {p : Pre} {m x : Group → Mask} {s : State} {srcs : List RegId}
    (R : s.Ready srcs [.p d]) (hd : 0 < d ∧ d < 8) (hp : p.dests = [.p d])
    (hs : ∀ r, r ∈ srcs ↔ ∃ x ∈ p.srcs, x.reg = r)
    (he : p.early s = none) (hm : p.modeCheck s = none) (ht : p.tags = none) :
    ∃ t, issue 4 p (doneG fun g => g.putP d (m g) (x g)) s = .next t ∧
      (∀ k < 96, (t.cur.pred d).getLsbD k =
        if (m s.cur).getLsbD k then (x s.cur).getLsbD k else (s.cur.pred d).getLsbD k) ∧
      s.Completes t srcs [.p d] fun a => a.next 4 := by
  obtain ⟨w, v⟩ := s.cur.writes_putP R.sound hd (m s.cur) (x s.cur)
  rw [← hp] at R w ⊢
  obtain ⟨t, h1, h2, h3, h4⟩ := issue_completes (len := 4) (f := fun g => g.putP d (m g) (x g)) R hs he hm ht w
  refine ⟨t, h1, ?_, h2⟩
  intro k hk
  have h := h3 (.p d)
  simp only [Group.value, RegVal.mask.injEq] at h
  rw [h, v, BitVec.getLsbD_or, BitVec.getLsbD_and, BitVec.getLsbD_and, BitVec.getLsbD_not]
  cases (m s.cur).getLsbD k <;> simp [hk]

/-- The implicit sources of a lane instruction. -/
theorem Group.mem_laneSrcs {g : Group} {r : RegId} :
    (∃ x ∈ g.laneSrcs, x.reg = r) ↔ r ∈ [.b g.sel 61, .b g.sel 62, .b g.sel 63, g.guardReg] := mem_blocking

/-- Tags that are allowed trap nothing (R131). -/
theorem tagTrap_none {l : List (Nat × Nat × List Nat)} (h : ∀ x ∈ l, x.2.1 ∈ x.2.2) : tagTrap l = none := by
  induction l with
  | nil => rfl
  | cons x l ih =>
    obtain ⟨a, b, c⟩ := x
    have hx : b ∈ c := h (a, b, c) (List.mem_cons_self ..)
    simp [tagTrap, hx, ih fun y hy => h y (List.mem_cons_of_mem _ hy)]

/-- An element of a lane that was joined from its elements. -/
theorem joinElems_get (w : Nat) (es : List Nat) (j : Nat) :
    joinElems w es / 2 ^ (w * j) % 2 ^ w = es.getD j 0 % 2 ^ w := by
  induction es generalizing j with
  | nil => simp [joinElems]
  | cons e es ih =>
    cases j with
    | zero => simp [joinElems, Nat.add_mul_mod_self_left]
    | succ j =>
      have h2 : 0 < 2 ^ w := Nat.two_pow_pos w
      have e1 : w * (j + 1) = w + w * j := by ring
      rw [joinElems, e1, Nat.pow_add, ← Nat.div_div_eq_div_mul, Nat.add_mul_div_left _ _ h2,
        Nat.div_eq_of_lt (Nat.mod_lt _ h2), Nat.zero_add, ih]
      rfl

end Sys2Proof.Machine
end

