-- ==== Sys2Proof/Tests/Slice0.lean ====
section
/-!
SUPPORT. Tests: words of the spec decode as it says; ill-formed terms are refused; single steps on small states; and for every
statement a state and operands that meet its hypotheses (each `test_…_meets` instantiates a clause of the statement and
discharges its hypotheses).
-/

namespace Sys2Proof.Tests

open Sys2Proof Sys2Proof.Machine

/-! ### Small states -/

/-- The loaded group on the device after reset. -/
def grp : State := State.reset.boot

/-- The same group with a MODE in arm A. -/
def md (m : W32) : State := { grp with cur := { grp.cur with armA := { grp.cur.armA with mode := m } } }

/-- A sequencer running a routine of cluster 0. -/
def sqr : State :=
  { State.reset with
    cur := seqGroup 0 Resv.none bootPc
    clusters := State.reset.clusters.set 0 { Cluster.reset with running := true } }

/-- An outcome is a next state. -/
def Goes (o : Host.Outcome State Fault Refusal) : Prop := ∃ t, o = .next t

theorem goes_of {o : Host.Outcome State Fault Refusal} {P : State → Prop} (h : ∃ t, o = .next t ∧ P t) : Goes o :=
  h.imp fun _ x => x.1

theorem ready_of {s : State} {srcs dests : List RegId}
    (h : s.cur.me.replay = false ∧ s.cur.me.owes = [] ∧ (∀ r ∈ srcs, s.cur.full r = true) ∧ (∀ r ∈ dests, r ∉ s.cur.pend) ∧ s.cur.bad = [] ∧
      s.fradb.stepping = [] ∧ s.fradb.passing = []) : s.Ready srcs dests :=
  ⟨h.1, h.2.1, h.2.2.1, h.2.2.2.1, h.2.2.2.2.1, h.2.2.2.2.2.1, h.2.2.2.2.2.2⟩

/-- What the checks of lanes give is no trap. -/
def trapless : Checked → Bool
  | .trap _ => false
  | _ => true

theorem no_trap {c : Checked} (h : trapless c = true) (x : Trap) : c ≠ .trap x := by
  rintro rfl
  cases h


/-! ### Hypotheses that are met -/

theorem test_scalarTwo_meets (h : Obligations.ScalarArithmetic) : Goes (exec (.sadd 8 0 1 false false) grp) :=
  goes_of (h.1 _ (List.Mem.head _) 8 0 1 false false grp rfl (ready_of (by decide)))

theorem test_ssel_meets (h : Obligations.ScalarArithmetic) : Goes (exec (.ssel 8 0 1 false false) grp) :=
  goes_of (h.2.1 8 0 1 false false grp rfl (ready_of (by decide)))

theorem test_sclz_meets (h : Obligations.ScalarArithmetic) : Goes (exec (.sclz 8 0 false false) grp) :=
  goes_of (h.2.2.1 8 0 false false grp rfl (ready_of (by decide)))

theorem test_spopc_meets (h : Obligations.ScalarArithmetic) : Goes (exec (.spopc 8 0 false false) grp) :=
  goes_of (h.2.2.2.1 8 0 false false grp rfl (ready_of (by decide)))

theorem test_sempty_meets (h : Obligations.ScalarArithmetic) : Goes (exec (.sempty 8 0 false false) grp) :=
  goes_of (h.2.2.2.2 8 0 false false grp rfl (ready_of (by decide)) (by decide))

theorem test_pair_meets (h : Obligations.ScalarPair) : Goes (exec (.sadd64 8 0 2 false false) grp) :=
  goes_of (h _ (List.Mem.head _) 8 0 2 false false grp rfl (ready_of (by decide)))

theorem test_imm_meets (h : Obligations.ScalarImmediate) : Goes (exec (.saddi 8 0 5) grp) :=
  goes_of (h.1 _ (List.Mem.head _) 8 0 5 grp rfl (ready_of (by decide)))

theorem test_limm_meets (h : Obligations.ScalarImmediate) : Goes (exec (.limm 8 5) grp) :=
  goes_of (h.2.1 8 5 grp rfl (ready_of (by decide)))

theorem test_setm_meets (h : Obligations.ScalarImmediate) : Goes (exec (.setm 5) grp) :=
  goes_of (h.2.2 5 grp rfl (ready_of (by decide)))


theorem test_bra_meets (h : Obligations.UniformBranches) : Goes (exec (.bra 2) grp) :=
  goes_of (h.1.1 2 grp rfl (ready_of (by decide)))

theorem test_call_meets (h : Obligations.UniformBranches) : Goes (exec (.call 2) grp) :=
  goes_of (h.1.2.1 2 grp rfl (ready_of (by decide)))

theorem test_nop_meets (h : Obligations.UniformBranches) : Goes (exec .nop grp) :=
  goes_of (h.1.2.2 grp (ready_of (by decide)))

theorem test_beqz_meets (h : Obligations.UniformBranches) : Goes (exec (.beqz 8 0xFFFF) grp) :=
  goes_of (h.2.1 _ (List.Mem.head _) 8 0xFFFF grp rfl (ready_of (by decide)))

theorem test_bany_meets (h : Obligations.UniformBranches) : Goes (exec (.bany 1 2) grp) :=
  goes_of (h.2.2 _ (List.Mem.head _) 1 2 grp rfl (ready_of (by decide)))

theorem test_jmpr_meets (h : Obligations.JumpYieldExit) : Goes (exec (.jmpr 8 false false) grp) :=
  goes_of (h.1.1 8 false false grp rfl (ready_of (by decide)) (by decide))

theorem test_callr_meets (h : Obligations.JumpYieldExit) : Goes (exec (.callr 8 false false) grp) :=
  goes_of (h.1.2.1 8 false false grp rfl (ready_of (by decide)) (by decide))

theorem test_ret_meets (h : Obligations.JumpYieldExit) : Goes (exec .ret grp) :=
  goes_of (h.1.2.2.1 grp (ready_of (by decide)) (by decide))

/-- The loaded group with a trap entry. -/
def handled : State := { grp with cur := (grp.cur.put32 (.b false 56) 0x200000).put32 (.b false 57) 0 }

theorem test_jmpr_misaligned_meets (h : Obligations.JumpYieldExit) : Goes (exec (.jmpr 66 false false) handled) :=
  ⟨_, h.1.2.2.2 _ (List.Mem.head _) 66 false false handled rfl (ready_of (by decide)) (by decide) rfl (by decide) (by decide)
    (by decide)⟩

/-- The loaded group with p1 set in lanes 0 to 31. -/
def half : State := { grp with cur := { grp.cur with p := vset grp.cur.p 1 0xFFFFFFFF#96 } }

/-- The same with an open region. -/
def opened : State :=
  { half with cur := { half.cur with armA := { half.cur.armA with dstk := [⟨0x100040, 0, false, false⟩] } } }

theorem test_brd_none_meets (h : Obligations.DivergentBranch) : Goes (exec (.brd 2 4) half) :=
  goes_of ((h _ (List.Mem.head _) 2 4 half rfl (ready_of (by decide))).1 (by decide))

theorem test_brd_all_meets (h : Obligations.DivergentBranch) : Goes (exec (.brd 0 4) half) :=
  goes_of ((h _ (List.Mem.head _) 0 4 half rfl (ready_of (by decide))).2.1 (by decide) (by decide))

theorem test_brd_split_meets (h : Obligations.DivergentBranch) : Goes (exec (.brd 1 4) opened) :=
  goes_of ((h _ (List.Mem.head _) 1 4 opened rfl (ready_of (by decide))).2.2.1 (by decide) (by decide) rfl (by decide) rfl)

/-- The same with the other arm occupied. -/
def both : State := { opened with cur := { opened.cur with armB := { Arm.free with occ := true, splitOff := true } } }

theorem test_brd_push_meets (h : Obligations.DivergentBranch) : Goes (exec (.brd 1 4) both) :=
  goes_of ((h _ (List.Mem.head _) 1 4 both rfl (ready_of (by decide))).2.2.2 (by decide) (by decide) rfl (by decide) rfl
    (by decide) (by decide))

/-- The loaded group with a divergence stack. -/
def stk (ds : List DivRec) : State := { grp with cur := { grp.cur with armA := { grp.cur.armA with dstk := ds } } }

theorem test_divr_meets (h : Obligations.DivergenceStack) : Goes (exec (.divr 5) grp) :=
  goes_of (h.1.1 5 grp rfl (ready_of (by decide)) rfl (by decide) (by decide))

theorem test_divr_spill_meets (h : Obligations.DivergenceStack) :
    Goes (exec (.divr 5) (stk (List.replicate 4 ⟨0x100000, 3, false, false⟩))) :=
  goes_of (h.1.2.1 5 _ _ _ _ _ rfl (ready_of (by decide)) rfl rfl (by decide))

theorem test_rcv_pop_meets (h : Obligations.DivergenceStack) : Goes (exec .rcv (stk [⟨0x100000, 3, false, false⟩])) :=
  goes_of (h.1.2.2.1 3 [] _ (ready_of (by decide)) rfl rfl (by decide) rfl)

/-- The same with one more record in memory. -/
def deepStk : State :=
  let s := stk [⟨0x100000, 3, false, false⟩]
  { s with cur := { s.cur with armA := { s.cur.armA with deep := 1 } } }

theorem test_rcv_refill_meets (h : Obligations.DivergenceStack) : Goes (exec .rcv deepStk) :=
  goes_of (h.1.2.2.2.1 3 [] 0 deepStk (ready_of (by decide)) rfl rfl rfl (by decide))

theorem test_rcv_side_meets (h : Obligations.DivergenceStack) :
    Goes (exec .rcv (stk [⟨0x100080, 3, true, false⟩, ⟨0x100000, 0, false, false⟩])) :=
  goes_of (h.1.2.2.2.2.1 0x100080 3 0 0x100000 false [] _ (ready_of (by decide)) rfl rfl (by decide) rfl)

theorem test_rcv_seq_meets (h : Obligations.DivergenceStack) : Goes (exec .rcv sqr) :=
  goes_of (h.1.2.2.2.2.2 .rcv sqr (.inl rfl) (ready_of (by decide)) rfl)

theorem test_rcv_wait_meets (h : Obligations.DivergenceStack) : Goes (exec .rcv (stk [⟨0x100000, 0, false, true⟩])) :=
  goes_of ((h.2.1 0 [] _ (ready_of (by decide)) rfl rfl (by decide) rfl).1 (by decide))

/-- The arm that opened a region at its RCV, with a partner. -/
def pair (b : Arm) : State :=
  let s := stk [⟨0x100000, 0, false, true⟩]
  { s with cur := { s.cur with armB := b } }

theorem test_rcv_merge_meets (h : Obligations.DivergenceStack) :
    Goes (exec .rcv (pair { Arm.free with occ := true, splitOff := true, ws := .rcv, pc := 0x100000 })) :=
  goes_of ((h.2.1 0 [] _ (ready_of (by decide)) rfl rfl (by decide) rfl).2 rfl rfl rfl rfl rfl (fun _ => by simp [pair, stk, grp,
    State.boot, bootGroup, Group.idle]))

/-- The arm split off, whose partner has not come to the RCV. -/
def splitArm : State :=
  { grp with cur := { grp.cur with
    armA := { grp.cur.armA with splitOff := true }
    armB := { Arm.free with occ := true, dstk := [⟨0x100000, 0, false, true⟩] } } }

theorem test_rcv_first_meets (h : Obligations.DivergenceStack) : Goes (exec .rcv splitArm) :=
  goes_of (h.2.2 0 [] splitArm (ready_of (by decide)) rfl rfl rfl rfl rfl (by decide))

theorem test_yld_meets (h : Obligations.JumpYieldExit) : Goes (exec (.yld 1) grp) :=
  goes_of (h.2.1 1 grp rfl (ready_of (by decide)) rfl)

theorem test_exit_meets (h : Obligations.JumpYieldExit) : Goes (exec (.exit 64 false false) grp) :=
  goes_of (h.2.2.1 64 false false grp rfl (ready_of (by decide)) rfl (by decide))

theorem test_exit_seq_meets (h : Obligations.JumpYieldExit) : Goes (exec (.exit 64 false false) sqr) :=
  goes_of (h.2.2.2 64 false false sqr 0 rfl (ready_of (by decide)) rfl)

theorem test_trap_meets (h : Obligations.TrapTaking) : Goes (exec (.trap 69 false false) handled) :=
  ⟨_, h.1.1 69 false false handled rfl (ready_of (by decide)) rfl (by decide) (by decide) (by decide)⟩

theorem test_bkpt_meets (h : Obligations.TrapTaking) : Goes (exec .bkpt handled) :=
  ⟨_, h.1.2.1 handled (ready_of (by decide)) rfl (by decide) (by decide) (by decide) (by decide)⟩

theorem test_reserved_meets (h : Obligations.TrapTaking) : Goes (exec .reservedEncoding { handled with ev := [0, 1] }) :=
  ⟨_, h.1.2.2 0 1 _ (ready_of (by decide)) rfl (by decide) rfl (by decide) (by decide) (by decide)⟩


/-- Tags by an evaluated check. -/
theorem tagged_of {g : Group} {rs : List Nat} (h : (rs.all fun n => g.tag n == g.et || g.tag n == 0) = true) :
    Claims.Tagged g rs := fun n hn => by simpa using List.all_eq_true.mp h n hn

theorem test_vadd_meets (h : Obligations.VectorIntegerBits) : Goes (exec (.vadd 2 3 4 false false) (md 0x2001)) :=
  goes_of (h.1 _ (List.Mem.head _) 2 3 4 false false (md 0x2001) rfl (ready_of (by decide)) rfl (by decide) (by decide) (tagged_of (by decide)))

theorem test_vand_meets (h : Obligations.VectorIntegerBits) : Goes (exec (.vand 2 3 4 false false) (md 0x2001)) :=
  goes_of (h.2.1 _ (List.Mem.head _) 2 3 4 false false (md 0x2001) rfl (ready_of (by decide)) rfl (by decide) (by decide))

theorem test_vmov_meets (h : Obligations.VectorIntegerBits) : Goes (exec (.vmov 2 3 false false) (md 0x2001)) :=
  goes_of (h.2.2 _ (List.Mem.head _) 2 3 false false (md 0x2001) rfl (ready_of (by decide)) rfl (by decide) (by decide) (fun x => nomatch x))

theorem test_vcmp_meets (h : Obligations.VectorCompare) : Goes (exec (.vcmpEq 1 3 4 false false) (md 0x2001)) :=
  goes_of (h.1 _ (List.Mem.head _) 1 3 4 false false (md 0x2001) rfl (ready_of (by decide)) rfl (by decide) (by decide) (tagged_of (by decide)))

theorem test_vfcmp_meets (h : Obligations.VectorCompare) : Goes (exec (.vfcmpEq 1 3 4 false false) (md 0x2006)) :=
  goes_of (h.2 _ (List.Mem.head _) 1 3 4 false false (md 0x2006) rfl (ready_of (by decide)) rfl (by decide) (by decide) (tagged_of (by decide)))

theorem test_vfadd_meets (h : Obligations.VectorFloat) : Goes (exec (.vfadd 2 3 4 false false) (md 0x2006)) :=
  goes_of (h.1 _ (List.Mem.head _) 2 3 4 false false (md 0x2006) rfl (ready_of (by decide)) rfl (by decide) (by decide) (by decide) (tagged_of (by decide)))

theorem test_vdot_meets (h : Obligations.VectorFloat) : Goes (exec (.vdot 2 3 4 false false) (md 0x2007)) :=
  goes_of (h.2 2 3 4 false false (md 0x2007) rfl (ready_of (by decide)) rfl (by decide) (by decide) (by decide) (tagged_of (by decide)) (by decide))

theorem test_vrcp_meets (h : Obligations.VectorSpecialConvert) : Goes (exec (.vrcp 2 3 false false) (md 0x2006)) :=
  let ⟨t, _, x⟩ := h.1 _ (List.Mem.head _) 2 3 false false (md 0x2006) rfl (ready_of (by decide)) rfl (by decide) (by decide) (by decide) (tagged_of (by decide))
  ⟨t, x.1⟩

theorem test_vcvt_meets (h : Obligations.VectorSpecialConvert) : Goes (exec (.vcvt 2 3 false false) (md 0x2006)) :=
  goes_of (h.2.1 _ (List.Mem.head _) 2 3 false false (md 0x2006) rfl (ready_of (by decide)) rfl (by decide) (by decide) (by decide) (by decide))

theorem test_vpack_meets (h : Obligations.VectorSpecialConvert) : Goes (exec (.vpack 2 3 4 false false) (md 0x2007)) :=
  goes_of (h.2.2.1 2 3 4 false false (md 0x2007) rfl (ready_of (by decide)) rfl (by decide) (by decide) (by decide) (by decide) (by decide))

theorem test_vqnt_meets (h : Obligations.VectorSpecialConvert) : Goes (exec (.vqnt 2 4 8 false false) (md 0x2009)) :=
  goes_of (h.2.2.2.1 2 4 8 false false (md 0x2009) rfl (ready_of (by decide)) rfl (by decide) (by decide) (by decide) (by decide))

theorem test_vdqnt_meets (h : Obligations.VectorSpecialConvert) : Goes (exec (.vdqnt 2 4 8 false false) (md 0x2006)) :=
  goes_of (h.2.2.2.2.1 2 4 8 false false (md 0x2006) rfl (ready_of (by decide)) rfl (by decide) (by decide) rfl (by decide) (by decide))

theorem test_vfclass_meets (h : Obligations.VectorSpecialConvert) : Goes (exec (.vfclass 2 4 false false) (md 0x2006)) :=
  goes_of (h.2.2.2.2.2 2 4 false false (md 0x2006) rfl (ready_of (by decide)) rfl (by decide) (by decide) (tagged_of (by decide)))

theorem test_vshuf_meets (h : Obligations.VectorLaneOps) : Goes (exec (.vshuf 2 3 4 false false) (md 0x2001)) :=
  goes_of (h.1.1 2 3 4 false false (md 0x2001) rfl (ready_of (by decide)) rfl (by decide) (by decide) (tagged_of (by decide)))

theorem test_vrot_meets (h : Obligations.VectorLaneOps) : Goes (exec (.vrot 2 3 8 false false) (md 0x2001)) :=
  goes_of (h.1.2.1 2 3 8 false false (md 0x2001) rfl (ready_of (by decide)) rfl (by decide) (by decide) (tagged_of (by decide)))

theorem test_vrdl_meets (h : Obligations.VectorLaneOps) : Goes (exec (.vrdl 8 3 9 false false) (md 0x2001)) :=
  goes_of (h.1.2.2.1 8 3 9 false false (md 0x2001) rfl (ready_of (by decide)) rfl (by decide) (by decide) (tagged_of (by decide)))

theorem test_vwrl_meets (h : Obligations.VectorLaneOps) : Goes (exec (.vwrl 2 8 9 false false) (md 0x2001)) :=
  goes_of (h.1.2.2.2.1 2 8 9 false false (md 0x2001) rfl (ready_of (by decide)) rfl (by decide) (by decide))

theorem test_vlane_meets (h : Obligations.VectorLaneOps) : Goes (exec (.vlane 2 false false) (md 0x2001)) :=
  goes_of (h.1.2.2.2.2.1 2 false false (md 0x2001) rfl (ready_of (by decide)) rfl (by decide) (by decide) (by decide))

theorem test_vbcast_meets (h : Obligations.VectorLaneOps) : Goes (exec (.vbcast 2 8 false false) (md 0x2001)) :=
  goes_of (h.1.2.2.2.2.2.1 2 8 false false (md 0x2001) rfl (ready_of (by decide)) rfl (by decide) (by decide))

theorem test_vballot_meets (h : Obligations.VectorLaneOps) : Goes (exec (.vballot 1 3 false false) (md 0x2001)) :=
  goes_of (h.1.2.2.2.2.2.2.1 1 3 false false (md 0x2001) rfl (ready_of (by decide)) rfl (by decide) (by decide) (tagged_of (by decide)))

theorem test_vcompact_meets (h : Obligations.VectorLaneOps) : Goes (exec (.vcompact 2 3 1 false false) (md 0x2001)) :=
  goes_of (h.1.2.2.2.2.2.2.2 2 3 1 false false (md 0x2001) rfl (ready_of (by decide)) rfl (by decide) (by decide) (tagged_of (by decide)))

theorem test_vred_meets (h : Obligations.VectorLaneOps) : Goes (exec (.vred 8 3 false false) (md 0x2001)) :=
  goes_of (h.2.1 8 3 false false (md 0x2001) rfl (ready_of (by decide)) rfl (by decide) (by decide) (by decide) (tagged_of (by decide)))

theorem test_vscan_meets (h : Obligations.VectorLaneOps) : Goes (exec (.vscan 2 3 false false) (md 0x2001)) :=
  goes_of (h.2.2 2 3 false false (md 0x2001) rfl (ready_of (by decide)) rfl (by decide) (by decide) (by decide) (tagged_of (by decide)))

theorem test_pand_meets (h : Obligations.PredicateOps) : Goes (exec (.pand 1 2 3 false false) (md 0x2001)) :=
  goes_of (h.1 _ (List.Mem.head _) 1 2 3 false false (md 0x2001) rfl (ready_of (by decide)) rfl)

theorem test_pnot_meets (h : Obligations.PredicateOps) : Goes (exec (.pnot 1 2 false false) (md 0x2001)) :=
  goes_of (h.2.1 _ (List.Mem.head _) 1 2 false false (md 0x2001) rfl (ready_of (by decide)) rfl)

theorem test_pfroms_meets (h : Obligations.PredicateOps) : Goes (exec (.pfroms 1 8 false false) (md 0x2001)) :=
  goes_of (h.2.2.1 1 8 false false (md 0x2001) rfl (ready_of (by decide)) rfl)

theorem test_ptos_meets (h : Obligations.PredicateOps) : Goes (exec (.ptos 8 1 false false) (md 0x2001)) :=
  goes_of (h.2.2.2 8 1 false false (md 0x2001) rfl (ready_of (by decide)) rfl)

theorem test_expr_meets (h : Obligations.ExpressionEval) : Goes (exec (.expr 2 4 6 5 false false 0xBE210) (md 0x2001)) :=
  goes_of (h 2 4 6 5 false false 0xBE210 (md 0x2001) rfl (ready_of (by decide)) rfl (by decide) (by decide) (by decide) (by decide) (tagged_of (by decide)))

/-! #### Memory -/

/-- Only lane 0 takes part: MODE with the guard p1, which holds it alone. -/
def one (m : W32) : State :=
  { grp with cur := { grp.cur with armA := { grp.cur.armA with mode := m ||| 0x100 }, p := vset grp.cur.p 1 1#96 } }

/-- A register's word put. -/
def put (s : State) (r : RegId) (x : W32) : State := { s with cur := s.cur.put32 r x }

/-- The translation of the mapped page. -/
def ent : TlbEntry :=
  { die := 0, troot := 0x10000, base := 0, psize := 2, pte := 217, pteAt := 0x18000, incarn := 0, core := some (0, false) }

/-- The same as a sequencer finds it: its die's (R78). -/
def entSeq : TlbEntry := { ent with core := none }

/-- The place of lane 0 at an address of the mapped page. -/
def hit (a : Nat) : Hit := ⟨0, .dev a, .dev (a + 4), some ent, w64 a⟩

/-- With a store of the group on its way. -/
def storing (s : State) : State := { s with flight := [.store s.cur.who []] }

/-- With a contribution of the group on its way. -/
def reducing : State := { grp with flight := [.drain grp.cur.tid] }

/-- A barrier of four with a phase counted. -/
def barred (passed : Nat) : State :=
  { grp with cur := { grp.cur with bar := { grp.cur.bar with n := 4, b := passed }, phases := [1] } }

/-- An arm whose wait is over. -/
def resumed (s : State) (ws : WState) : State :=
  { s with cur := { s.cur with armA := { s.cur.armA with replay := true, ws := ws } } }


theorem test_ld_meets (h : Obligations.Loads) : Goes (exec (.ld 2 4 0 2 5) (one 1)) :=
  (let ⟨t, _, x⟩ := h.1 _ (List.Mem.head _) 2 4 0 2 5 (one 1) [hit 20] rfl (ready_of (by decide)) rfl (by decide) (by decide) (by decide); ⟨t, x.1⟩)

theorem test_ldaq_meets (h : Obligations.Loads) : Goes (exec (.ldaqVector 2 4 0 3 5) (one 1)) :=
  (let ⟨t, _, x⟩ := h.1 _ (List.Mem.tail _ (List.Mem.tail _ (List.Mem.head _))) 2 4 0 3 5 (one 1) [hit 40] rfl (ready_of (by decide)) rfl (by decide) (by decide) (by decide); ⟨t, x.1⟩)

theorem test_lds_meets (h : Obligations.Loads) : Goes (exec (.lds 8 0 0 2 5) grp) :=
  goes_of (h.2 _ (List.Mem.head _) 8 0 0 2 5 grp (hit 20) rfl (ready_of (by decide)) (by decide) (by decide))

theorem test_st_meets (h : Obligations.StoreForms) : Goes (exec (.st 2 4 0 2 5) (one 1)) :=
  (let ⟨t, x, _⟩ := h.1.1 _ (List.Mem.head _) 2 4 0 2 5 (one 1) [hit 20] rfl (ready_of (by decide)) rfl (by decide) (by decide) (by decide); ⟨t, x⟩)

theorem test_sts_meets (h : Obligations.StoreForms) : Goes (exec (.sts 8 0 0 2 5) grp) :=
  (let ⟨t, x, _⟩ := h.1.2 8 0 0 2 5 grp [hit 20] rfl (ready_of (by decide)) (by decide) (by decide); ⟨t, x⟩)

theorem test_strl_goes_meets (h : Obligations.StoreForms) : Goes (exec (.strlVector 2 4 0 2 5) (one 1)) :=
  (let ⟨t, x, _⟩ := (h.2.1 2 4 0 2 5 (one 1) [hit 20] rfl (ready_of (by decide)) rfl (by decide) (by decide)).1 (by decide) (by decide) (by decide); ⟨t, x⟩)

theorem test_strl_waits_meets (h : Obligations.StoreForms) : Goes (exec (.strlVector 2 4 0 2 5) (storing (one 1))) :=
  goes_of ((h.2.1 2 4 0 2 5 (storing (one 1)) [] rfl (ready_of (by decide)) rfl (by decide) (by decide)).2 (by decide) (no_trap (by decide)))

theorem test_strls_goes_meets (h : Obligations.StoreForms) : Goes (exec (.strlScalar 8 0 0 2 5) grp) :=
  (let ⟨t, x, _⟩ := (h.2.2 8 0 0 2 5 grp [hit 20] rfl (ready_of (by decide)) (by decide)).1 (by decide) (by decide) (by decide); ⟨t, x⟩)

theorem test_strls_waits_meets (h : Obligations.StoreForms) : Goes (exec (.strlScalar 8 0 0 2 5) (storing grp)) :=
  goes_of ((h.2.2 8 0 0 2 5 (storing grp) [] rfl (ready_of (by decide)) (by decide)).2 (by decide) (no_trap (by decide)))

theorem test_atom_meets (h : Obligations.Atomics) : Goes (exec (.atomAdd 2 4 6 false false) (one 1)) :=
  goes_of (h.1.1 _ (List.Mem.head _) 2 4 6 0 0 false false (one 1) (hit 0) rfl (ready_of (by decide)) rfl (by decide) (by decide) (fun _ => tagged_of (by decide)) (by decide) (by decide) ⟨by decide, rfl, by decide, fun p e => by cases e; decide⟩)

theorem test_acas_meets (h : Obligations.Atomics) : Goes (exec (.acasVector 2 4 6 false false) (one 1)) :=
  goes_of (h.1.2 2 4 6 0 0 false false (one 1) (hit 0) rfl (ready_of (by decide)) rfl (by decide) (by decide) (by decide) (by decide) ⟨by decide, rfl, by decide, fun p e => by cases e; decide⟩)

theorem test_atoms_meets (h : Obligations.Atomics) : Goes (exec (.atomsAdd 8 0 10 false false) (md 1)) :=
  goes_of (h.2.1 _ (List.Mem.head _) 8 0 10 0 false false (md 1) (hit 0) rfl (ready_of (by decide)) (by decide) (by decide) (by decide) ⟨by decide, rfl, by decide, fun p e => by cases e; decide⟩)

theorem test_atoms_i64_meets (h : Obligations.Atomics) : Goes (exec (.atomsAdd 8 0 10 false false) (md 11)) :=
  goes_of (h.2.1 _ (List.Mem.head _) 8 0 10 0 false false (md 11) (hit 0) rfl (ready_of (by decide)) (by decide) (by decide) (by decide) ⟨by decide, rfl, by decide, fun p e => by cases e; decide⟩)

theorem test_acass_meets (h : Obligations.Atomics) : Goes (exec (.acasScalar 8 0 10 false false) (md 1)) :=
  goes_of (h.2.2 8 0 10 0 false false (md 1) (hit 0) rfl (ready_of (by decide)) rfl (by decide) (by decide) (by decide) ⟨by decide, rfl, by decide, fun p e => by cases e; decide⟩)

theorem test_red_meets (h : Obligations.Reductions) : Goes (exec (.redAdd 4 6 false false) (one 1)) :=
  (let ⟨t, _, x⟩ := h _ (List.Mem.head _) 4 6 false false (one 1) [hit 0] rfl (ready_of (by decide)) rfl (by decide) (by decide) (fun _ => tagged_of (by decide)) (by decide) (by decide) (by decide) (by decide) rfl rfl; ⟨t, x.1⟩)

theorem test_pref_meets (h : Obligations.CacheFlushFence) : Goes (exec (.pref 0 10 false false) (put grp (.s 10) 128)) :=
  goes_of ((h.1.1 0 10 false false (put grp (.s 10) 128) rfl (ready_of (by decide)) rfl).2 (by decide) (by decide) (by decide)
    (by decide))

theorem test_pref_empty_meets (h : Obligations.CacheFlushFence) : Goes (exec (.pref 0 10 false false) grp) :=
  goes_of ((h.1.1 0 10 false false grp rfl (ready_of (by decide)) rfl).1 (.inr (.inl rfl)))

theorem test_wbk_meets (h : Obligations.CacheFlushFence) : Goes (exec (.wbk 0 10 false false) (put grp (.s 10) 128)) :=
  goes_of ((h.1.2.1 _ (List.Mem.head _) 0 10 false false (put grp (.s 10) 128) rfl (ready_of (by decide)) rfl (by decide)).2
    (by decide) (by decide) (by decide))

theorem test_wbk_empty_meets (h : Obligations.CacheFlushFence) : Goes (exec (.wbk 0 10 false false) grp) :=
  goes_of ((h.1.2.1 _ (List.Mem.head _) 0 10 false false grp rfl (ready_of (by decide)) rfl (by decide)).1 (.inl rfl))

theorem test_disc_empty_meets (h : Obligations.CacheFlushFence) : Goes (exec (.disc 0 10 false false) grp) :=
  goes_of ((h.1.2.2 0 10 false false grp grp rfl (ready_of (by decide)) rfl).1 (by decide) (.inl rfl))

theorem test_disc_meets (h : Obligations.CacheFlushFence) : Goes (exec (.disc 0 10 false false) (put grp (.s 10) 128)) :=
  goes_of ((h.1.2.2 0 10 false false (put grp (.s 10) 128) _ rfl (ready_of (by decide)) rfl).2 (by decide) (by decide) (by decide) (by decide) (by decide) rfl)

theorem test_rflush_goes_meets (h : Obligations.CacheFlushFence) : Goes (exec (.rflush 8 false false) grp) :=
  goes_of ((h.2.1 8 false false grp rfl (ready_of (by decide)) rfl).1 (by decide) (by decide))

theorem test_rflush_waits_meets (h : Obligations.CacheFlushFence) : Goes (exec (.rflush 8 false false) reducing) :=
  goes_of ((h.2.1 8 false false reducing rfl (ready_of (by decide)) rfl).2.2 (by decide))

/-- A group of a launch of two groups, whose other group has not closed the epoch. -/
def epoch : State :=
  let s := put grp (.s 8) 1
  let c : Group := { s.cur with eff := { s.cur.eff with det := true }, ngroups := 2, launchId := 1 }
  { s with cur := c, others := [{ c with tid := 2 }] }

theorem test_rflush_epoch_meets (h : Obligations.CacheFlushFence) : Goes (exec (.rflush 8 false false) epoch) :=
  goes_of ((h.2.1 8 false false epoch rfl (ready_of (by decide)) rfl).2.1 (by decide) (by decide) (by decide))

theorem test_fence_goes_meets (h : Obligations.CacheFlushFence) : Goes (exec (.fence false false 2 1 1) grp) :=
  goes_of ((h.2.2 false false 2 1 1 grp rfl (ready_of (by decide)) (by decide)).1 (.inr (by decide)))

theorem test_fence_idle_meets (h : Obligations.CacheFlushFence) : Goes (exec (.fence false false 2 0 1) (storing grp)) :=
  goes_of ((h.2.2 false false 2 0 1 (storing grp) rfl (ready_of (by decide)) (by decide)).1 (.inl (by decide)))

theorem test_fence_waits_meets (h : Obligations.CacheFlushFence) : Goes (exec (.fence false false 2 1 1) (storing grp)) :=
  ⟨_, (h.2.2 false false 2 1 1 (storing grp) rfl (ready_of (by decide)) (by decide)).2 (by decide) (by decide)⟩

theorem test_bari_meets (h : Obligations.Barriers) : Goes (exec (.bari 8 10 false false) (put grp (.s 10) 4)) :=
  goes_of ((h.1 8 10 false false (put grp (.s 10) 4) rfl (ready_of (by decide)) rfl rfl (by decide) (by decide) (by decide)
    (by decide)).1 (by decide))

theorem test_bari_same_meets (h : Obligations.Barriers) : Goes (exec (.bari 8 10 false false) (put (barred 0) (.s 10) 4)) :=
  goes_of ((h.1 8 10 false false (put (barred 0) (.s 10) 4) rfl (ready_of (by decide)) rfl rfl (by decide) (by decide) (by decide)
    (by decide)).2 (by decide))

theorem test_bara_meets (h : Obligations.Barriers) : Goes (exec (.bara 8 10 false false) (put (barred 0) (.s 10) 1)) :=
  goes_of (h.2.1 _ (List.Mem.head _) 8 10 false false (put (barred 0) (.s 10) 1) (put (barred 0) (.s 10) 1).cur rfl (ready_of (by decide)) rfl rfl (by decide))

theorem test_bara_done_meets (h : Obligations.Barriers) : Goes (exec (.bara 8 10 false false) (resumed (barred 0) .arriving)) :=
  goes_of (h.2.2.1 8 10 false false (resumed (barred 0) .arriving) rfl rfl rfl)

theorem test_barw_done_meets (h : Obligations.Barriers) : Goes (exec (.barw 8 10 false false) (resumed (barred 1) .barrier)) :=
  goes_of (h.2.2.2.2.1 _ (List.Mem.head _) 8 10 false false (resumed (barred 1) .barrier) rfl rfl rfl rfl)

/-- An arm whose barrier's holder has gone. -/
def forsaken : State := { resumed handled .barrier with cur := (resumed handled .barrier).cur.mapMe fun m => { m with lost := true } }

theorem test_barw_lost_meets (h : Obligations.Barriers) : Goes (exec (.barw 8 10 false false) forsaken) :=
  ⟨_, h.2.2.2.1 _ (List.Mem.head _) 8 10 false false forsaken rfl rfl rfl rfl rfl rfl (by decide) (by decide) (by decide)⟩

theorem test_barw_goes_meets (h : Obligations.Barriers) : Goes (exec (.barw 8 10 false false) (barred 1)) :=
  goes_of ((h.2.2.2.2.2.1 8 10 false false (barred 1) (barred 1).cur rfl (ready_of (by decide)) rfl rfl (by decide) (by decide)).1 (by decide))

theorem test_barw_waits_meets (h : Obligations.Barriers) : Goes (exec (.barw 8 10 false false) (barred 0)) :=
  goes_of ((h.2.2.2.2.2.1 8 10 false false (barred 0) (barred 0).cur rfl (ready_of (by decide)) rfl rfl (by decide) (by decide)).2 (by decide))

theorem test_barq_meets (h : Obligations.Barriers) : Goes (exec (.barq 11 8 10 false false) (barred 0)) :=
  goes_of (h.2.2.2.2.2.2 11 8 10 false false (barred 0) (barred 0).cur rfl (ready_of (by decide)) rfl rfl (by decide))

theorem test_acopy_none_meets (h : Obligations.CopyTag) : Goes (exec (.acopy 8 0 10 false false) grp) :=
  goes_of ((h.1 _ (List.Mem.head _) 8 0 10 false false grp rfl (ready_of (by decide)) rfl).1 (.inl (by decide)))

theorem test_acopy_meets (h : Obligations.CopyTag) : Goes (exec (.acopy 8 0 10 false false) (put (put grp (.s 10) 4) (.s 8) 0x100)) :=
  goes_of ((h.1 _ (List.Mem.head _) 8 0 10 false false (put (put grp (.s 10) 4) (.s 8) 0x100) rfl (ready_of (by decide)) rfl).2.1 (by decide) (by decide) (by decide) (by decide) (by decide) (by decide) (by decide) (by decide) _ _ rfl rfl)

theorem test_acopy_misaligned_meets (h : Obligations.CopyTag) : Goes (exec (.acopy 8 0 10 false false) (put (put handled (.s 10) 4) (.s 0) 2)) :=
  ⟨_, (h.1 _ (List.Mem.head _) 8 0 10 false false (put (put handled (.s 10) 4) (.s 0) 2) rfl (ready_of (by decide)) rfl).2.2 (by decide) (by decide) (by decide) (by decide) (by decide) (by decide)⟩

theorem test_tagw_meets (h : Obligations.CopyTag) : Goes (exec (.tagw 2 8 false false) grp) :=
  goes_of (h.2 2 8 false false grp rfl (ready_of (by decide)) rfl (by decide) (by decide))

theorem test_touch_meets (h : Obligations.TranslationUse) :
    (grp.touchAll true [hit 0]).mem.rd 0x18000 8 = grp.mem.rd 0x18000 8 ||| 0xC0 :=
  (h grp true [hit 0]).2.2.2 (hit 0) ent rfl rfl (by decide) rfl

/-! #### Matrix -/

/-- The loaded group with MTX. -/
def mtx : State := { grp with cur := { grp.cur with info := { grp.cur.info with mtx := true } } }

/-- With a routine 0 that the group may request (R147). -/
def routined : State := { mtx with mem := mtx.mem.wr (mtx.routineAt mtx.cur.cluster 0 + 10) 1 1 }

/-- Tile 1 of the group's cluster owned by region 0, FP32, with one row and one column. -/
def tiled (s : State) : State := s.modTile s.cur.cluster 1 fun t => { t with owner := some 0, tag := 6, vr := 1, vc := 1 }

/-- A group whose token register is empty, which holds tile 1. -/
def holding : State :=
  { grp with cur := (grp.cur.mapMe fun m => { m with holds := [⟨0, .s 8, grp.cur.cluster, []⟩] }).setFull (.s 8) false }

/-- A drain descriptor at 0x100: FP32, no scales, no biases, pitch 4. -/
def draining : State :=
  let s := put (put (tiled grp) (.s 0) 0x100) (.s 8) 0x200
  { s with mem := (s.mem.wr 0x110 4 4).wr 0x114 1 6 }

/-- A TDRAIN whose rows are all written. -/
def drained : State :=
  { resumed grp .tdrain with cur := (resumed grp .tdrain).cur.mapMe fun m =>
      { m with drain := some ⟨0, 1, 6, 0, 1, [], [], 0, 0, [], 0⟩ } }

/-- A running sequencer with the mapped page. -/
def sqm : State :=
  { sqr with mem := grp.mem, cur := { sqr.cur with eff := { sqr.cur.eff with troot := 0x10000 } } }

/-- An FP32 walk with nothing fetched. -/
def walk (b : Bool) : Walk :=
  { src := 0, hnd := false, roleB := b, mcast := false, lastUse := false, ty := 6, nsp := 0, klen := 128, ldim := 0,
    mn := 1, blkstep := 0, metaBase := 0, coords := [], tensor := none, places := [], committed := false, poisoned := false,
    permits := 0, data := [], lines := [], delivered := 0, consumed := 0 }

/-- A sequencer with walks in slots 0 and 1. -/
def walked : State :=
  (put sqm (.s 11) 1).modCluster 0 fun c => { c with
    walks := (c.walks.set 0 (some (walk false))).set 1 (some (walk true)), tiles := c.tiles.set 1 { Tile.reset with tag := 6 } }

/-- A walk descriptor at 0x100: type 7, KLEN 32, one row. -/
def described : State :=
  let s := put sqm (.s 10) 0x100
  { s with mem := (((s.mem.wr 0x10A 1 7).wr 0x10C 4 32).wr 0x110 4 64).wr 0x114 2 1 }

/-- An engine with an operation to do. -/
def busy : State :=
  sqm.modCluster 0 fun c => { c with engine := [⟨.fill 0 6 0, false, 0, 1, 1, false, 0, 0, 0, []⟩] }

/-- A leader whose binding is complete. -/
def leads (used : Bool) : State := sqm.modCluster 0 fun c => { c with bound := [0], clustUsed := used }

/-- A group of a neighborhood of 24 cores from core (0, 0). -/
def member : Group := { grp.cur with info := { grp.cur.info with nbh := true, w := 6, h := 4 }, nbidx := 0 }

/-- The sequencer that runs a routine for it. -/
def asks : State :=
  let s := sqm.modCluster 0 fun c => { c with req := { c.req with who := member.who } }
  { s with others := [member] }


theorem test_mreq_meets (h : Obligations.GroupTileAccess) : Goes (exec (.mreq 8 10 12 false false) routined) :=
  (let ⟨t, _, x⟩ := (h.1.1 8 10 12 false false routined rfl (ready_of (by decide)) rfl).1 rfl (by decide) (by decide); ⟨t, x.1⟩)

theorem test_mreq_mtx_meets (h : Obligations.GroupTileAccess) : Goes (exec (.mreq 8 10 12 false false) handled) :=
  ⟨_, (h.1.1 8 10 12 false false handled rfl (ready_of (by decide)) rfl).2.1 rfl (by decide) (by decide) (by decide)⟩

theorem test_mreq_routine_meets (h : Obligations.GroupTileAccess) : Goes (exec (.mreq 8 10 12 false false) ({ handled with cur := { handled.cur with info := { handled.cur.info with mtx := true } } })) :=
  ⟨_, (h.1.1 8 10 12 false false ({ handled with cur := { handled.cur with info := { handled.cur.info with mtx := true } } }) rfl (ready_of (by decide)) rfl).2.2 rfl (by decide) (by decide) (by decide) (by decide)⟩

theorem test_trd_meets (h : Obligations.GroupTileAccess) : Goes (exec (.trd 2 1 8 false false) (tiled grp)) :=
  goes_of ((h.1.2 2 1 8 false false (tiled grp) rfl (ready_of (by decide)) rfl (by decide)).1 (by decide) (by decide) (by decide) (by decide))

theorem test_trd_owner_meets (h : Obligations.GroupTileAccess) : Goes (exec (.trd 2 1 8 false false) handled) :=
  ⟨_, (h.1.2 2 1 8 false false handled rfl (ready_of (by decide)) rfl (by decide)).2.1 (by decide) (by decide) (by decide) (by decide) (by decide)⟩

theorem test_trd_row_meets (h : Obligations.GroupTileAccess) : Goes (exec (.trd 2 1 8 false false) (put (tiled handled) (.s 8) 128)) :=
  ⟨_, (h.1.2 2 1 8 false false (put (tiled handled) (.s 8) 128) rfl (ready_of (by decide)) rfl (by decide)).2.2.1 (by decide) (by decide) (by decide) (by decide) (by decide) (by decide)⟩

theorem test_trd_last_row_meets (h : Obligations.GroupTileAccess) : Goes (exec (.trd 2 1 8 false false) (put (tiled grp) (.s 8) 127)) :=
  goes_of ((h.1.2 2 1 8 false false (put (tiled grp) (.s 8) 127) rfl (ready_of (by decide)) rfl (by decide)).1 (by decide) (by decide) (by decide) (by decide))

theorem test_trd_held_meets (h : Obligations.GroupTileAccess) : Goes (exec (.trd 2 1 9 false false) holding) :=
  ⟨_, (h.1.2 2 1 9 false false holding rfl (ready_of (by decide)) rfl (by decide)).2.2.2 (by decide)⟩

theorem test_twr_meets (h : Obligations.GroupTileAccess) : Goes (exec (.twr 2 1 8 false false) (tiled grp)) :=
  (let ⟨t, _, x⟩ := h.2.1 _ (List.Mem.head _) 2 1 8 false false (tiled grp) rfl (ready_of (by decide)) rfl (by decide) (by decide) (by decide) (by decide) (by decide) (by decide) (by decide); ⟨t, x.1⟩)

theorem test_twm_meets (h : Obligations.GroupTileAccess) : Goes (exec (.twm 2 1 8 false false) (tiled grp)) :=
  (let ⟨t, _, x⟩ := h.2.1 _ (List.Mem.tail _ (List.Mem.head _)) 2 1 8 false false (tiled grp) rfl (ready_of (by decide)) rfl (by decide) (by decide) (by decide) (by decide) (by decide) (by decide) (by decide); ⟨t, x.1⟩)

theorem test_tdrain_meets (h : Obligations.GroupTileAccess) : Goes (exec (.tdrain 8 1 0 false false) draining) :=
  (let ⟨t, _, x⟩ := h.2.2.1 8 1 0 false false draining (.dev 0x100) (.dev 0x104) (some ent) [] [] [hit 0x200] rfl (ready_of (by decide)) (by decide) (by decide) (by decide) (by decide) (by decide) (by decide) (by decide) (by decide) (by decide) (by decide) (by decide) (by decide) (by decide) (by decide) (by decide) (by decide) (by decide) (by decide) (by decide) (by decide) (by decide); ⟨t, x.1⟩)

theorem test_tdrain_done_meets (h : Obligations.GroupTileAccess) : Goes (exec (.tdrain 8 1 0 false false) drained) :=
  goes_of (h.2.2.2 8 1 0 false false drained ⟨0, 1, 6, 0, 1, [], [], 0, 0, [], 0⟩ rfl rfl rfl rfl (by decide))

theorem test_srdef_meets (h : Obligations.SequencerOperands) : Goes (exec (.srdef 10 11 false false) (put (put sqm (.s 10) 1) (.s 11) 0x580)) :=
  goes_of (h.1.1 10 11 false false (put (put sqm (.s 10) 1) (.s 11) 0x580) rfl (ready_of (by decide)) rfl (by decide) (by decide) (by decide))

theorem test_vcnt_meets (h : Obligations.SequencerOperands) : Goes (exec (.vcnt 10 11 false false) (put (put sqm (.s 10) 128) (.s 11) 1)) :=
  goes_of (h.1.2.1 10 11 false false (put (put sqm (.s 10) 128) (.s 11) 1) rfl (ready_of (by decide)) rfl (by decide) (by decide) (by decide) (by decide))

theorem test_scaleb_meets (h : Obligations.SequencerOperands) : Goes (exec (.scaleb 10 12 false false) sqm) :=
  goes_of (h.1.2.2.1 10 12 false false sqm rfl (ready_of (by decide)) rfl (by decide) (by decide))

theorem test_permit_meets (h : Obligations.SequencerOperands) : Goes (exec (.permit 10 11 false false) walked) :=
  goes_of ((h.1.2.2.2 10 11 false false walked (walk false) rfl (ready_of (by decide)) rfl (by decide) (by decide) rfl (by decide)).1 (by decide))

/-- The same with a full permit queue. -/
def permitted : State := walked.modCluster 0 fun c => { c with permq := List.replicate 32 (0, 1) }

theorem test_permit_stalls_meets (h : Obligations.SequencerOperands) : Goes (exec (.permit 10 11 false false) permitted) :=
  ⟨_, (h.1.2.2.2 10 11 false false permitted (walk false) rfl (ready_of (by decide)) rfl (by decide) (by decide) rfl (by decide)).2 (by decide)⟩

/-- The elements of the described walk: 32 of two bytes. -/
def walkHits : List Hit := (List.range 32).map fun k => ⟨2, .dev (2 * k), .dev (2 * k + 4), some entSeq, w64 (2 * k)⟩

theorem test_twalk_meets (h : Obligations.SequencerOperands) : Goes (exec (.twalk 12 10 false false) described) :=
  (let ⟨t, _, x⟩ := h.2 12 10 false false described (.dev 0x100) (.dev 0x104) (some entSeq) walkHits rfl (ready_of (by decide)) rfl (by decide) (fun x => absurd x (by decide)) (fun _ x => nomatch x) (by decide) rfl (by decide) (by decide) (by decide) (fun _ => ⟨by decide, fun x => nomatch x⟩) (by decide +kernel) rfl (by decide +kernel); ⟨t, x.1⟩)

theorem test_mma_meets (h : Obligations.MatrixMultiply) : Goes (exec (.mma 1 10 11 false false) walked) :=
  goes_of (h _ (List.Mem.head _) 1 10 11 false false walked (walk false) (walk true) .plusTimes rfl (ready_of (by decide)) rfl (by decide) (by decide) rfl rfl rfl rfl rfl rfl (by decide) (by decide) (by decide) rfl (by decide) (fun x => nomatch x) (by decide) (by decide) (by decide))

theorem test_tzero_meets (h : Obligations.TileEngine) : Goes (exec (.tzero 1 false false) sqm) :=
  goes_of (h.1 _ (List.Mem.head _) 1 0 false false sqm rfl (ready_of (by decide)) rfl (by decide) (by decide))

theorem test_tfill_meets (h : Obligations.TileEngine) : Goes (exec (.tfill 1 10 false false) sqm) :=
  goes_of (h.1 _ (List.Mem.tail _ (List.Mem.head _)) 1 10 false false sqm rfl (ready_of (by decide)) rfl (by decide) (by decide))

theorem storeDev_mdies (s : State) (pa n v : Nat) : (s.storeDev pa n v).mdies = s.mdies := by
  show (s.noteDirty pa).mdies = s.mdies
  unfold State.noteDirty
  dsimp only
  split <;> rfl

theorem cache_mdies (s : State) (e : TlbEntry) : (s.cache e).mdies = s.mdies := by
  unfold State.cache
  dsimp only
  split <;> rfl

theorem touch_mdies (s : State) (e : TlbEntry) (w : Bool) : (s.touch e w).mdies = s.mdies := by
  unfold State.touch
  dsimp only
  split
  · split
    · exact (storeDev_mdies (s.cache e) e.pteAt 8 ((s.cache e).mem.rd e.pteAt 8 ||| 0x80)).trans (cache_mdies s e)
    · exact cache_mdies s e
  · refine ((cache_mdies _ _).trans (cache_mdies _ _)).trans ?_
    exact storeDev_mdies s e.pteAt 8 (s.mem.rd e.pteAt 8 ||| (0x40 ||| if w then 0x80 else 0))

theorem touchAll_mdies (w : Bool) (hs : List Hit) : ∀ s : State, (s.touchAll w hs).mdies = s.mdies := by
  induction hs with
  | nil => exact fun _ => rfl
  | cons h t ih =>
    intro s
    refine (ih _).trans ?_
    show (match h.entry with | some e => if s.gone.contains e then s else s.touch e w | none => s).mdies = s.mdies
    split
    · split
      · rfl
      · exact touch_mdies ..
    · rfl

theorem tileErr_none {s : State} (h : ∀ pa, s.readErr (.dev pa) = none)
    (hs : List Hit) (hx : ∀ x ∈ hs, (∃ pa, x.lo = .dev pa) ∧ s.removedHit x = false) : s.tileErr (hitWords hs) = none := by
  refine List.findSome?_eq_none_iff.mpr fun x hxm => ?_
  obtain ⟨y, hy, hm⟩ := List.mem_flatMap.mp hxm
  obtain ⟨⟨pa, e⟩, r⟩ := hx y hy
  obtain ⟨z, hz, rfl⟩ := List.mem_map.mp hm
  obtain ⟨i, _, rfl⟩ := List.mem_map.mp hz
  simp only [State.copySource, r, e, Place.plus]
  rw [show s.readErr _ = none from h _]
  rfl

/-- The blocks of 128 rows of a tile at address 0, with a pitch of 0. -/
def rows : List Hit := List.replicate 128 ⟨512, .dev 0, .dev 4, some entSeq, 0⟩

theorem rows_dev (s : State) : ∀ x ∈ rows, (∃ pa, x.lo = .dev pa) ∧ s.removedHit x = false := fun x m => by
  rw [List.eq_of_mem_replicate m]
  exact ⟨⟨0, rfl⟩, rfl⟩

theorem sound_dies {s : State} (h : s.mdies = State.reset.mdies) (k : Nat) :
    (s.mdie k).damaged = [] ∧ (s.mdie k).fenced = false := by
  have r : State.reset.mdies.getD k .reset = MDie.reset := by
    show (List.replicate 6 MDie.reset).getD k .reset = .reset
    rw [List.getD_eq_getElem?_getD, List.getElem?_replicate]
    split <;> rfl
  rw [State.mdie, h, r]
  exact ⟨rfl, rfl⟩

theorem readErr_dev (hs : List Hit) (pa : Nat) : (sqm.touchAll false hs).readErr (.dev pa) = none := by
  simp [State.readErr, State.damaged, sound_dies (touchAll_mdies false hs sqm)]

theorem grp_sound (pa : Nat) : grp.damaged pa = false := by
  simp [State.damaged, sound_dies (rfl : grp.mdies = State.reset.mdies)]

set_option maxRecDepth 20000 in
theorem test_tload_meets (h : Obligations.TileEngine) : Goes (exec (.tload 1 10 12 false false) sqm) :=
  goes_of (h.2.1 1 10 12 false false sqm rows rfl (ready_of (by decide)) rfl (by decide) (by decide) (by decide) rfl (by decide)
    (fun x m => (rows_dev _ x m).2) (tileErr_none (readErr_dev _) _ (rows_dev _)))

set_option maxRecDepth 20000 in
theorem test_tstore_meets (h : Obligations.TileEngine) : Goes (exec (.tstore 1 10 12 false false) sqm) :=
  (let ⟨t, _, x⟩ := h.2.2 1 10 12 false false sqm rows rfl (ready_of (by decide)) rfl (by decide) (by decide) rfl (by decide)
    (fun x m => (rows_dev _ x m).2); ⟨t, x.1⟩)

theorem test_tsync_meets (h : Obligations.SequencerEnd) : Goes (exec (.tsync) sqm) :=
  goes_of ((h.1 sqm (ready_of (by decide)) rfl).1 (by decide))

theorem test_tsync_waits_meets (h : Obligations.SequencerEnd) : Goes (exec (.tsync) busy) :=
  ⟨_, (h.1 busy (ready_of (by decide)) rfl).2 (by decide)⟩

/-- The requester is DEAD. -/
def dies : State := sqm.modCluster 0 fun c => { c with req := { c.req with who := { c.req.who with tid := 999 } } }

theorem test_msig_meets (h : Obligations.SequencerEnd) : Goes (exec (.msig 10 false false) asks) :=
  goes_of ((h.2.1 10 false false asks rfl (ready_of (by decide)) rfl).1 (by decide) (by decide) (by decide))

theorem test_msig_dead_meets (h : Obligations.SequencerEnd) : Goes (exec (.msig 10 false false) dies) :=
  goes_of ((h.2.1 10 false false dies rfl (ready_of (by decide)) rfl).2.1 (by decide) (.inr (by decide)))

theorem test_msig_again_meets (h : Obligations.SequencerEnd) : Goes (exec (.msig 10 false false) (sqm.modCluster 0 fun c => { c with msigDone := true })) :=
  goes_of ((h.2.1 10 false false (sqm.modCluster 0 fun c => { c with msigDone := true }) rfl (ready_of (by decide)) rfl).2.1 (by decide) (.inl (by decide)))

theorem test_msig_waits_meets (h : Obligations.SequencerEnd) : Goes (exec (.msig 10 false false) busy) :=
  ⟨_, (h.2.1 10 false false busy rfl (ready_of (by decide)) rfl).2.2 (by decide)⟩

theorem test_clust_meets (h : Obligations.SequencerEnd) : Goes (exec (.clust) (leads false)) :=
  goes_of ((h.2.2 (leads false) (ready_of (by decide)) rfl).1 (by decide) (by decide) (by decide))

theorem test_clust_again_meets (h : Obligations.SequencerEnd) : Goes (exec (.clust) (leads true)) :=
  ⟨_, (h.2.2 (leads true) (ready_of (by decide)) rfl).2.2 (by decide) 0 rfl⟩

theorem asks_thread : asks.thread member.tid = some member := by
  have h : asks.threads = [asks.cur, member] := if_neg (by decide)
  rw [State.thread, h, List.find?_cons_of_neg (by decide), List.find?_cons_of_pos (by decide)]

theorem test_clust_binds_meets (h : Obligations.SequencerEnd) : Goes (exec (.clust) asks) :=
  goes_of ((h.2.2 asks (ready_of (by decide)) rfl).2.1 (by decide) (by decide) member [0, 1, 2, 4, 5, 6]
    (by rw [State.neighbour, show (asks.cluster asks.cur.cluster).req.who.tid = member.tid by decide, asks_thread])
    (by decide +kernel) rfl (by decide +kernel))

/-! #### Names, launches, skeins, watches, system -/

/-- A signal pending, a wake pending. -/
def pending : State := { grp with cur := { grp.cur with sigPend := 5, wakePend := true } }

/-- A group of a stage launch; its queue 0 with items. -/
def staged (items : List (List W32)) : State :=
  { grp with
    cur := { grp.cur with info := { grp.cur.info with stage := true, stageq := 0 } }
    stageqs := modAt (fun x => { x with items := items }) 0 grp.stageqs }

/-- A tensor of 4 elements, its record and its descriptor at 0x400. -/
def tensored : State :=
  let s := put grp (.s 8) 1
  { s with
    skeins := [{ Skein.free 1 with live := true, desc := 0x400 }]
    mem := ((((((((s.mem.wr 0x400 1 1).wr 0x401 1 1).wr 0x403 1 1).wr 0x404 4 4).wr 0x408 4 4).wr 0x40C 4 1).wr 0x410 4 1).wr
      0x414 4 1).wr 0x4000000020 8 0x10000 }

/-- A watch of region r. -/
def watch (r : Nat) : Watch := ⟨5, r, 0x1000, 0, 0, 1, r, 0, [(0x1000, 64, 0)], (List.range 6).map fun _ => .fresh false⟩

/-- A watch 5 of region r, its number in s8. -/
def watching (r : Nat) : State := { put grp (.s 8) 5 with watches := [watch r] }

/-- A watch entry at 0x100: one line at 0x1000. -/
def entered : State :=
  let s := put grp (.s 8) 0x100
  { s with mem := (s.mem.wr 0x100 8 0x1000).wr 0x118 4 1 }

/-- A change of coherence asked for page va under the mapped root. -/
def recoh (va : W32) : State := put (put grp (.s 8) va) (.s 10) 0x10000

/-- The page frozen. -/
def frozen : State := { recoh 0 with mem := (recoh 0).mem.wr 0x18000 8 (217 ||| 6) }

/-- A group of region 1 with a trap entry. -/
def ordinary : State := { handled with cur := { handled.cur with region := 1 } }

/-- A second group, resident. -/
def named (resident : Bool) : State :=
  let s := put (put grp (.s 8) 77) (.s 9) 0
  { s with others := [{ grp.cur with tid := 77, name := 77, resident := resident }] }


theorem test_wake_meets (h : Obligations.NameOperations) : Goes (exec (.wake 8 false false) grp) :=
  goes_of (h.1 _ (List.Mem.head _) 8 0 false false grp rfl (ready_of (by decide)) rfl rfl (by decide))

theorem test_sig_meets (h : Obligations.NameOperations) : Goes (exec (.sig 8 10 false false) (put grp (.s 10) 31)) :=
  goes_of (h.1 _ (List.Mem.tail _ (List.Mem.head _)) 8 10 false false (put grp (.s 10) 31) rfl (ready_of (by decide)) rfl rfl (by decide))

theorem test_sig_number_meets (h : Obligations.NameOperations) : Goes (exec (.sig 8 10 false false) (put handled (.s 10) 32)) :=
  ⟨_, h.1 _ (List.Mem.tail _ (List.Mem.head _)) 8 10 false false (put handled (.s 10) 32) rfl (ready_of (by decide)) rfl (by decide) (by decide) (by decide)⟩

theorem test_ngrant_meets (h : Obligations.NameOperations) : Goes (exec (.ngrant 8 10 false false) (put grp (.s 10) 31)) :=
  goes_of (h.1 _ (List.Mem.tail _ (List.Mem.tail _ (List.Mem.head _))) 8 10 false false (put grp (.s 10) 31) rfl (ready_of (by decide)) rfl rfl (by decide))

theorem test_ngrant_reserved_meets (h : Obligations.NameOperations) : Goes (exec (.ngrant 8 10 false false) (put handled (.s 10) 32)) :=
  ⟨_, h.1 _ (List.Mem.tail _ (List.Mem.tail _ (List.Mem.head _))) 8 10 false false (put handled (.s 10) 32) rfl (ready_of (by decide)) rfl (by decide) (by decide) (by decide)⟩

theorem test_depo_meets (h : Obligations.NameOperations) : Goes (exec (.depo 32 8 10 false false) grp) :=
  goes_of (h.2.1 32 8 10 false false grp rfl (ready_of (by decide)) rfl rfl (by decide))

theorem test_join_meets (h : Obligations.NameOperations) : Goes (exec (.join 8 10 false false) grp) :=
  goes_of ((h.2.2 8 10 false false grp rfl (ready_of (by decide)) rfl).1 (by decide) rfl (by decide))

theorem test_join_self_meets (h : Obligations.NameOperations) : Goes (exec (.join 8 10 false false) ({ handled with cur := { handled.cur with name := 0 } })) :=
  ⟨_, (h.2.2 8 10 false false ({ handled with cur := { handled.cur with name := 0 } }) rfl (ready_of (by decide)) rfl).2.2 (by decide) (by decide) (by decide) (by decide)⟩

/-- The loaded group with sixteen reads of tile rows not started. -/
def unstarted : State :=
  { grp with flight := List.replicate 16 (.trd grp.cur.who ⟨(0, 0), false, 0, 1, 0, 2, 1⟩) }

theorem test_join_stalls_meets (h : Obligations.NameOperations) : Goes (exec (.join 8 10 false false) unstarted) :=
  ⟨_, (h.2.2 8 10 false false unstarted rfl (ready_of (by decide)) rfl).2.1 (.inl (by decide)) (by decide)⟩

theorem test_sleep_meets (h : Obligations.WaitsAndTasks) : Goes (exec (.sleep) pending) :=
  goes_of ((h.1 pending (ready_of (by decide)) rfl).1 rfl)

theorem test_sleep_waits_meets (h : Obligations.WaitsAndTasks) : Goes (exec (.sleep) grp) :=
  ⟨_, (h.1 grp (ready_of (by decide)) rfl).2 rfl⟩

theorem test_sigw_meets (h : Obligations.WaitsAndTasks) : Goes (exec (.sigw 9 8 false false) (put pending (.s 8) 4)) :=
  goes_of ((h.2.1 9 8 false false (put pending (.s 8) 4) rfl (ready_of (by decide)) rfl).1 (by decide))

theorem test_sigw_waits_meets (h : Obligations.WaitsAndTasks) : Goes (exec (.sigw 9 8 false false) (put pending (.s 8) 2)) :=
  goes_of ((h.2.1 9 8 false false (put pending (.s 8) 2) rfl (ready_of (by decide)) rfl).2.1 (by decide) (by decide))

theorem test_sigw_mask_meets (h : Obligations.WaitsAndTasks) : Goes (exec (.sigw 9 8 false false) handled) :=
  ⟨_, (h.2.1 9 8 false false handled rfl (ready_of (by decide)) rfl).2.2 (by decide) (by decide) (by decide) (by decide)⟩

theorem test_launch_meets (h : Obligations.WaitsAndTasks) : Goes (exec (.launch 8 false false) (put grp (.s 8) 0x400)) :=
  (let ⟨t, _, x⟩ := h.2.2.1 8 false false (put grp (.s 8) 0x400) (hit 0x400) [] rfl (ready_of (by decide)) rfl (by decide) (by decide) (by decide) (by decide); ⟨t, x.1⟩)

theorem test_take_meets (h : Obligations.WaitsAndTasks) : Goes (exec (.take 8 false false) (staged [[1, 2, 3, 4]])) :=
  goes_of ((h.2.2.2.1 8 false false (staged [[1, 2, 3, 4]]) rfl (ready_of (by decide)) rfl).1 rfl _ _ rfl)

theorem test_take_waits_meets (h : Obligations.WaitsAndTasks) : Goes (exec (.take 8 false false) (staged [])) :=
  goes_of ((h.2.2.2.1 8 false false (staged []) rfl (ready_of (by decide)) rfl).2.1 rfl (by decide))

theorem test_take_stage_meets (h : Obligations.WaitsAndTasks) : Goes (exec (.take 8 false false) handled) :=
  ⟨_, (h.2.2.2.1 8 false false handled rfl (ready_of (by decide)) rfl).2.2 (by decide) (by decide) (by decide) (by decide)⟩

theorem test_post_meets (h : Obligations.WaitsAndTasks) : Goes (exec (.post 8 0 false false) grp) :=
  goes_of (h.2.2.2.2.1 8 0 false false grp [hit 0, hit 4, hit 8, hit 12] rfl (ready_of (by decide)) rfl (by decide) (by decide) (by decide) (by decide) (by decide) (by decide))

theorem test_qstat_meets (h : Obligations.WaitsAndTasks) : Goes (exec (.qstat 9 8 false false) (put grp (.s 8) 255)) :=
  goes_of (h.2.2.2.2.2.1 9 8 false false (put grp (.s 8) 255) rfl (ready_of (by decide)) rfl (by decide) (by decide))

theorem test_sleep_resumes_meets (h : Obligations.WaitsAndTasks) : Goes (exec (.sleep) (resumed grp .sleep)) :=
  goes_of ((h.2.2.2.2.2.2 9 8 false false (resumed grp .sleep)).1 rfl rfl rfl)

theorem test_sigw_resumes_meets (h : Obligations.WaitsAndTasks) : Goes (exec (.sigw 9 8 false false) (resumed grp .sigw)) :=
  goes_of ((h.2.2.2.2.2.2 9 8 false false (resumed grp .sigw)).2.1 rfl rfl rfl)

theorem test_take_resumes_meets (h : Obligations.WaitsAndTasks) : Goes (exec (.take 9 false false) (resumed grp .take)) :=
  goes_of ((h.2.2.2.2.2.2 9 8 false false (resumed grp .take)).2.2 rfl rfl rfl)

theorem test_hsplit_meets (h : Obligations.HandleOperations) : Goes (exec (.hsplit 10 8 false false) (put grp (.s 9) 0x04000000)) :=
  goes_of ((h.1.1 10 8 false false (put grp (.s 9) 0x04000000) rfl (ready_of (by decide)) rfl (by decide) (by decide) (by decide)).1 (by decide))

theorem test_hsplit_zero_meets (h : Obligations.HandleOperations) : Goes (exec (.hsplit 10 8 false false) grp) :=
  goes_of ((h.1.1 10 8 false false grp rfl (ready_of (by decide)) rfl (by decide) (by decide) (by decide)).2 (by decide))

theorem test_hmerge_meets (h : Obligations.HandleOperations) : Goes (exec (.hmerge 10 8 false false) (put (put grp (.s 9) 0xF4000000) (.s 11) 0xF4000000)) :=
  goes_of (h.1.2.1 10 8 false false (put (put grp (.s 9) 0xF4000000) (.s 11) 0xF4000000) rfl (ready_of (by decide)) rfl (by decide) (by decide) (by decide) (by decide))

theorem test_hdrop_null_meets (h : Obligations.HandleOperations) : Goes (exec (.hdrop 8 false false) (put grp (.s 9) 0xFC000000)) :=
  goes_of ((h.1.2.2.1 8 false false (put grp (.s 9) 0xFC000000) rfl (ready_of (by decide)) rfl).1 (by decide))

theorem test_hdrop_meets (h : Obligations.HandleOperations) : Goes (exec (.hdrop 8 false false) grp) :=
  (let ⟨t, _, x⟩ := (h.1.2.2.1 8 false false grp rfl (ready_of (by decide)) rfl).2 (by decide); ⟨t, x.1⟩)

theorem test_hnew_tensor_meets (h : Obligations.HandleOperations) : Goes (exec (.hnew 10 8 12 false false) grp) :=
  goes_of ((h.1.2.2.2.1 10 8 12 false false grp rfl (ready_of (by decide)) rfl (by decide)).1 (by decide) (by decide))

theorem test_hnew_scope_meets (h : Obligations.HandleOperations) : Goes (exec (.hnew 10 8 12 false false) (put grp (.s 8) 1)) :=
  goes_of ((h.1.2.2.2.1 10 8 12 false false (put grp (.s 8) 1) rfl (ready_of (by decide)) rfl (by decide)).2.1 (.inr ⟨by decide, .inl (by decide)⟩))

theorem test_hnew_child_meets (h : Obligations.HandleOperations) : Goes (exec (.hnew 10 8 12 false false) (put (put grp (.s 8) 1) (.s 13) 0x00800000)) :=
  goes_of ((h.1.2.2.2.1 10 8 12 false false (put (put grp (.s 8) 1) (.s 13) 0x00800000) rfl (ready_of (by decide)) rfl (by decide)).2.2.1 (by decide) (by decide) (by decide) (by decide))

theorem test_hnew_misaligned_meets (h : Obligations.HandleOperations) : Goes (exec (.hnew 10 8 12 false false) (put handled (.s 12) 32)) :=
  ⟨_, (h.1.2.2.2.1 10 8 12 false false (put handled (.s 12) 32) rfl (ready_of (by decide)) rfl (by decide)).2.2.2 (by decide) (by decide) (by decide) (by decide) (by decide)⟩

theorem test_hbind_none_meets (h : Obligations.HandleOperations) : Goes (exec (.hbind 8 10 false false) grp) :=
  goes_of ((h.1.2.2.2.2 8 10 false false grp rfl (ready_of (by decide)) rfl (by decide)).1 (by decide))

theorem test_hbind_meets (h : Obligations.HandleOperations) : Goes (exec (.hbind 8 10 false false) (put grp (.s 10) 0x400)) :=
  goes_of ((h.1.2.2.2.2 8 10 false false (put grp (.s 10) 0x400) rfl (ready_of (by decide)) rfl (by decide)).2 (by decide) (hit 0x400) [] (by decide) (by decide))

theorem test_hinfo_meets (h : Obligations.HandleOperations) : Goes (exec (.hinfo 10 8 false false) grp) :=
  goes_of (h.2.1 10 8 false false grp rfl (ready_of (by decide)) rfl (by decide))

theorem test_haddr_meets (h : Obligations.HandleOperations) : Goes (exec (.haddr 10 8 12 false false) (put tensored (.s 12) 3)) :=
  goes_of (h.2.2.1 10 8 12 false false (put tensored (.s 12) 3) ⟨1, 1, 0, 1, 4, [4, 1, 1, 1], [0, 0, 0, 0, 0, 0]⟩ rfl (ready_of (by decide)) rfl (by decide) (by decide) (by decide))

theorem test_scopew_meets (h : Obligations.HandleOperations) : Goes (exec (.scopew 10 8 false false) (put grp (.s 9) 0x00800000)) :=
  goes_of ((h.2.2.2.1 10 8 false false (put grp (.s 9) 0x00800000) rfl (ready_of (by decide)) rfl (by decide)).1 (by decide))

theorem test_scopew_tensor_meets (h : Obligations.HandleOperations) : Goes (exec (.scopew 10 8 false false) handled) :=
  ⟨_, (h.2.2.2.1 10 8 false false handled rfl (ready_of (by decide)) rfl (by decide)).2 (by decide) (by decide) (by decide) (by decide)⟩

theorem test_scopew_resumes_meets (h : Obligations.HandleOperations) : Goes (exec (.scopew 10 8 false false) (resumed grp .scopew)) :=
  goes_of (h.2.2.2.2 10 8 false false (resumed grp .scopew) rfl rfl rfl)

theorem entered_unwatched : (entered.touchAll false ((List.range 8).map fun i => hit (0x100 + 4 * i))).watches = [] := by decide

theorem test_watch_meets (h : Obligations.WatchOperations) : Goes (exec (.watch 10 8 false false) entered) :=
  goes_of (h.1 10 8 false false entered ((List.range 8).map fun i => hit (0x100 + 4 * i)) rfl (ready_of (by decide)) rfl
    (by decide) (by decide) (by decide) (fun _ _ _ _ => by simp only [State.watched, entered_unwatched, List.any_nil])
    (fun _ m => by obtain ⟨i, _, rfl⟩ := List.mem_map.mp m; rfl))

theorem test_unwatch_absent_meets (h : Obligations.WatchOperations) : Goes (exec (.unwatch 10 8 false false) grp) :=
  goes_of (h.2 _ (List.Mem.head _) 10 8 false false grp rfl (ready_of (by decide)) rfl (by decide))

theorem test_unwatch_meets (h : Obligations.WatchOperations) : Goes (exec (.unwatch 10 8 false false) (watching 0)) :=
  goes_of (h.2 _ (List.Mem.head _) 10 8 false false (watching 0) rfl (ready_of (by decide)) rfl (by decide))

theorem test_warm_absent_meets (h : Obligations.WatchOperations) : Goes (exec (.warm 10 8 false false) grp) :=
  goes_of (h.2 _ (List.Mem.tail _ (List.Mem.head _)) 10 8 false false grp rfl (ready_of (by decide)) rfl (by decide))

theorem test_warm_meets (h : Obligations.WatchOperations) : Goes (exec (.warm 10 8 false false) (watching 0)) :=
  goes_of (h.2 _ (List.Mem.tail _ (List.Mem.head _)) 10 8 false false (watching 0) rfl (ready_of (by decide)) rfl (by decide))

theorem test_wstat_absent_meets (h : Obligations.WatchOperations) : Goes (exec (.wstat 10 8 false false) grp) :=
  goes_of (h.2 _ (List.Mem.tail _ (List.Mem.tail _ (List.Mem.head _))) 10 8 false false grp rfl (ready_of (by decide)) rfl (by decide))

theorem test_wstat_meets (h : Obligations.WatchOperations) : Goes (exec (.wstat 10 8 false false) (watching 0)) :=
  goes_of (h.2 _ (List.Mem.tail _ (List.Mem.tail _ (List.Mem.head _))) 10 8 false false (watching 0) rfl (ready_of (by decide)) rfl (by decide))

theorem test_wstat_region_meets (h : Obligations.WatchOperations) : Goes (exec (.wstat 10 8 false false) ({ watching 0 with cur := { (watching 0).cur with region := 1 } })) :=
  goes_of (h.2 _ (List.Mem.tail _ (List.Mem.tail _ (List.Mem.head _))) 10 8 false false ({ watching 0 with cur := { (watching 0).cur with region := 1 } }) rfl (ready_of (by decide)) rfl (by decide))

theorem test_srd_0_meets (h : Obligations.SpecialRegisters) : Goes (exec (.srd 8 0) grp) :=
  goes_of ((h.1 8 0 grp rfl (ready_of (by decide)) (by decide) (by decide) (by decide)).1 (by decide))

theorem test_srd_15_meets (h : Obligations.SpecialRegisters) : Goes (exec (.srd 8 15) grp) :=
  goes_of ((h.1 8 15 grp rfl (ready_of (by decide)) (by decide) (by decide) (by decide)).1 (by decide))

theorem test_srd_16_meets (h : Obligations.SpecialRegisters) : Goes (exec (.srd 8 16) grp) :=
  goes_of ((h.1 8 16 grp rfl (ready_of (by decide)) (by decide) (by decide) (by decide)).1 (by decide))

theorem test_srd_17_meets (h : Obligations.SpecialRegisters) : Goes (exec (.srd 8 17) grp) :=
  goes_of ((h.1 8 17 grp rfl (ready_of (by decide)) (by decide) (by decide) (by decide)).2.2 rfl)

theorem test_srd_18_meets (h : Obligations.SpecialRegisters) : Goes (exec (.srd 8 18) grp) :=
  goes_of ((h.1 8 18 grp rfl (ready_of (by decide)) (by decide) (by decide) (by decide)).1 (by decide))

theorem test_srd_clock_meets (h : Obligations.SpecialRegisters) : Goes (exec (.srd 8 7) grp) :=
  goes_of ((h.1 8 7 grp rfl (ready_of (by decide)) (by decide) (by decide) (by decide)).2.1 rfl)

theorem test_swr_0_meets (h : Obligations.SpecialRegisters) : Goes (exec (.swr 8 0) grp) :=
  goes_of ((h.2 8 0 grp rfl (ready_of (by decide)) (by decide)).1 rfl)

theorem test_swr_8_meets (h : Obligations.SpecialRegisters) : Goes (exec (.swr 8 8) grp) :=
  goes_of ((h.2 8 8 grp rfl (ready_of (by decide)) (by decide)).2.1 rfl)

theorem test_swr_9_meets (h : Obligations.SpecialRegisters) : Goes (exec (.swr 8 9) grp) :=
  goes_of ((h.2 8 9 grp rfl (ready_of (by decide)) (by decide)).2.2.1 rfl)

theorem test_swr_10_meets (h : Obligations.SpecialRegisters) : Goes (exec (.swr 8 10) grp) :=
  goes_of ((h.2 8 10 grp rfl (ready_of (by decide)) (by decide)).2.2.2.1 rfl)

theorem test_swr_11_meets (h : Obligations.SpecialRegisters) : Goes (exec (.swr 8 11) grp) :=
  goes_of ((h.2 8 11 grp rfl (ready_of (by decide)) (by decide)).2.2.2.2.1 rfl)

theorem test_swr_15_meets (h : Obligations.SpecialRegisters) : Goes (exec (.swr 8 15) grp) :=
  goes_of ((h.2 8 15 grp rfl (ready_of (by decide)) (by decide)).2.2.2.2.2.1 rfl)

theorem test_swr_16_seq_meets (h : Obligations.SpecialRegisters) : Goes (exec (.swr 8 16) sqr) :=
  goes_of ((h.2 8 16 sqr rfl (ready_of (by decide)) (by decide)).2.2.2.2.2.2.1 rfl rfl)

theorem test_swr_16_meets (h : Obligations.SpecialRegisters) : Goes (exec (.swr 8 16) grp) :=
  goes_of ((h.2 8 16 grp rfl (ready_of (by decide)) (by decide)).2.2.2.2.2.2.2.1 rfl rfl (fun _ _ => grp_sound _))

theorem test_swr_18_meets (h : Obligations.SpecialRegisters) : Goes (exec (.swr 8 18) grp) :=
  goes_of ((h.2 8 18 grp rfl (ready_of (by decide)) (by decide)).2.2.2.2.2.2.2.2.1 rfl)

theorem test_swr_fixed_meets (h : Obligations.SpecialRegisters) : Goes (exec (.swr 8 17) handled) :=
  ⟨_, (h.2 8 17 handled rfl (ready_of (by decide)) (by decide)).2.2.2.2.2.2.2.2.2 (by decide) rfl (by decide) (by decide) (by decide)⟩

theorem test_tlbinv_meets (h : Obligations.TranslationServices) : Goes (exec (.tlbinv 8 10 0) grp) :=
  ⟨_, h.1 8 10 0 grp rfl (ready_of (by decide)) rfl⟩

theorem test_tlbinv_resumes_meets (h : Obligations.TranslationServices) : Goes (exec (.tlbinv 8 10 0) (resumed grp .arriving)) :=
  goes_of (h.2.1 8 10 0 (resumed grp .arriving) rfl rfl rfl)

theorem test_fbread_meets (h : Obligations.TranslationServices) : Goes (exec (.fbread 8) grp) :=
  goes_of (h.2.2.1 8 grp rfl (ready_of (by decide)) rfl)

/-- A second group with a parked arm. -/
def laid : State :=
  let s := put (put grp (.s 8) 77) (.s 9) 0
  { s with others := [({ grp.cur with tid := 77, name := 77 } : Group).mapMe fun m => { m with ws := .parked, park := 1 }] }

theorem laid_threads : laid.threads =
    [laid.cur, ({ grp.cur with tid := 77, name := 77 } : Group).mapMe fun m => { m with ws := .parked, park := 1 }] := rfl

theorem grp_threads : grp.threads = [grp.cur] := rfl

theorem test_replay_meets (h : Obligations.TranslationServices) : Goes (exec (.replay 8) laid) :=
  goes_of ((h.2.2.2.1 laid (.replay 8) _ _ rfl (.inl ⟨8, rfl, rfl, rfl⟩) (ready_of (by decide)) rfl).1
    ⟨_, by rw [laid_threads]; exact .tail _ (.head _), by decide, false, by decide, by decide⟩)

theorem test_replay_none_meets (h : Obligations.TranslationServices) : Goes (exec (.replay 8) grp) :=
  goes_of ((h.2.2.2.1 grp (.replay 8) _ _ rfl (.inl ⟨8, rfl, rfl, rfl⟩) (ready_of (by decide)) rfl).2
    fun g m => by rw [grp_threads] at m; rw [List.mem_singleton.mp m]; decide)

theorem test_replayDie_meets (h : Obligations.TranslationServices) : Goes (exec (.replayDie) laid) :=
  goes_of ((h.2.2.2.1 laid .replayDie _ _ rfl (.inr ⟨rfl, rfl, rfl⟩) (ready_of (by decide)) rfl).1
    ⟨_, by rw [laid_threads]; exact .tail _ (.head _), by decide, false, by decide, by decide⟩)

theorem test_setcoh_meets (h : Obligations.TranslationServices) : Goes (exec (.setcoh 8 14 1) (recoh 0)) :=
  (let ⟨t, _, _, x⟩ := h.2.2.2.2.1 _ (List.Mem.head _) 8 14 1 (recoh 0) rfl (ready_of (by decide)) rfl; ⟨t, x.1⟩)

theorem test_setcoh_absent_meets (h : Obligations.TranslationServices) : Goes (exec (.setcoh 8 14 1) (recoh 0x40000000)) :=
  goes_of (h.2.2.2.2.1 _ (List.Mem.head _) 8 14 1 (recoh 0x40000000) rfl (ready_of (by decide)) rfl)

theorem test_setcoh_frozen_meets (h : Obligations.TranslationServices) : Goes (exec (.setcoh 8 14 1) frozen) :=
  goes_of (h.2.2.2.2.1 _ (List.Mem.head _) 8 14 1 frozen rfl (ready_of (by decide)) rfl)

theorem test_migrate_frame_meets (h : Obligations.TranslationServices) : Goes (exec (.migrate 8 14 1) (put (recoh 0) (.s 12) 1)) :=
  goes_of (h.2.2.2.2.1 _ (List.Mem.tail _ (List.Mem.head _)) 8 14 1 (put (recoh 0) (.s 12) 1) rfl (ready_of (by decide)) rfl)

theorem test_privileged_meets (h : Obligations.TranslationServices) : Goes (exec (.replayDie) ordinary) :=
  ⟨_, h.2.2.2.2.2 8 10 1 _ (List.Mem.head _) ordinary rfl rfl rfl rfl rfl (by decide) (by decide) (by decide) (by decide)⟩

theorem test_wsload_meets (h : Obligations.GroupServices) : Goes (exec (.wsload 8 1) (put grp (.s 11) 256)) :=
  ⟨_, h.1 8 1 (put grp (.s 11) 256) [hit 0] rfl (ready_of (by decide)) rfl (by decide) (by decide) (by decide) (by decide) (by decide) (by decide) (by decide)⟩

theorem test_wsload_resumes_meets (h : Obligations.GroupServices) : Goes (exec (.wsload 8 1) (resumed grp .ready)) :=
  goes_of (h.2.1 8 1 (resumed grp .ready) rfl rfl rfl rfl rfl)

theorem groupOf_named (r : Bool) :
    (named r).groupOf ((named r).cur.spval 8).toNat = some { grp.cur with tid := 77, name := 77, resident := r } := by
  rw [show ((named r).cur.spval 8).toNat = 77 by cases r <;> decide]
  have h : (named r).threads = [(named r).cur, { grp.cur with tid := 77, name := 77, resident := r }] := rfl
  rw [State.groupOf, h]
  cases r <;> rfl

theorem test_halt_meets (h : Obligations.GroupServices) : Goes (exec (.halt 8) (named true)) :=
  ⟨_, ((h.2.2.1 8 (named true) rfl (ready_of (by decide)) rfl).1 _ (groupOf_named true) rfl).1.1 (by decide)⟩

theorem test_halt_own_meets (h : Obligations.GroupServices) : Goes (exec (.halt 8) (put grp (.s 8) (w32 bootTid))) :=
  goes_of (((h.2.2.1 8 (put grp (.s 8) (w32 bootTid)) rfl (ready_of (by decide)) rfl).1 _ (by rfl) (by decide)).1.2 (by decide))

theorem test_halt_release_meets (h : Obligations.GroupServices) : Goes (exec (.haltRelease 8) (named true)) :=
  goes_of (((h.2.2.1 8 (named true) rfl (ready_of (by decide)) rfl).1 _ (groupOf_named true) rfl).2)

theorem test_halt_absent_meets (h : Obligations.GroupServices) : Goes (exec (.halt 8) (put grp (.s 8) 78)) :=
  goes_of (((h.2.2.1 8 (put grp (.s 8) 78) rfl (ready_of (by decide)) rfl).2 (.inl rfl)).1)

theorem test_halt_resumes_meets (h : Obligations.GroupServices) : Goes (exec (.halt 8) (resumed grp .arriving)) :=
  goes_of (h.2.2.2.1 8 (resumed grp .arriving) rfl rfl rfl)

theorem test_swapout_meets (h : Obligations.GroupServices) : Goes (exec (.swapout 8 14) (named true)) :=
  goes_of ((h.2.2.2.2 8 14 (named true) rfl (ready_of (by decide)) rfl).1 _ (groupOf_named true) rfl rfl)

theorem test_swapout_saved_meets (h : Obligations.GroupServices) : Goes (exec (.swapout 8 14) (named false)) :=
  goes_of ((h.2.2.2.2 8 14 (named false) rfl (ready_of (by decide)) rfl).2 (.inr ⟨_, groupOf_named false, .inl rfl⟩))

/-! #### Events of memory, names, skeins, queues, the hub, groups and pre-emption -/

/-- Arm A of the loaded group. -/
abbrev me : Who := ⟨bootTid, ⟨true, false⟩⟩

/-- With an operation on its way. -/
def fly (s : State) (f : Flight) : State := { s with flight := [f] }

/-- An event's payload. -/
def pay (s : State) (ps : List Nat) : State := { s with ev := ps }

/-- A contribution of the loaded group: an ADD of U32 to the word at 0x100, under DET an FADD. -/
def contrib (det : Bool) : Contrib :=
  ⟨grp.cur.who, 0, 1, 0, 0x40000000, 0, 0, 1, det, 0, 0, 0, 0x100, 0, if det then AtomOp.fadd.code else 0, if det then 6 else 2,
    false, 0, .dev 0x100, 5⟩

/-- The loaded group in a resident name, of rights or none. -/
def titled (st : NState) : State :=
  { grp with names := [{ NameEntry.free bootTid with state := st, all := true }] }

/-- A name operation of the loaded group on its own name. -/
def op (k : NKind) : NameOp := ⟨.group bootTid, ⟨true, false⟩, 0, bootTid, k, true, none, (0, 0), .home⟩

/-- A miss on page 0 of die 0. -/
def missed : Miss := ⟨0, 0x10000, 0, false, false, false, 0, 1, bootTid, false, []⟩

/-- Misses of die 0, with n faults in its buffer. -/
def misses (n : Nat) : State :=
  fly (grp.modDie 0 fun d => { d with misses := [missed], faults := List.replicate n missed }) (.walk 0 missed)

/-- A name port, with a name of its own. -/
def porter : NamePort := ⟨3, 0, 0, 0, 0, []⟩

/-- The port bound. -/
def ported : State :=
  { State.reset with ports := [porter], names := [{ NameEntry.free 9 with state := .host, port := 3 }] }

/-- The same with a complex that serves. -/
def manned : State := { ported with complexes := modAt (fun c => { c with active := true }) 0 ported.complexes }

/-- The port of a tray that is up, with a member of names. -/
def noRecords : State := { grp with bases := { grp.bases with skeinCount := 0 } }


theorem test_load_event_meets (h : Obligations.ReturnEvents) : Goes (exec (.loadDataReturn) (fly grp (.load me [.word (.s 8) 5] none []))) :=
  goes_of ((h.1 (fly grp (.load me [.word (.s 8) 5] none [])) me bootTid [.word (.s 8) 5] none []).1 [] [] rfl (fun _ h => nomatch h))

theorem test_atomic_event_meets (h : Obligations.ReturnEvents) : Goes (exec (.atomicReturn) (fly grp (.atomic me [.word (.s 8) 5] none []))) :=
  goes_of ((h.1 (fly grp (.atomic me [.word (.s 8) 5] none [])) me bootTid [.word (.s 8) 5] none []).2.1 [] [] rfl (fun _ h => nomatch h))

theorem test_sfu_event_meets (h : Obligations.ReturnEvents) : Goes (exec (.vsfuComplete) (fly grp (.sfu bootTid []))) :=
  goes_of ((h.1 (fly grp (.sfu bootTid [])) me bootTid [] none []).2.2.1 [] [] rfl (fun _ h => nomatch h))

theorem test_fbreply_event_meets (h : Obligations.ReturnEvents) : Goes (exec (.fbreadReply) (fly grp (.fbread bootTid []))) :=
  goes_of ((h.1 (fly grp (.fbread bootTid [])) me bootTid [] none []).2.2.2.1 [] [] rfl (fun _ h => nomatch h))

theorem test_storeDone_event_meets (h : Obligations.ReturnEvents) : Goes (exec (.storePerformed) (fly grp (.store me []))) :=
  goes_of ((h.1 (fly grp (.store me [])) me bootTid [] none []).2.2.2.2.1 [] [] rfl (fun _ h => nomatch h))

theorem test_maint_event_meets (h : Obligations.ReturnEvents) : Goes (exec (.cacheMaintenanceComplete) (fly grp (.maint me))) :=
  goes_of ((h.1 (fly grp (.maint me)) me bootTid [] none []).2.2.2.2.2.1 [] [] rfl (fun _ h => nomatch h))

/-- A copy of the loaded group from 0x200 to 0x100: the words left to write. -/
def copyJob (todo : List CopyWord) : CopyJob := ⟨0, 0, false, 0, none, [], todo⟩

/-- Its word. -/
def copied (k : Nat) : CopyWord := ⟨.dev (0x200 + k), w64 (0x200 + k), 7, none, .dev (0x100 + k), w64 (0x100 + k), none⟩

theorem test_copy_event_meets (h : Obligations.ReturnEvents) : Goes (exec (.copyComplete) (fly grp (.copy bootTid (copyJob [])))) :=
  goes_of ((h.2.1 (fly grp (.copy bootTid (copyJob []))) bootTid (copyJob []) rfl).1 rfl [] [] rfl (fun _ h => nomatch h))

/-- A copy whose next line is all that is left, or not. -/
def copying (more : Bool) : State :=
  pay (fly grp (.copy bootTid (copyJob (copied 0 :: if more then [copied 64] else [])))) [1]

theorem test_copy_line_meets (more : Bool) (h : Obligations.ReturnEvents) :
    ∃ t, exec (.copyComplete) (copying more) = .next t ∧ ∀ a, a < 0x100 → t.mem.get a = grp.mem.get a := by
  obtain ⟨t, e, x⟩ := (h.2.1 (copying more) bootTid (copyJob (copied 0 :: if more then [copied 64] else [])) rfl).2
    [copied 0] (if more then [copied 64] else []) (by cases more <;> rfl) (by decide) rfl
    (fun w m => by rw [List.mem_singleton.mp m]; exact ⟨rfl, rfl, ⟨_, rfl⟩, ⟨_, rfl⟩⟩) (by cases more <;> rfl) [] [] rfl
    (fun _ h => nomatch h)
  refine ⟨t, e, fun a l => (x (fun w m => ?_) (by cases more <;> rfl)).2.2 a fun w m b d => ?_⟩
  · rw [List.mem_singleton.mp m]
    cases more <;> exact ⟨rfl, rfl⟩
  · rw [List.mem_singleton.mp m] at d
    cases d
    exact .inl l

theorem test_red_apply_meets (h : Obligations.ReductionAndWalkEvents) : Goes (exec (.redApply) (fly grp (.redApply (contrib false)))) :=
  goes_of ((h.1 (fly grp (.redApply (contrib false))) (contrib false) (by decide) rfl rfl rfl).1 rfl rfl [] [] rfl (fun _ h => nomatch h))

theorem test_red_set_meets (h : Obligations.ReductionAndWalkEvents) : Goes (exec (.redApply) (fly grp (.redApply (contrib true)))) :=
  goes_of ((h.1 (fly grp (.redApply (contrib true))) (contrib true) (by decide) rfl rfl rfl).2 rfl rfl rfl rfl [] [] rfl (fun _ h => nomatch h))

theorem test_drain_event_meets (h : Obligations.ReductionAndWalkEvents) : Goes (exec (.atomicBufferDrain) (fly grp (.drain bootTid))) :=
  goes_of (h.2.1 (fly grp (.drain bootTid)) bootTid [] [] rfl (fun _ h => nomatch h))

theorem test_set_apply_meets (h : Obligations.ReductionAndWalkEvents) : Goes (exec (.reductionSetApply) ({ pay State.reset [1, 0] with rsets := [contrib true], closed := [(1, 0)] })) :=
  goes_of ((h.2.2.1 ({ pay State.reset [1, 0] with rsets := [contrib true], closed := [(1, 0)] }) 1 0 rfl).1 rfl (fun c m => by rw [List.mem_singleton.mp m]; rfl))

theorem test_set_open_meets (h : Obligations.ReductionAndWalkEvents) : Goes (exec (.reductionSetApply) ({ pay State.reset [1, 0] with closed := [(2, 0), (1, 0)] })) :=
  ⟨_, (h.2.2.1 ({ pay State.reset [1, 0] with closed := [(2, 0), (1, 0)] }) 1 0 rfl).2 (by decide)⟩

theorem test_arrival_meets (h : Obligations.ReductionAndWalkEvents) : Goes (exec (.barrierArrival) (fly (barred 0) (.arrive bootTid false 0 1 false))) :=
  goes_of (h.2.2.2.1 (fly (barred 0) (.arrive bootTid false 0 1 false)) bootTid false 0 1 false (fly (barred 0) (.arrive bootTid false 0 1 false)).cur (fly (barred 0) (.arrive bootTid false 0 1 false)).cur (by decide) (by decide) rfl rfl (by decide) [] [] rfl (fun _ h => nomatch h))

theorem test_walk_0_meets (h : Obligations.ReductionAndWalkEvents) : Goes (exec (.walkComplete) (misses 0)) :=
  goes_of (h.2.2.2.2.2 (misses 0) 0 missed missed [] rfl (by decide) (by decide) [] [] rfl (fun _ h => nomatch h))

theorem test_walk_7_meets (h : Obligations.ReductionAndWalkEvents) : Goes (exec (.walkComplete) (misses 7)) :=
  goes_of (h.2.2.2.2.2 (misses 7) 0 missed missed [] rfl (by decide) (by decide) [] [] rfl (fun _ h => nomatch h))

theorem test_walk_8_meets (h : Obligations.ReductionAndWalkEvents) : Goes (exec (.walkComplete) (misses 8)) :=
  goes_of (h.2.2.2.2.2 (misses 8) 0 missed missed [] rfl (by decide) (by decide) [] [] rfl (fun _ h => nomatch h))

/-- A miss that waited for an entry, on the mapped page. -/
def belated : Miss := { missed with late := true }

theorem test_walk_late_meets (h : Obligations.ReductionAndWalkEvents) :
    ∃ t, exec (.walkComplete) (fly (grp.modDie 0 fun d => { d with misses := [belated] }) (.walk 0 belated)) = .next t ∧
      (t.die 0).misses = [] := by
  obtain ⟨t, e, x⟩ := h.2.2.2.2.2 (fly (grp.modDie 0 fun d => { d with misses := [belated] }) (.walk 0 belated)) 0 belated belated []
    rfl (by decide) (by decide) [] [] rfl (fun _ h => nomatch h)
  refine ⟨t, e, ?_⟩
  rw [x.1 (by decide)]
  rfl

/-- The loaded group with two errors pending. -/
def erring : State :=
  { pay grp [bootTid, 0] with cur := { grp.cur with mchecks := [⟨false, 4, 1, 1, 5⟩, ⟨false, 0, 0, 1, 3⟩] } }

theorem test_mcheck_meets (h : Obligations.ServiceHostEvents) : Goes (exec (.mcheckDeliver) erring) :=
  ⟨_, h.1.1 erring false ⟨false, 0, 0, 1, 3⟩ rfl (by decide) rfl (by decide) rfl rfl⟩

theorem test_mcheck_oldest_meets (h : Obligations.ServiceHostEvents) :
    (⟨false, 0, 0, 1, 3⟩ : MCheck) ∈ erring.cur.mchecks :=
  (h.1.2.1 erring.cur.mchecks ⟨false, 0, 0, 1, 3⟩ (by decide)).1

theorem test_tlbinv_event_meets (h : Obligations.ServiceHostEvents) : Goes (exec (.tlbinvComplete) ({ fly grp (.tlbinv bootTid false 0 0 0x10000) with tlb := [ent] })) :=
  goes_of (h.1.2.2.1 ({ fly grp (.tlbinv bootTid false 0 0 0x10000) with tlb := [ent] }) bootTid 0 0 0x10000 false [] [] rfl (fun _ h => nomatch h))

theorem test_wsload_event_meets (h : Obligations.ServiceHostEvents) : Goes (exec (.wsloadComplete) (fly grp (.wsload bootTid false 0 0 0 [(.dev 0, 256)]))) :=
  goes_of (h.1.2.2.2.1 (fly grp (.wsload bootTid false 0 0 0 [(.dev 0, 256)])) bootTid false 0 0 0 256 0 (fly grp (.wsload bootTid false 0 0 0 [(.dev 0, 256)])).cur (by decide) rfl (by decide) (by decide) (by decide) (by decide) (by decide) [] [] rfl (fun _ h => nomatch h))

theorem test_halt_event_meets (h : Obligations.ServiceHostEvents) : Goes (exec (.haltStopped) (fly grp (.halt bootTid false 77))) :=
  goes_of (h.1.2.2.2.2.1 (fly grp (.halt bootTid false 77)) bootTid 77 false (by decide) [] [] rfl (fun _ h => nomatch h))

theorem test_swapout_gone_meets (h : Obligations.ServiceHostEvents) : Goes (exec (.haltStopped) (fly grp (.swapout bootTid (.s 8) 77))) :=
  goes_of ((h.1.2.2.2.2.2.1 (fly grp (.swapout bootTid (.s 8) 77)) bootTid 77 (.s 8)).1 (by decide) [] [] rfl (fun _ h => nomatch h))

theorem groupOf_fly (r : Bool) (f : Flight) :
    (fly (named r) f).groupOf 77 = some { grp.cur with tid := 77, name := 77, resident := r } := by
  rw [State.groupOf, show (fly (named r) f).threads = [(named r).cur, { grp.cur with tid := 77, name := 77, resident := r }] from rfl]
  cases r <;> rfl

theorem test_swapout_starts_meets (h : Obligations.ServiceHostEvents) : Goes (exec (.haltStopped) (fly (named true) (.swapout bootTid (.s 8) 77))) :=
  goes_of ((h.1.2.2.2.2.2.1 (fly (named true) (.swapout bootTid (.s 8) 77)) bootTid 77 (.s 8)).2 _ (groupOf_fly true _) (by decide) (by decide) [] [] rfl (fun _ h => nomatch h))

theorem test_coh_meets (h : Obligations.ServiceHostEvents) : Goes (exec (.cohChangePublish) (fly grp (.coh bootTid (.s 8) 0x18000 217 (.dev 0) 64 none))) :=
  goes_of (h.1.2.2.2.2.2.2.1 (fly grp (.coh bootTid (.s 8) 0x18000 217 (.dev 0) 64 none)) bootTid 0x18000 217 64 (.dev 0) (.s 8)
    (fun a e => by cases e; decide) [] [] rfl (fun _ h => nomatch h))

theorem test_coh_moved_meets (h : Obligations.ServiceHostEvents) : Goes (exec (.cohChangePublish) (fly grp (.coh bootTid (.s 8) 0x18000 217 (.dev 0) 64 (some (.dev 4096))))) :=
  goes_of (h.1.2.2.2.2.2.2.2 (fly grp (.coh bootTid (.s 8) 0x18000 217 (.dev 0) 64 (some (.dev 4096)))) bootTid 0x18000 217 0 4096 64 (.s 8) (by decide) [] [] rfl (fun _ h => nomatch h))

/-- A request of a host (of a peer) of size n: its payload. -/
def demand (peer : Bool) (op n : Nat) : State := pay State.reset ((if peer then [0] else []) ++ [op, 0x100, n, 9, 1, 2])

/-- The same behind a die that sleeps. -/
def asleep (s : State) : State := s.modMdie 0 fun d => { d with power := { d.power with state := 2 } }

theorem test_host_read_meets (h : Obligations.ServiceHostEvents) : Goes (exec (.hostAccess) (demand false 0 4)) :=
  ⟨_, ((h.2.1 (demand false 0 4) .hostAccess _ (.inl ⟨rfl, rfl⟩)).2.2.2 (by decide) (by decide) ⟨by decide, by decide⟩ (by decide)).2.1 ⟨by decide, by decide, by decide⟩ rfl (by decide)⟩

theorem test_host_write_meets (h : Obligations.ServiceHostEvents) : Goes (exec (.hostAccess) (demand false 1 4)) :=
  ⟨_, ((h.2.1 (demand false 1 4) .hostAccess _ (.inl ⟨rfl, rfl⟩)).2.2.2 (by decide) (by decide) ⟨by decide, by decide⟩ (by decide)).2.2.1 ⟨by decide, by decide, by decide⟩ rfl (by decide) (by decide)⟩

theorem test_host_atomic_meets (h : Obligations.ServiceHostEvents) : Goes (exec (.hostAccess) (demand false 2 4)) :=
  (let ⟨_, x, _⟩ := ((h.2.1 (demand false 2 4) .hostAccess _ (.inl ⟨rfl, rfl⟩)).2.2.2 (by decide) (by decide) ⟨by decide, by decide⟩ (by decide)).2.2.2 ⟨by decide, by decide, by decide⟩ (by decide) (by decide) (by decide) (by decide); ⟨_, x⟩)

theorem test_host_asleep_meets (h : Obligations.ServiceHostEvents) : Goes (exec (.hostAccess) (asleep (demand false 0 4))) :=
  ⟨_, ((h.2.1 (asleep (demand false 0 4)) .hostAccess _ (.inl ⟨rfl, rfl⟩)).2.2.2 (by decide) (by decide) ⟨by decide, by decide⟩ (by decide)).1 (fun x => absurd x.1 (by decide))⟩

theorem test_host_held_meets (h : Obligations.ServiceHostEvents) : Goes (exec (.hostAccess) ((demand false 0 4).modMdie 1 fun d => { d with held := [.req ⟨0x100000001, 0, 0, 4, 0, none⟩] })) :=
  ⟨_, (h.2.1 ((demand false 0 4).modMdie 1 fun d => { d with held := [.req ⟨0x100000001, 0, 0, 4, 0, none⟩] }) .hostAccess _ (.inl ⟨rfl, rfl⟩)).2.1 (by decide) (by decide) 1 (by decide)⟩

/-- A request of the port waits behind a die's doorbell latch. -/
def latched : State := (demand false 0 4).modDie 1 fun d => { d with latch := [⟨0x100000001, 1, 0, 4, 0, none⟩] }

theorem test_host_latched_meets (h : Obligations.ServiceHostEvents) : Goes (exec (.hostAccess) latched) :=
  ⟨_, (h.2.1 latched .hostAccess _ (.inl ⟨rfl, rfl⟩)).2.2.1 (by decide) (by decide) (by decide) 1 (by decide)⟩

theorem test_host_again_meets (h : Obligations.ServiceHostEvents) : Goes (exec (.hostAccess) ({ demand false 0 4 with performed := [(0x100000002, 0)] })) :=
  ⟨_, (h.2.1 ({ demand false 0 4 with performed := [(0x100000002, 0)] }) .hostAccess _ (.inl ⟨rfl, rfl⟩)).1 (by decide)⟩

theorem test_peer_read_meets (h : Obligations.ServiceHostEvents) : Goes (exec (.peerRequest) (demand true 0 4)) :=
  ⟨_, ((h.2.1 (demand true 0 4) .peerRequest _ (.inr ⟨rfl, rfl, rfl⟩)).2.2.2 (by decide) (by decide) ⟨by decide, by decide⟩ (by decide)).2.1 ⟨by decide, by decide, by decide⟩ rfl (by decide)⟩

/-- A request for device 6. -/
def onward (ps : List Peer) : State :=
  { pay State.reset [6, 1, 0x100, 4, 9, 1, 2] with peers := ps, links := [{ Link.reset with up := true }] }

theorem test_peer_forward_meets (h : Obligations.ServiceHostEvents) : Goes (exec (.peerRequest) (onward [⟨true, 6, 1, 0⟩])) :=
  ⟨_, (h.2.2.1 (onward [⟨true, 6, 1, 0⟩]) (by decide) (by decide) (by decide)).1 0 (by decide) rfl (by decide) (by decide)⟩

theorem test_peer_nowhere_meets (h : Obligations.ServiceHostEvents) : Goes (exec (.peerRequest) (onward [])) :=
  ⟨_, (h.2.2.1 (onward []) (by decide) (by decide) (by decide)).2 (by decide)⟩

theorem test_remote_error_meets (h : Obligations.ServiceHostEvents) : Goes (exec (.remoteErrorResponse) ({ pay grp [bootTid, 0, 64, 2, 1, 0] with flight := [.load me [.lanes 3 0 (List.replicate 96 7) 1] none [⟨false, 2, 64, .host 0 64, 4, 0, [], 0⟩]] })) :=
  (let ⟨_, x, _⟩ := h.2.2.2 ({ pay grp [bootTid, 0, 64, 2, 1, 0] with flight := [.load me [.lanes 3 0 (List.replicate 96 7) 1] none [⟨false, 2, 64, .host 0 64, 4, 0, [], 0⟩]] }) me _ ⟨false, 2, 64, .host 0 64, 4, 0, [], 0⟩ true rfl rfl rfl; ⟨_, x⟩)

/-- A name whose entry is damaged. -/
def spoilt : State := { grp with names := [{ NameEntry.free bootTid with state := .resident, all := true, damaged := true }] }

/-- A resident name of a region that may change rights. -/
def granting : State := { titled .resident with mem := (titled .resident).mem.wr 0x4000000016 2 1 }

/-- A saved group of that name, its record at 0. -/
def stored : State := { titled .saved with cur := { grp.cur with resident := false, saveRec := 0 } }

/-- A wake on the direct path, to a slot that its target has left. -/
def strayed : NameOp := { op .wake with path := .direct 0 64 }

theorem test_wake_damaged_meets (h : Obligations.NameDelivery) : Goes (exec (.wakeDelivery) (fly spoilt (.nameOp (op .wake)))) :=
  goes_of ((h.1 (fly spoilt (.nameOp (op .wake))) (op .wake) bootTid rfl (by decide) (by decide) (fun _ e => nomatch e)).1 rfl [] [] rfl (by decide) rfl (fun _ h => nomatch h))

theorem test_wake_free_meets (h : Obligations.NameDelivery) : Goes (exec (.wakeDelivery) (fly (titled .free) (.nameOp (op .wake)))) :=
  goes_of ((h.1 (fly (titled .free) (.nameOp (op .wake))) (op .wake) bootTid rfl (by decide) (by decide) (fun _ e => nomatch e)).2.1 rfl rfl [] [] rfl (by decide) rfl (fun _ h => nomatch h))

theorem test_ngrant_right_meets (h : Obligations.NameDelivery) : Goes (exec (.ngrantDelivery) (fly (titled .resident) (.nameOp (op (.ngrant 3))))) :=
  goes_of ((h.1 (fly (titled .resident) (.nameOp (op (.ngrant 3)))) (op (.ngrant 3)) bootTid rfl (by decide) (by decide) (fun _ e => nomatch e)).2.2.1 rfl (by decide) (by decide) [] [] rfl (by decide) rfl (fun _ h => nomatch h))

theorem test_wake_moving_meets (h : Obligations.NameDelivery) : Goes (exec (.wakeDelivery) (fly (titled .migrating) (.nameOp (op .wake)))) :=
  goes_of ((h.1 (fly (titled .migrating) (.nameOp (op .wake))) (op .wake) bootTid rfl (by decide) (by decide) (fun _ e => nomatch e)).2.2.2.1 rfl rfl (by decide) [] [] rfl (by decide) rfl (fun _ h => nomatch h))

theorem test_wake_dead_meets (h : Obligations.NameDelivery) : Goes (exec (.wakeDelivery) (fly (titled .dead) (.nameOp (op .wake)))) :=
  goes_of ((h.1 (fly (titled .dead) (.nameOp (op .wake))) (op .wake) bootTid rfl (by decide) (by decide) (fun _ e => nomatch e)).2.2.2.2 rfl (by decide) (by decide) |>.1 rfl [] [] rfl (by decide) rfl (fun _ h => nomatch h))

theorem test_join_dead_meets (h : Obligations.NameDelivery) : Goes (exec (.joinDelivery) (fly (titled .dead) (.nameOp (op (.join (.s 8)))))) :=
  goes_of ((h.1 (fly (titled .dead) (.nameOp (op (.join (.s 8))))) (op (.join (.s 8))) bootTid rfl (by decide) (by decide) (fun _ e => nomatch e)).2.2.2.2 rfl (by decide) (by decide) |>.1 rfl [] [] rfl (by decide) rfl (fun _ h => nomatch h))

theorem test_wake_resident_meets (h : Obligations.NameDelivery) : Goes (exec (.wakeDelivery) (fly (titled .resident) (.nameOp (op .wake)))) :=
  goes_of ((h.1 (fly (titled .resident) (.nameOp (op .wake))) (op .wake) bootTid rfl (by decide) (by decide) (fun _ e => nomatch e)).2.2.2.2 rfl (by decide) (by decide) |>.2.2.1 rfl _ rfl [] [] rfl (by decide) rfl (fun _ h => nomatch h))

theorem test_sig_resident_meets (h : Obligations.NameDelivery) : Goes (exec (.sigDelivery) (fly (titled .resident) (.nameOp (op (.sig 3))))) :=
  goes_of ((h.1 (fly (titled .resident) (.nameOp (op (.sig 3)))) (op (.sig 3)) bootTid rfl (by decide) (by decide) (fun _ e => nomatch e)).2.2.2.2 rfl (by decide) (by decide) |>.2.2.1 rfl _ rfl [] [] rfl (by decide) rfl (fun _ h => nomatch h))

theorem test_depo_resident_meets (h : Obligations.NameDelivery) : Goes (exec (.depoDelivery) (fly (titled .resident) (.nameOp (op (.depo 1 5))))) :=
  goes_of ((h.1 (fly (titled .resident) (.nameOp (op (.depo 1 5)))) (op (.depo 1 5)) bootTid rfl (by decide) (by decide) (fun _ e => nomatch e)).2.2.2.2 rfl (by decide) (by decide) |>.2.2.1 rfl _ rfl [] [] rfl (by decide) rfl (fun _ h => nomatch h))

theorem test_join_resident_meets (h : Obligations.NameDelivery) : Goes (exec (.joinDelivery) (fly (titled .resident) (.nameOp (op (.join (.s 8)))))) :=
  goes_of ((h.1 (fly (titled .resident) (.nameOp (op (.join (.s 8))))) (op (.join (.s 8))) bootTid rfl (by decide) (by decide) (fun _ e => nomatch e)).2.2.2.2 rfl (by decide) (by decide) |>.2.1 (by decide) [] [] rfl (by decide) rfl (fun _ h => nomatch h))

theorem test_ngrant_resident_meets (h : Obligations.NameDelivery) : Goes (exec (.ngrantDelivery) (fly granting (.nameOp (op (.ngrant 3))))) :=
  goes_of ((h.1 (fly granting (.nameOp (op (.ngrant 3)))) (op (.ngrant 3)) bootTid rfl (by decide) (by decide) (fun _ e => nomatch e)).2.2.2.2 rfl (by decide) (by decide) |>.2.1 (by decide) [] [] rfl (by decide) rfl (fun _ h => nomatch h))

theorem test_nrevoke_resident_meets (h : Obligations.NameDelivery) : Goes (exec (.nrevokeDelivery) (fly granting (.nameOp (op (.nrevoke 3))))) :=
  goes_of ((h.1 (fly granting (.nameOp (op (.nrevoke 3)))) (op (.nrevoke 3)) bootTid rfl (by decide) (by decide) (fun _ e => nomatch e)).2.2.2.2 rfl (by decide) (by decide) |>.2.1 (by decide) [] [] rfl (by decide) rfl (fun _ h => nomatch h))

theorem test_wake_saved_meets (h : Obligations.NameDelivery) : Goes (exec (.wakeDelivery) (fly (stored) (.nameOp (op .wake)))) :=
  goes_of ((h.1 (fly (stored) (.nameOp (op .wake))) (op .wake) bootTid rfl (by decide) (by decide) (fun _ e => nomatch e)).2.2.2.2 rfl (by decide) (by decide) |>.2.2.2.1 rfl _ rfl [] [] rfl (by decide) rfl (fun _ h => nomatch h))

theorem test_wake_host_meets (h : Obligations.NameDelivery) : Goes (exec (.wakeDelivery) (fly (titled .host) (.nameOp (op .wake)))) :=
  goes_of ((h.1 (fly (titled .host) (.nameOp (op .wake))) (op .wake) bootTid rfl (by decide) (by decide) (fun _ e => nomatch e)).2.2.2.2 rfl (by decide) (by decide) |>.2.2.2.2 rfl [] [] rfl (by decide) rfl (fun _ h => nomatch h))

theorem test_astray_meets (h : Obligations.NameDelivery) : Goes (exec (.wakeDelivery) (fly (titled .resident) (.nameOp strayed))) :=
  goes_of (h.2.1 (fly (titled .resident) (.nameOp strayed)) strayed [] [] rfl (by decide) (by decide) (fun _ h => nomatch h))

theorem test_learn_meets (h : Obligations.NameDelivery) : ((titled .resident).learn (op .wake) ((titled .resident).nameEntry bootTid)).ntlb ≠ [] :=
  List.ne_nil_of_mem (h.2.2.1 (titled .resident) (op .wake) ((titled .resident).nameEntry bootTid) grp.cur.loc (by decide) rfl (.inl rfl))

theorem test_wake_pending_meets (h : Obligations.NameDelivery) : grp.cur.wake.wakePend = true := by
  rw [h.2.2.2.1 grp.cur (by decide) (by decide)]

/-- The loaded group's arm A in a wait, its signal 3 pending. -/
def dozing (ws : WState) : Group :=
  { grp.cur with sigPend := 8, armA := { grp.cur.armA with ws := ws, wreg := 8, waux := 8 } }

theorem test_wake_sleeping_meets (h : Obligations.NameDelivery) : (dozing .sleep).wake.armA.ws = .ready := by
  rw [h.2.2.2.2.1 (dozing .sleep) (by decide) rfl (by decide)]

theorem test_signal_kept_meets (h : Obligations.NameDelivery) : grp.cur.serveSignal = grp.cur :=
  h.2.2.2.2.2.1 grp.cur (by decide) (by decide)

theorem test_signal_served_meets (h : Obligations.NameDelivery) : (dozing .sigw).serveSignal.val32 (.s 8) = 8 :=
  (h.2.2.2.2.2.2.1 (dozing .sigw) rfl rfl (by decide) (by decide) (by decide)).1

theorem test_sig_saved_meets (h : Obligations.NameDelivery) : Goes (exec (.sigDelivery) (fly (stored) (.nameOp (op (.sig 3))))) :=
  goes_of ((h.1 (fly (stored) (.nameOp (op (.sig 3)))) (op (.sig 3)) bootTid rfl (by decide) (by decide) (fun _ e => nomatch e)).2.2.2.2 rfl (by decide) (by decide) |>.2.2.2.1 rfl _ rfl [] [] rfl (by decide) rfl (fun _ h => nomatch h))

theorem test_sig_host_meets (h : Obligations.NameDelivery) : Goes (exec (.sigDelivery) (fly (titled .host) (.nameOp (op (.sig 3))))) :=
  goes_of ((h.1 (fly (titled .host) (.nameOp (op (.sig 3)))) (op (.sig 3)) bootTid rfl (by decide) (by decide) (fun _ e => nomatch e)).2.2.2.2 rfl (by decide) (by decide) |>.2.2.2.2 rfl [] [] rfl (by decide) rfl (fun _ h => nomatch h))

theorem test_depo_saved_meets (h : Obligations.NameDelivery) : Goes (exec (.depoDelivery) (fly (stored) (.nameOp (op (.depo 1 5))))) :=
  goes_of ((h.1 (fly (stored) (.nameOp (op (.depo 1 5)))) (op (.depo 1 5)) bootTid rfl (by decide) (by decide) (fun _ e => nomatch e)).2.2.2.2 rfl (by decide) (by decide) |>.2.2.2.1 rfl _ rfl [] [] rfl (by decide) rfl (fun _ h => nomatch h))

theorem test_depo_host_meets (h : Obligations.NameDelivery) : Goes (exec (.depoDelivery) (fly (titled .host) (.nameOp (op (.depo 1 5))))) :=
  goes_of ((h.1 (fly (titled .host) (.nameOp (op (.depo 1 5)))) (op (.depo 1 5)) bootTid rfl (by decide) (by decide) (fun _ e => nomatch e)).2.2.2.2 rfl (by decide) (by decide) |>.2.2.2.2 rfl [] [] rfl (by decide) rfl (fun _ h => nomatch h))

theorem test_ack_meets (h : Obligations.NameDelivery) : Goes (exec (.postedOpAck) (fly grp (.ack me 2 none))) :=
  goes_of (h.2.2.2.2.2.2.2.1 (fly grp (.ack me 2 none)) bootTid 2 me.arms none [] [] rfl (fun _ h => nomatch h))

theorem test_join_value_meets (h : Obligations.NameDelivery) : Goes (exec (.joinValueArrival) (fly grp (.joinValue me (.s 8) 2))) :=
  goes_of (h.2.2.2.2.2.2.2.2 (fly grp (.joinValue me (.s 8) 2)) me (.s 8) 2 [] [] rfl (fun _ h => nomatch h))

/-- The same port with 64 commands on their way. -/
def stalled : NamePort := { porter with outstanding := 64 }

/-- That port bound. -/
def jammed : State := { ported with ports := [stalled] }

theorem flowing {ps : List Nat} : Claims.flows (pay ported ps) porter := ⟨rfl, fun x m _ => by
  rw [List.mem_singleton.mp m]; rfl, by decide⟩

theorem test_port_wake_meets (h : Obligations.NamePorts) : Goes (exec (.namePortWake) (pay ported [3, 0, 0, 9, 64, 0])) :=
  ⟨_, (h.1 _ (List.Mem.head _) (pay ported [3, 0, 0, 9, 64, 0]) porter 0 0 0 9 64 0 rfl).1 flowing (by decide)⟩

theorem test_port_wake_bad_meets (h : Obligations.NamePorts) : Goes (exec (.namePortWake) (pay ported [3, 1, 0, 9, 64, 0])) :=
  ⟨_, (h.1 _ (List.Mem.head _) (pay ported [3, 1, 0, 9, 64, 0]) porter 1 0 0 9 64 0 rfl).2.1 flowing (by decide)⟩

theorem test_port_wake_stalls_meets (h : Obligations.NamePorts) : Goes (exec (.namePortWake) (pay jammed [3, 0, 0, 9, 64, 0])) :=
  ⟨_, (h.1 _ (List.Mem.head _) (pay jammed [3, 0, 0, 9, 64, 0]) stalled 0 0 0 9 64 0 rfl).2.2 rfl (by decide) (by decide)⟩

theorem test_port_sig_meets (h : Obligations.NamePorts) : Goes (exec (.namePortSig) (pay ported [3, 31, 0, 9, 64, 0])) :=
  ⟨_, (h.1 _ (List.Mem.tail _ (List.Mem.head _)) (pay ported [3, 31, 0, 9, 64, 0]) porter 31 0 0 9 64 0 rfl).1 flowing (by decide)⟩

theorem test_port_sig_bad_meets (h : Obligations.NamePorts) : Goes (exec (.namePortSig) (pay ported [3, 32, 0, 9, 64, 0])) :=
  ⟨_, (h.1 _ (List.Mem.tail _ (List.Mem.head _)) (pay ported [3, 32, 0, 9, 64, 0]) porter 32 0 0 9 64 0 rfl).2.1 flowing (by decide)⟩

theorem test_port_depo_meets (h : Obligations.NamePorts) : Goes (exec (.namePortDepo) (pay ported [3, 7, 0, 5, 9, 64, 0])) :=
  ⟨_, (h.1 _ (List.Mem.tail _ (List.Mem.tail _ (List.Mem.head _))) (pay ported [3, 7, 0, 5, 9, 64, 0]) porter 7 0 5 9 64 0 rfl).1 flowing (by decide)⟩

theorem test_port_depo_bad_meets (h : Obligations.NamePorts) : Goes (exec (.namePortDepo) (pay ported [3, 8, 0, 5, 9, 64, 0])) :=
  ⟨_, (h.1 _ (List.Mem.tail _ (List.Mem.tail _ (List.Mem.head _))) (pay ported [3, 8, 0, 5, 9, 64, 0]) porter 8 0 5 9 64 0 rfl).2.1 flowing (by decide)⟩

theorem test_port_join_meets (h : Obligations.NamePorts) : Goes (exec (.namePortJoin) (pay ported [3, 0, 0, 9, 64, 0])) :=
  ⟨_, (h.1 _ (List.Mem.tail _ (List.Mem.tail _ (List.Mem.tail _ (List.Mem.head _)))) (pay ported [3, 0, 0, 9, 64, 0]) porter 0 0 0 9 64 0 rfl).1 flowing (by decide)⟩

theorem test_port_join_bad_meets (h : Obligations.NamePorts) : Goes (exec (.namePortJoin) (pay ported [3, 1, 0, 9, 64, 0])) :=
  ⟨_, (h.1 _ (List.Mem.tail _ (List.Mem.tail _ (List.Mem.tail _ (List.Mem.head _)))) (pay ported [3, 1, 0, 9, 64, 0]) porter 1 0 0 9 64 0 rfl).2.1 flowing (by decide)⟩

theorem test_port_hexit_meets (h : Obligations.NamePorts) : Goes (exec (.namePortHexit) (pay ported [3, 0, 0, 5, 9, 64, 0])) :=
  ⟨_, (h.1 _ (List.Mem.tail _ (List.Mem.tail _ (List.Mem.tail _ (List.Mem.tail _ (List.Mem.head _))))) (pay ported [3, 0, 0, 5, 9, 64, 0]) porter 0 0 5 9 64 0 rfl).1 flowing (by decide)⟩

theorem test_port_hexit_bad_meets (h : Obligations.NamePorts) : Goes (exec (.namePortHexit) (pay ported [3, 1, 0, 5, 9, 64, 0])) :=
  ⟨_, (h.1 _ (List.Mem.tail _ (List.Mem.tail _ (List.Mem.tail _ (List.Mem.tail _ (List.Mem.head _))))) (pay ported [3, 1, 0, 5, 9, 64, 0]) porter 1 0 5 9 64 0 rfl).2.1 flowing (by decide)⟩

theorem test_port_hexit_stalls_meets (h : Obligations.NamePorts) : Goes (exec (.namePortHexit) (pay jammed [3, 0, 0, 5, 9, 64, 0])) :=
  ⟨_, (h.1 _ (List.Mem.tail _ (List.Mem.tail _ (List.Mem.tail _ (List.Mem.tail _ (List.Mem.head _))))) (pay jammed [3, 0, 0, 5, 9, 64, 0]) stalled 0 0 5 9 64 0 rfl).2.2 rfl (by decide) (by decide)⟩

/-- A HEXIT of the port on its own name (on one that is not HOST). -/
def quitting (n : Nat) : NameOp := ⟨.port 3, ⟨false, false⟩, 0, n, .hexit 5, true, some 64, (0, 0), .home⟩

theorem test_hexit_meets (h : Obligations.NamePorts) : Goes (exec (.namePortHexit) (fly ported (.nameOp (quitting 9)))) :=
  goes_of ((h.2.1 (fly ported (.nameOp (quitting 9))) (quitting 9) 3 5 rfl rfl rfl (by decide) (by decide)).1 rfl rfl rfl [] [] rfl
    (by decide) rfl (fun _ h => nomatch h))

theorem test_hexit_rights_meets (h : Obligations.NamePorts) : Goes (exec (.namePortHexit) (fly ported (.nameOp (quitting 8)))) :=
  goes_of ((h.2.1 (fly ported (.nameOp (quitting 8))) (quitting 8) 3 5 rfl rfl rfl (by decide) (by decide)).2 (.inl (by decide)) [] [] rfl
    (by decide) rfl (fun _ h => nomatch h))

theorem test_port_reserved_meets (h : Obligations.NamePorts) : Goes (exec (.namePortReservedOp) (pay ported [3, 12, 0, 64])) :=
  ⟨_, h.2.2.1 (pay ported [3, 12, 0, 64]) porter 12 0 64 rfl flowing⟩

theorem test_port_discarded_meets (h : Obligations.NamePorts) : Goes (exec (.namePortDiscardedWrite) (pay ported [3])) :=
  ⟨_, h.2.2.2.1 (pay ported [3]) porter rfl flowing⟩

theorem test_host_name_meets (h : Obligations.NamePorts) : Goes (exec (.hostNameAlloc) (pay manned [8, 3, 64, 0])) :=
  goes_of (h.2.2.2.2.1 (pay manned [8, 3, 64, 0]) porter 8 64 0 rfl rfl rfl rfl rfl (by decide) rfl (by decide))

theorem test_name_release_meets (h : Obligations.NamePorts) : Goes (exec (.nameRelease) (pay manned [9, 1])) :=
  ⟨_, h.2.2.2.2.2.1 (pay manned [9, 1]) 9 1 rfl rfl (fun _ a b => ⟨_, .head _, (Nat.le_antisymm a (Nat.lt_succ_iff.mp b))⟩)⟩

/-- A complex serves; the tree in memory holds name 9, DEAD, which is not cached. -/
def deadInMemory : State :=
  { manned with
    names := []
    mem := ((((State.reset.mem.wr 0x4003000000 8 0x50000001).wr 0x50000000 8 0x50008001).wr 0x50008000 8 0x50010001).wr
      0x50010000 8 0x50020001).wr 0x50020128 4 5 }

theorem test_name_release_tree_meets (h : Obligations.NamePorts) : Goes (exec (.nameRelease) (pay deadInMemory [9, 1])) :=
  ⟨_, h.2.2.2.2.2.2.1 (pay deadInMemory [9, 1]) 9 0x50020120 rfl rfl (fun _ h => nomatch h) (by decide +kernel) (by decide +kernel)
    (by decide +kernel)⟩

theorem test_unserved_meets (h : Obligations.NamePorts) : Goes (exec (.hostNameAlloc) (pay ported [8, 3, 64, 0])) :=
  ⟨_, h.2.2.2.2.2.2.2.1 _ (.head _) (pay ported [8, 3, 64, 0]) rfl⟩

theorem test_port_unbind_meets (h : Obligations.NamePorts) : Goes (exec (.portUnbind) (pay manned [3])) :=
  goes_of (h.2.2.2.2.2.2.2.2.1 (pay manned [3]) 3 rfl rfl)

theorem test_name_error_meets (h : Obligations.NamePorts) : Goes (exec (.nameEntryError) (pay ported [9])) :=
  goes_of (h.2.2.2.2.2.2.2.2.2 (pay ported [9]) 9 rfl (by decide) (by decide))

theorem test_skein_alloc_meets (h : Obligations.SkeinEvents) : Goes (exec (.skeinAlloc) (fly grp (.skeinAlloc bootTid (.s 8) 1 0 0xFC00000000000000 none))) :=
  goes_of (h.1 (fly grp (.skeinAlloc bootTid (.s 8) 1 0 0xFC00000000000000 none)) bootTid 1 1 (.s 8) 0 0xFC00000000000000 (fly grp (.skeinAlloc bootTid (.s 8) 1 0 0xFC00000000000000 none)).cur rfl (by decide) [] [] rfl (fun _ h => nomatch h))

theorem test_skein_none_meets (h : Obligations.SkeinEvents) : Goes (exec (.skeinAlloc) (fly noRecords (.skeinAlloc bootTid (.s 8) 1 0 0xFC00000000000000 none))) :=
  (let ⟨t, x, _⟩ := h.2.1 (fly noRecords (.skeinAlloc bootTid (.s 8) 1 0 0xFC00000000000000 none)) bootTid 1 (.s 8) 0 0xFC00000000000000 none rfl [] [] rfl (fun _ h => nomatch h); ⟨t, x⟩)

theorem test_ind_alloc_meets (h : Obligations.SkeinEvents) : Goes (exec (.indirectionAlloc) ({ fly grp (.indAlloc bootTid (.s 8) (.s 10) 0) with mem := (grp.mem.wr 0x4000000088 8 0x4004000040).wr 0x4000000090 4 1 })) :=
  goes_of (h.2.2.1 ({ fly grp (.indAlloc bootTid (.s 8) (.s 10) 0) with mem := (grp.mem.wr 0x4000000088 8 0x4004000040).wr 0x4000000090 4 1 }) bootTid 1 (.s 8) (.s 10) 0 ({ fly grp (.indAlloc bootTid (.s 8) (.s 10) 0) with mem := (grp.mem.wr 0x4000000088 8 0x4004000040).wr 0x4000000090 4 1 }).cur rfl (by decide) [] [] rfl (fun _ h => nomatch h))

theorem test_ind_none_meets (h : Obligations.SkeinEvents) : Goes (exec (.indirectionAlloc) (fly grp (.indAlloc bootTid (.s 8) (.s 10) 0))) :=
  goes_of (h.2.2.2.1 (fly grp (.indAlloc bootTid (.s 8) (.s 10) 0)) bootTid (.s 8) (.s 10) 0 (fly grp (.indAlloc bootTid (.s 8) (.s 10) 0)).cur rfl (by decide) [] [] rfl (fun _ h => nomatch h))

theorem test_drop_stale_meets (h : Obligations.SkeinEvents) : Goes (exec (.skeinDrop) (fly grp (.skeinDrop (some me) 0 1))) :=
  goes_of ((h.2.2.2.2.1 (fly grp (.skeinDrop (some me) 0 1)) me 0 1).1 (by decide) (by decide) [] [] rfl (fun _ h => nomatch h))

theorem test_drop_share_meets (h : Obligations.SkeinEvents) : Goes (exec (.skeinDrop) (fly tensored (.skeinDrop (some me) 0 1))) :=
  goes_of ((h.2.2.2.2.1 (fly tensored (.skeinDrop (some me) 0 1)) me 0 1).2.1 (by decide) (by decide) [] [] rfl (fun _ h => nomatch h))

theorem test_drop_over_meets (h : Obligations.SkeinEvents) : Goes (exec (.skeinDrop) ({ fly grp (.skeinDrop (some me) 0 1) with skeins := [{ Skein.free 1 with live := true, ret := 2 ^ 62, held := 0xFC00000000000000 }] })) :=
  goes_of ((h.2.2.2.2.1 ({ fly grp (.skeinDrop (some me) 0 1) with skeins := [{ Skein.free 1 with live := true, ret := 2 ^ 62, held := 0xFC00000000000000 }] }) me 0 1).2.2.1 (by decide) (by decide) [] [] rfl (fun _ h => nomatch h))

theorem test_drop_last_meets (h : Obligations.SkeinEvents) : Goes (exec (.skeinDrop) ({ fly grp (.skeinDrop (some me) 0 1) with skeins := [{ Skein.free 1 with live := true, ret := 2 ^ 62 - 1, held := 0xFC00000000000000 }] })) :=
  goes_of ((h.2.2.2.2.1 ({ fly grp (.skeinDrop (some me) 0 1) with skeins := [{ Skein.free 1 with live := true, ret := 2 ^ 62 - 1, held := 0xFC00000000000000 }] }) me 0 1).2.2.2 (by decide) (by decide) rfl rfl (by decide) [] [] rfl (fun _ h => nomatch h))

theorem test_skein_bind_meets (h : Obligations.SkeinEvents) :
    ∃ t, exec (.skeinBind) (fly tensored (.skeinBind me 1 none)) = .next t ∧ t.flight = [.ack me 0 none] :=
  let ⟨t, e, x⟩ := h.2.2.2.2.2.1 (fly tensored (.skeinBind me 1 none)) me 1 none [] [] rfl (fun _ h => nomatch h)
  ⟨t, e, by rw [x.1 1 (by decide) (by decide)]; rfl⟩

theorem test_skein_bind_stale_meets (h : Obligations.SkeinEvents) :
    ∃ t, exec (.skeinBind) (fly grp (.skeinBind me 1 none)) = .next t ∧ t.flight.length = 1 :=
  let ⟨t, e, x⟩ := h.2.2.2.2.2.1 (fly grp (.skeinBind me 1 none)) me 1 none [] [] rfl (fun _ h => nomatch h)
  ⟨t, e, by rw [x.2.1 1 (.inr (by decide))]; rfl⟩

theorem test_skein_reply_meets (h : Obligations.SkeinEvents) : Goes (exec (.skeinReply) (fly grp (.skeinReply bootTid []))) :=
  goes_of ((h.2.2.2.2.2.2.1 (fly grp (.skeinReply bootTid [])) bootTid [] (.s 8) 0).1 [] [] rfl (fun _ h => nomatch h))

theorem test_hinfo_reply_meets (h : Obligations.SkeinEvents) : Goes (exec (.skeinReply) (fly grp (.hinfo bootTid (.s 8) 0))) :=
  goes_of ((h.2.2.2.2.2.2.1 (fly grp (.hinfo bootTid (.s 8) 0)) bootTid [] (.s 8) 0).2 (by decide) [] [] rfl (fun _ h => nomatch h))

/-- A SCOPEW with no waiter record left. -/
def roomless : State := { fly grp (.scopewAttach me (.s 8) (.s 10) 1) with bases := { grp.bases with jpoolCount := 0 } }

theorem test_scopew_noroom_meets (h : Obligations.SkeinEvents) : Goes (exec (.scopewAttach) roomless) :=
  goes_of ((h.2.2.2.2.2.2.2.1 roomless me (.s 8) (.s 10) 1).1 (by decide) [] [] rfl (fun _ h => nomatch h))

theorem test_scopew_stale_meets (h : Obligations.SkeinEvents) : Goes (exec (.scopewAttach) (fly grp (.scopewAttach me (.s 8) (.s 10) 1))) :=
  goes_of ((h.2.2.2.2.2.2.2.1 (fly grp (.scopewAttach me (.s 8) (.s 10) 1)) me (.s 8) (.s 10) 1).2.1 1 (by decide) (by decide) (by decide) (by decide) (by decide) [] [] rfl (fun _ h => nomatch h))

theorem test_scopew_waits_meets (h : Obligations.SkeinEvents) : Goes (exec (.scopewAttach) (fly tensored (.scopewAttach me (.s 8) (.s 10) 1))) :=
  goes_of ((h.2.2.2.2.2.2.2.1 (fly tensored (.scopewAttach me (.s 8) (.s 10) 1)) me (.s 8) (.s 10) 1).2.2 1 (by decide) (by decide) (by decide) (by decide) (by decide) [] [] rfl (fun _ h => nomatch h))

/-- Arm B in its SCOPEW. -/
def scopedArm : State := fly { grp with cur := { grp.cur with armB := { Arm.free with occ := true, ws := .scopew, wreg := 50 } } }
  (.scopewDone ⟨bootTid, ⟨false, true⟩⟩ (.b true 50) 6)

theorem test_scopew_done_meets (h : Obligations.SkeinEvents) : Goes (exec (.scopewComplete) scopedArm) :=
  goes_of (h.2.2.2.2.2.2.2.2.1 scopedArm ⟨bootTid, ⟨false, true⟩⟩ 50 6 scopedArm.cur (by decide) (by decide) (by decide) rfl rfl rfl rfl [] [] rfl (fun _ h => nomatch h))

theorem test_scopew_saved_meets (h : Obligations.SkeinEvents) :
    Goes (exec (.scopewComplete) { scopedArm with cur := { scopedArm.cur with resident := false } }) :=
  goes_of (h.2.2.2.2.2.2.2.2.2.1 { scopedArm with cur := { scopedArm.cur with resident := false } } ⟨bootTid, ⟨false, true⟩⟩ 50 6
    { scopedArm.cur with resident := false } (by decide) (by decide) (by decide) rfl rfl rfl rfl [] [] rfl (fun _ h => nomatch h))

theorem test_skein_error_meets (h : Obligations.SkeinEvents) : Goes (exec (.skeinRecordError) (pay tensored [1])) :=
  goes_of (h.2.2.2.2.2.2.2.2.2.2 (pay tensored [1]) 1 rfl)

/-! #### Events of queues, watches, the hub, groups and pre-emption -/

/-- A launch of one group of region 0. -/
def one_ : Launch :=
  ⟨1, 0, 0, none, 0x100000, 0, 0xFC00000000000000, 0, 0, 1, 0, 0, 0, 0, 16, 96, 0, false, 0, 0, []⟩

/-- Region 0 with a save area and clusters to place on; nothing runs. -/
def planned : State :=
  { State.reset with mem := ((State.reset.mem.wr 0x4000000050 8 0x200000).wr 0x4000000058 8 0x100000).wr 0x4000000070 8 0xFFFF }

/-- A launch that waits. -/
def waiting : State := { planned with waiting := [one_] }

/-- A started launch. -/
def started (eff : EffVals) : Started := ⟨one_, 1, 0, 0, 0, eff, [], 0x200000, 0x100000⟩

/-- A submission queue of four records. -/
def queued : State := { State.reset with mem := (State.reset.mem.wr 0x4001000008 4 4).wr 0x4001000000 8 0x200000 }

/-- A watch of one line with an open window on die 0. -/
def windowed : Watch :=
  ⟨5, 0, 0x1000, 0, 0, 1, 0, 0, [(0x1000, 64, 0)],
    ⟨true, true, 0, 0, [⟨0, 0, 1, 1⟩], [], 0, 0, false⟩ :: (List.range 5).map fun _ => .fresh false⟩

/-- The loaded group saved, and dispatchable. -/
def saved : State :=
  { planned with
    names := [{ NameEntry.free bootTid with state := .saved }]
    others := [{ bootGroup with resident := false }] }

/-- The loaded group with its name, its arm in a state. -/
def armed (ws : WState) : State :=
  { titled .resident with cur := { (titled .resident).cur with armA := { (titled .resident).cur.armA with ws := ws } } }

/-- Pre-emption of region 0 under way. -/
def preempting (drained : Bool) : State := { titled .resident with prectl := ⟨0, true, false, false, drained, []⟩ }

/-- A save record of name 7 at 0x300000. -/
def image : State := { pay State.reset [0, 0x300000, 0, 0, 0] with mem := State.reset.mem.wr 0x300008 8 7 }


theorem test_post_accept_meets (h : Obligations.QueueAndWatchEvents) : Goes (exec (.postAccept) (fly grp (.post me 0 [1, 2, 3, 4]))) :=
  goes_of ((h.1 (fly grp (.post me 0 [1, 2, 3, 4])) me 0 [1, 2, 3, 4]).1 (by decide) [] [] rfl (fun _ h => nomatch h))

theorem test_post_taken_meets (h : Obligations.QueueAndWatchEvents) : Goes (exec (.postAccept) (fly { grp with stageqs := modAt (fun x => { x with waiting := [(bootTid, false, 8)] }) 0 grp.stageqs } (.post me 0 [1, 2, 3, 4]))) :=
  goes_of ((h.1 (fly { grp with stageqs := modAt (fun x => { x with waiting := [(bootTid, false, 8)] }) 0 grp.stageqs } (.post me 0 [1, 2, 3, 4])) me 0 [1, 2, 3, 4]).2 bootTid false 8 [] (by decide) [] [] rfl (fun _ h => nomatch h))

theorem test_take_item_meets (h : Obligations.QueueAndWatchEvents) : Goes (exec (.takeItemDelivery) (fly grp (.takeItem me false 8 [1, 2, 3, 4]))) :=
  goes_of (h.2.1 (fly grp (.takeItem me false 8 [1, 2, 3, 4])) me 8 false 1 2 3 4 [] [] rfl (fun _ h => nomatch h))

theorem test_install_meets (h : Obligations.QueueAndWatchEvents) : Goes (exec (.watchInstallComplete) (fly grp (.watchInstall bootTid (.s 8) (some (watch 0)) 5))) :=
  goes_of ((h.2.2.1 (fly grp (.watchInstall bootTid (.s 8) (some (watch 0)) 5)) bootTid (.s 8) (watch 0) 5 0).1 [] [] rfl (fun _ h => nomatch h))

theorem test_install_fail_meets (h : Obligations.QueueAndWatchEvents) : Goes (exec (.watchInstallComplete) (fly grp (.watchInstall bootTid (.s 8) none 5))) :=
  goes_of ((h.2.2.1 (fly grp (.watchInstall bootTid (.s 8) none 5)) bootTid (.s 8) (watch 0) 5 0).2.1 [] [] rfl (fun _ h => nomatch h))

theorem test_watch_reply_meets (h : Obligations.QueueAndWatchEvents) : Goes (exec (.watchQueryReply) (fly grp (.watchQuery bootTid (.s 8) 0))) :=
  goes_of ((h.2.2.1 (fly grp (.watchQuery bootTid (.s 8) 0)) bootTid (.s 8) (watch 0) 5 0).2.2 [] [] rfl (fun _ h => nomatch h))

theorem test_unwatch_event_meets (h : Obligations.QueueAndWatchEvents) : Goes (exec (.unwatchComplete) (fly (watching 0) (.unwatch bootTid (.s 8) 5 0))) :=
  goes_of (h.2.2.2.1 (fly (watching 0) (.unwatch bootTid (.s 8) 5 0)) bootTid 5 (.s 8) 0 [] [] rfl (fun _ h => nomatch h))

theorem test_watched_same_meets (h : Obligations.QueueAndWatchEvents) : Goes (exec (.watchedWriteAtHome) (fly (watching 0) (.watchedWrite 0x1004 3 3))) :=
  goes_of ((h.2.2.2.2.1 (fly (watching 0) (.watchedWrite 0x1004 3 3)) 0x1004 4 3 3 (watch 0) (by decide) rfl rfl rfl).1 rfl [] [] rfl (fun _ h => nomatch h))

theorem test_watched_new_meets (h : Obligations.QueueAndWatchEvents) : Goes (exec (.watchedWriteAtHome) (fly (watching 0) (.watchedWrite 0x1004 3 4))) :=
  goes_of ((h.2.2.2.2.1 (fly (watching 0) (.watchedWrite 0x1004 3 4)) 0x1004 4 3 4 (watch 0) (by decide) rfl rfl rfl).2.2.1 (by decide) (by decide) [] [] rfl (fun _ h => nomatch h))

/-- The loaded group's watch with an open window, at a clock. -/
def timed (c : W64) (ps : List Nat) : State := { pay grp ps with watches := [windowed], clock := c }

theorem test_watched_again_meets (h : Obligations.QueueAndWatchEvents) : Goes (exec (.watchedWriteAtHome) (fly (timed 0 []) (.watchedWrite 0x1000 3 4))) :=
  goes_of ((h.2.2.2.2.1 (fly (timed 0 []) (.watchedWrite 0x1000 3 4)) 0x1000 0 3 4 windowed (by decide) rfl rfl rfl).2.1 (by decide) (by decide) (by decide) [] [] rfl (fun _ h => nomatch h))

theorem test_merge_opens_meets (h : Obligations.QueueAndWatchEvents) :
    (((watch 0).on 0).merge 9 4 3 4).open_ = true := by
  have x := (h.2.2.2.2.1 (watching 0) 0x1004 4 3 4 (watch 0) (by decide) rfl rfl rfl).2.2.2.1 9 rfl rfl rfl
  exact congrArg WatchDie.open_ x

theorem test_merge_again_meets (h : Obligations.QueueAndWatchEvents) :
    ((windowed.on 0).merge 9 0 3 4).recs = [⟨0, 0, 4, 2⟩] :=
  congrArg WatchDie.recs ((h.2.2.2.2.1 (timed 0 []) 0x1000 0 3 4 windowed (by decide) rfl rfl rfl).2.2.2.2 9 _ _ rfl rfl rfl rfl)

theorem test_window_close_meets (h : Obligations.QueueAndWatchEvents) : Goes (exec (.watchWindowClose) (timed 1 [0, 5])) :=
  (let ⟨t, _, x⟩ := (h.2.2.2.2.2 (timed 1 [0, 5]) 0 5 windowed rfl rfl).1 rfl (by decide) rfl (by decide) (by decide) (by decide) rfl; ⟨t, x.1⟩)

/-- A watch whose first part is homed on die 0, with no window open, at a clock. -/
def periodic (c : W64) : State :=
  { pay grp [0, 5] with
    clock := c
    watches := [{ watch 0 with dies := ⟨true, false, 0, 0, [], [], 1, 0, false⟩ :: (List.range 5).map fun _ => .fresh false }] }

theorem test_period_meets (h : Obligations.QueueAndWatchEvents) : Goes (exec (.watchPeriodStart) (periodic 0x100000)) :=
  ⟨_, (h.2.2.2.2.2 (periodic 0x100000) 0 5 _ rfl rfl).2.2.1 rfl (by decide) rfl rfl (by decide)⟩

theorem test_period_early_meets (h : Obligations.QueueAndWatchEvents) : Goes (exec (.watchPeriodStart) (timed 0xFFFFF [0, 5])) :=
  ⟨_, (h.2.2.2.2.2 (timed 0xFFFFF [0, 5]) 0 5 windowed rfl rfl).2.2.2 (.inr (by decide))⟩

theorem test_window_shut_meets (h : Obligations.QueueAndWatchEvents) : Goes (exec (.watchWindowClose) (pay (watching 0) [0, 5])) :=
  ⟨_, (h.2.2.2.2.2 (pay (watching 0) [0, 5]) 0 5 (watch 0) rfl rfl).2.1 (.inl rfl)⟩

theorem test_doorbell_meets (h : Obligations.HubEvents) : Goes (exec (.submissionDoorbell) (pay queued [0, 3])) :=
  (let ⟨_, x, _⟩ := ((h.1 (pay queued [0, 3]) 0 3 rfl).2.2 (by decide) rfl rfl (by decide)).1 (by decide) (by decide); ⟨_, x⟩)

theorem test_doorbell_q_meets (h : Obligations.HubEvents) : Goes (exec (.submissionDoorbell) (pay queued [1024, 3])) :=
  ⟨_, (h.1 (pay queued [1024, 3]) 1024 3 rfl).2.1 (by decide) rfl rfl (by decide)⟩

theorem test_doorbell_full_meets (h : Obligations.HubEvents) :
    Goes (exec (.submissionDoorbell) { pay queued [0, 3] with waiting := List.replicate 65536 one_ }) :=
  ⟨_, (h.1 { pay queued [0, 3] with waiting := List.replicate 65536 one_ } 0 3 rfl).1 (.inl (by rw [List.length_replicate]))⟩

theorem test_doorbell_behind_meets (h : Obligations.HubEvents) :
    Goes (exec (.submissionDoorbell) ((pay queued [0, 3]).modMdie 1 fun d => { d with held := [.req ⟨0x100000001, 1, 0, 4, 0, none⟩] })) :=
  ⟨_, (h.1 ((pay queued [0, 3]).modMdie 1 fun d => { d with held := [.req ⟨0x100000001, 1, 0, 4, 0, none⟩] }) 0 3 rfl).1 (.inr (by decide))⟩

theorem test_doorbell_bad_meets (h : Obligations.HubEvents) : Goes (exec (.submissionDoorbell) (pay queued [0, 4])) :=
  ⟨_, ((h.1 (pay queued [0, 4]) 0 4 rfl).2.2 (by decide) rfl rfl (by decide)).2 (by decide)⟩

theorem test_intake_meets (h : Obligations.HubEvents) : Goes (exec (.intakeRecord) ({ pay queued [0] with queueTails := [(0, 3)] })) :=
  (let ⟨t, _, x⟩ := (h.2.1 ({ pay queued [0] with queueTails := [(0, 3)] }) 0 rfl (by decide)).1 (by decide) (by decide) (by decide); ⟨t, x.1⟩)

theorem test_intake_none_meets (h : Obligations.HubEvents) : Goes (exec (.intakeRecord) (pay queued [0])) :=
  ⟨_, (h.2.1 (pay queued [0]) 0 rfl (by decide)).2 (.inr (.inr (by decide)))⟩

theorem test_intake_1024_meets (h : Obligations.HubEvents) : Goes (exec (.intakeRecord) (pay queued [1024])) :=
  ⟨_, (h.2.1 (pay queued [1024]) 1024 rfl (by decide)).2 (.inl (by decide))⟩

theorem test_plq_drain_meets (h : Obligations.HubEvents) : Goes (exec (.pendingLaunchDrain) ({ pay grp [0] with plq := [⟨0, me, 0, one_⟩] })) :=
  ⟨_, h.2.2.1 ({ pay grp [0] with plq := [⟨0, me, 0, one_⟩] }) 0 [] [] ⟨0, me, 0, one_⟩ rfl (by decide) rfl rfl (fun _ h => nomatch h) rfl⟩

theorem test_launch_start_meets (h : Obligations.HubEvents) : Goes (exec .launchStart waiting) :=
  let ⟨_, e⟩ := Option.isSome_iff_exists.mp (show (waiting.tryStart one_).isSome = true by decide)
  ⟨_, (h.2.2.2.1 waiting _ one_ [] rfl).1 (by decide) e⟩

theorem test_launch_reject_meets (h : Obligations.HubEvents) : Goes (exec (.launchStart) ({ planned with waiting := [{ one_ with vregs := 0 }] })) :=
  ⟨_, (h.2.2.2.1 ({ planned with waiting := [{ one_ with vregs := 0 }] }) ({ planned with waiting := [{ one_ with vregs := 0 }] }) { one_ with vregs := 0 } [] rfl).2 (by decide) rfl⟩

theorem test_start_meets (h : Obligations.HubEvents) : waiting.tryStart one_ = some (waiting.startLaunch one_ 1) :=
  (h.2.2.2.2.1 waiting one_ 1 (by decide) (by decide) rfl rfl).1

theorem test_starve_meets (h : Obligations.HubEvents) : Goes (exec (.launchStarvation) (pay waiting [1])) :=
  ⟨_, h.2.2.2.2.2.1 (pay waiting [1]) 1 rfl⟩

theorem test_place_meets (h : Obligations.HubEvents) :
    Goes (exec .rankPlace { planned with started := [started (planned.effVals 0 false)] }) :=
  let ⟨_, e⟩ := Option.isSome_iff_exists.mp
    (show (({ planned with started := [started (planned.effVals 0 false)] } : State).placeNext (started (planned.effVals 0 false))).isSome = true
      by decide +kernel)
  ⟨_, (h.2.2.2.2.2.2 _ _ (started (planned.effVals 0 false)) [] rfl).1 e⟩

/-- A launch with a scratchpad, of the highest priority, that may use cluster 0. -/
def pressing : Started := { started ⟨0, 0, false, 0, 1⟩ with launch := { one_ with spad := 1 } }

/-- Groups of a lower priority hold the scratchpads of its four cores. -/
def crowded : State :=
  let g : Group := { grp.cur with info := { grp.cur.info with prio := 3 }, spadKiB := 384 }
  { grp with
    started := [pressing]
    cur := g
    others := [(2, 1, 0), (3, 0, 1), (4, 1, 1)].map fun (t, x, y) => { g with tid := t, loc := ⟨0, x, y, 0⟩ } }

theorem test_place_swaps_meets (h : Obligations.HubEvents) : Goes (exec .rankPlace crowded) :=
  let ⟨_, e⟩ := Option.isSome_iff_exists.mp (show (crowded.victim pressing).isSome = true by decide +kernel)
  ⟨_, (h.2.2.2.2.2.2 crowded crowded pressing [] rfl).2 _ (Option.isNone_iff_eq_none.mp (by decide +kernel)) e (by decide)⟩

theorem test_placed_meets (h : Obligations.PlacementGroupEvents) :
    (planned.newGroup (started (planned.effVals 0 false)) 0 0 ⟨0, 0, 0, 0⟩ 0 0).rank = 0 :=
  (h.1 planned (started (planned.effVals 0 false)) 0 0 ⟨0, 0, 0, 0⟩ 0 0 (by decide)).2.1

theorem test_threshold_meets (h : Obligations.PlacementGroupEvents) : Goes (exec (.swapThreshold) ({ pay (armed .sleep) [bootTid] with clock := 10, cur := { (armed .sleep).cur with eff := { (armed .sleep).cur.eff with swapthr := 10 } } })) :=
  ⟨_, (h.2.1 ({ pay (armed .sleep) [bootTid] with clock := 10, cur := { (armed .sleep).cur with eff := { (armed .sleep).cur.eff with swapthr := 10 } } }) ({ pay (armed .sleep) [bootTid] with clock := 10, cur := { (armed .sleep).cur with eff := { (armed .sleep).cur.eff with swapthr := 10 } } }).cur rfl rfl).1 (by decide)⟩

theorem test_threshold_early_meets (h : Obligations.PlacementGroupEvents) : Goes (exec (.swapThreshold) ({ pay (armed .sleep) [bootTid] with clock := 9, cur := { (armed .sleep).cur with eff := { (armed .sleep).cur.eff with swapthr := 10 } } })) :=
  ⟨_, (h.2.1 ({ pay (armed .sleep) [bootTid] with clock := 9, cur := { (armed .sleep).cur with eff := { (armed .sleep).cur.eff with swapthr := 10 } } }) ({ pay (armed .sleep) [bootTid] with clock := 9, cur := { (armed .sleep).cur with eff := { (armed .sleep).cur.eff with swapthr := 10 } } }).cur rfl rfl).2 (by decide)⟩

/-- The loaded group as a swap takes it. -/
def swapping : State :=
  { pay (titled .migrating) [bootTid] with cur := { (titled .migrating).cur with migrating := true, saveRec := 0x200000 } }

theorem test_save_meets (h : Obligations.PlacementGroupEvents) : Goes (exec (.saveComplete) swapping) :=
  goes_of (h.2.2.1 swapping swapping.cur rfl (by decide) rfl rfl rfl rfl (by decide) (by decide) (fun _ h => nomatch h))

/-- The saved group. -/
def sleeper : Group := { bootGroup with resident := false }

theorem test_resume_meets (h : Obligations.PlacementGroupEvents) : Goes (exec .groupResume (pay saved [bootTid])) :=
  let ⟨_, e⟩ := Option.isSome_iff_exists.mp (show ((pay saved [bootTid]).resumeUnit ((pay saved [bootTid]).unitOf sleeper)).isSome = true
    by decide +kernel)
  ⟨_, (h.2.2.2.1 (pay saved [bootTid]) sleeper rfl rfl (by decide) rfl).1 _ e⟩

/-- The saved group with nowhere to stand. -/
def outside : State := { pay saved [bootTid] with mem := State.reset.mem }

theorem test_resume_nowhere_meets (h : Obligations.PlacementGroupEvents) : Goes (exec (.groupResume) outside) :=
  ⟨_, (h.2.2.2.1 outside sleeper rfl rfl (by decide) rfl).2 (Option.isNone_iff_eq_none.mp (by decide +kernel))⟩

theorem test_resumeOn_meets (h : Obligations.PlacementGroupEvents) :
    ((saved.resumeOn sleeper 0 ⟨0, 0, 0, 0⟩).nameEntry bootTid).state = .resident :=
  let ⟨_, e⟩ := Option.isSome_iff_exists.mp (show ((saved.resumeOn sleeper 0 ⟨0, 0, 0, 0⟩).thread bootTid).isSome = true by decide)
  (h.2.2.2.2.1 saved sleeper 0 ⟨0, 0, 0, 0⟩ _ (by decide) rfl rfl rfl rfl rfl rfl (fun _ h => nomatch h) e).2.2.2.2.2.2.2.2.2.2.2

theorem test_yield_ready_meets (h : Obligations.PlacementGroupEvents) : Goes (exec (.yieldReady) (pay (armed .yld) [bootTid, 0])) :=
  goes_of (h.2.2.2.2.2.1 (pay (armed .yld) [bootTid, 0]) (pay (armed .yld) [bootTid, 0]).cur false rfl (by decide) rfl (by decide) rfl rfl)

/-- The loaded group exiting with 64. -/
def leaving : State :=
  { pay (titled .resident) [bootTid] with
    cur := { (titled .resident).cur with exiting := some 64, s := (titled .resident).cur.s.set 5 0xFC000000 } }

theorem test_exit_done_meets (h : Obligations.PlacementGroupEvents) : Goes (exec (.groupExitComplete) leaving) :=
  goes_of (h.2.2.2.2.2.2.1 leaving leaving.cur 64 rfl (by decide) rfl (fun _ _ h => nomatch h) rfl rfl (by decide) (fun _ _ => by decide) rfl)

theorem test_exit_empty_meets (h : Obligations.PlacementGroupEvents) :
    Goes (exec (.groupExitComplete) { leaving with cur := leaving.cur.setFull (.s 4) false }) :=
  goes_of (h.2.2.2.2.2.2.1 { leaving with cur := leaving.cur.setFull (.s 4) false } (leaving.cur.setFull (.s 4) false) 64 rfl (by decide) rfl
    (fun _ _ h => nomatch h) rfl rfl (by decide) (fun x => absurd x (by decide)) rfl)

/-- Every group of region 0 has waited for 2^HANGLOG cycles. -/
def stuck : State := { pay (armed .sleep) [0] with hangs := [(0, 65536, 0)], clock := 1 }

theorem test_doldrums_meets (h : Obligations.PlacementGroupEvents) : Goes (exec (.doldrumsExpiry) stuck) :=
  goes_of ((h.2.2.2.2.2.2.2 stuck 0 rfl).2 (by decide) rfl)

theorem test_doldrums_busy_meets (h : Obligations.PlacementGroupEvents) : Goes (exec (.doldrumsExpiry) (pay grp [0])) :=
  ⟨_, (h.2.2.2.2.2.2.2 (pay grp [0]) 0 rfl).1 (by decide)⟩

theorem test_prectl_meets (h : Obligations.PreemptionEvents) : Goes (exec (.prectlGo) (pay (titled .resident) [0])) :=
  goes_of ((h.1 (pay (titled .resident) [0]) 0 rfl).2 rfl)

theorem test_prectl_busy_meets (h : Obligations.PreemptionEvents) : Goes (exec (.prectlGo) (pay (preempting false) [0])) :=
  ⟨_, (h.1 (pay (preempting false) [0]) 0 rfl).1 rfl⟩

theorem test_prectl_clear_meets (h : Obligations.PreemptionEvents) : Goes (exec (.prectlClearDone) grp) :=
  ⟨_, (h.2.1 grp).1⟩

theorem test_preempt_drain_meets (h : Obligations.PreemptionEvents) : Goes (exec (.preemptDrainEnd) (preempting false)) :=
  goes_of ((h.2.2.1 (preempting false) rfl rfl).2 (by decide +kernel) (by decide))

theorem test_preempt_wait_meets (h : Obligations.PreemptionEvents) : Goes (exec (.preemptDrainEnd) (storing (preempting false))) :=
  ⟨_, (h.2.2.1 (storing (preempting false)) rfl rfl).1 (.inl (by decide))⟩

theorem test_preempt_done_meets (h : Obligations.PreemptionEvents) : Goes (exec (.preemptDone) (preempting true)) :=
  goes_of (h.2.2.2.1 (preempting true) rfl rfl)

theorem test_region_end_meets (h : Obligations.PreemptionEvents) : Goes (exec (.regionEnd) (pay waiting [0])) :=
  goes_of (h.2.2.2.2.1 (pay waiting [0]) 0 rfl)

/-- A placed group of region 0 alone, its launch placed whole. -/
theorem placed_alone : (pay (titled .resident) [0]).placedOf 0 = [grp.cur] := by decide +kernel

theorem test_region_end_group_meets (h : Obligations.PreemptionEvents) :
    ∃ t, exec (.regionEnd) (pay (titled .resident) [0]) = .next t ∧ (t.nameEntry bootTid).exitval = 0xFFFFFFFE :=
  let ⟨t, e, x⟩ := h.2.2.2.2.1 (pay (titled .resident) [0]) 0 rfl
  ⟨t, e, (x.2.2.2 grp.cur placed_alone (by decide) (fun _ h => nomatch h) rfl (fun _ h => nomatch h) (fun _ h => nomatch h)).2⟩

theorem test_import_meets (h : Obligations.PreemptionEvents) : Goes (exec (.saveImageImport) image) :=
  goes_of (h.2.2.2.2.2 image 0 0x300000 0 0 0 rfl (by decide) (by decide) (by decide) (by decide) (.inl (by decide)) (fun _ h => nomatch h) (fun _ h => nomatch h))

/-- The image of a group that was lost with its die. -/
def lostImage : State := { image with names := [{ NameEntry.free 7 with state := .migrating }] }

theorem test_import_lost_meets (h : Obligations.PreemptionEvents) : Goes (exec (.saveImageImport) lostImage) :=
  goes_of (h.2.2.2.2.2 lostImage 0 0x300000 0 0 0 rfl (by decide) (by decide) (by decide) (by decide) (.inr (by decide)) (fun _ h => nomatch h) (fun _ h => nomatch h))

/-! #### Events of sequencers, engines, dies, links, firmware and debugging; traps; the step -/

/-- A request of routine 0 by the loaded group. -/
def asked (bind : Bool) : Resv := { Resv.none with who := me, reg := .s 8, bind := bind, n := 3 }

/-- It stands in cluster 0's table. -/
def tabled (bind : Bool) : State := pay (grp.modCluster 0 fun c => { c with resv := [asked bind] }) [0]

/-- A routine of cluster 0 that ends. -/
def ending (signalled : Bool) : State :=
  { pay (grp.modCluster 0 fun c => { c with running := true, ending := true, msigDone := signalled, req := asked false }) [0] with
    others := [seqGroup 0 (asked false) 0] }

/-- A pre-empted routine's record, for cluster 0. -/
def record : ClusterRec :=
  ⟨0, 1, some (seqGroup 0 (asked false) 0), { Cluster.reset with running := true, req := asked false }⟩

/-- It waits for its cluster. -/
def recorded : State :=
  { pay grp [0] with
    clusterRecs := [record]
    mem := (grp.mem.wr (grp.rcbAt 0 + 12) 2 65535).wr (grp.rcbAt 1 + 12) 2 65535 }

/-- An engine with one operation. -/
def engine (e : EngSlot) : State := pay (grp.modCluster 0 fun c => { c with engine := [e] }) [0]

/-- A TFILL of tile 1 with 5, of two rows and three columns. -/
def filling (started : Bool) (step : Nat) : EngSlot := ⟨.fill 1 6 5, started, step, 2, 3, false, 0, 0, 0, []⟩

/-- A running MMA of the walks 0 and 1, FP32, with some tiles delivered. -/
def passing (step delivered : Nat) : State :=
  pay (grp.modCluster 0 fun c => { c with
    walks := (c.walks.set 0 (some { walk false with delivered := delivered })).set 1 (some { walk true with delivered := delivered })
    engine := [⟨.mma 1 0 1 0 0x580 false, true, step, 128, 128, false, 0, 0, 0, []⟩] }) [0]

/-- A walk with a permit, its source at address 0. -/
def allowed (permits : Nat) : Walk :=
  { walk false with klen := 32, permits := permits, places := [(0, 128, .dev 0)] }

/-- It stands in slot 2 of cluster 0. -/
def fetching (permits : Nat) : State :=
  pay (grp.modCluster 0 fun c => { c with walks := c.walks.set 2 (some (allowed permits)) }) [0, 2]

/-- A drain of tile 1 with one row to write. -/
def rowed : State :=
  let s := grp.modCluster grp.cur.cluster fun c => c
  { s with cur := (resumed s .tdrain).cur.mapMe fun m =>
      { m with replay := false, drain := some ⟨grp.cur.cluster, 1, 6, 0, 1, [0x3F800000], [0], 0x200, 4, [[.dev 0x200]], 0⟩ } }

/-- A group of region 0 that fradb has attached. -/
def attached (hold : Bool) : State :=
  { pay (put tensored (.s 8) 7) [bootTid, 0] with
    fradb := { grp.fradb with attached := [0] }, cur := { (put tensored (.s 8) 7).cur with hold := hold } }

/-- Complex A active, B standby. -/
def running : State :=
  { State.reset with
    complexes := [{ Complex.reset with up := true, active := true }, { Complex.reset with up := true }]
    stateTable := some ⟨1, []⟩ }


set_option maxRecDepth 20000

theorem test_take_entry_meets (h : Obligations.SequencerEvents) : Goes (exec (.sequencerTakeEntry) (tabled false)) :=
  (let ⟨t, _, x⟩ := (h.1 (tabled false) 0 (asked false) rfl (by decide) (by decide) rfl rfl rfl (by decide) rfl).1 rfl; ⟨t, x.1⟩)

theorem test_take_none_meets (h : Obligations.SequencerEvents) : Goes (exec (.sequencerTakeEntry) (pay grp [0])) :=
  ⟨_, (h.2.1 (pay grp [0]) 0 rfl (by decide) (by decide)).1⟩

theorem test_take_record_meets (h : Obligations.SequencerEvents) : Goes (exec (.sequencerTakeEntry) recorded) :=
  goes_of (h.2.2.1 recorded 0 record rfl (by decide) (by decide) rfl rfl)

theorem test_bind_meets (h : Obligations.SequencerEvents) : Goes (exec (.clustBindTake) (tabled true)) :=
  goes_of ((h.1 (tabled true) 0 (asked true) rfl (by decide) (by decide) rfl rfl rfl (by decide) rfl).2 rfl)

theorem test_routine_end_false_meets (h : Obligations.SequencerEvents) : Goes (exec (.routineEnd) (ending false)) :=
  goes_of (h.2.2.2.1 (ending false) 0 (seqGroup 0 (asked false) 0) rfl (by decide) rfl rfl (by decide) rfl
    (fun _ m => nomatch List.eq_of_mem_replicate (n := 8) (a := none) m) rfl rfl (fun _ h => nomatch h))

theorem test_routine_end_true_meets (h : Obligations.SequencerEvents) : Goes (exec (.routineEnd) (ending true)) :=
  goes_of (h.2.2.2.1 (ending true) 0 (seqGroup 0 (asked false) 0) rfl (by decide) rfl rfl (by decide) rfl
    (fun _ m => nomatch List.eq_of_mem_replicate (n := 8) (a := none) m) rfl rfl (fun _ h => nomatch h))

theorem test_msig_event_meets (h : Obligations.SequencerEvents) : Goes (exec (.msigDelivery) (fly holding (.msig me (.s 8) 0 5))) :=
  goes_of (h.2.2.2.2.1 (fly holding (.msig me (.s 8) 0 5)) me 0 (.s 8) 5 [] [] rfl (fun _ h => nomatch h))

theorem test_hold_end_meets (h : Obligations.SequencerEvents) : Goes (exec (.requestHoldEnd) (pay (armed .held) [bootTid, 0])) :=
  goes_of (h.2.2.2.2.2 (pay (armed .held) [bootTid, 0]) (pay (armed .held) [bootTid, 0]).cur false rfl (by decide) rfl rfl rfl (by decide))

theorem test_op_start_meets (h : Obligations.EngineTileEvents) : Goes (exec (.matrixOpStart) (engine (filling false 0))) :=
  goes_of (h.1.1 (engine (filling false 0)) 0 0 1 (filling false 0) ((engine (filling false 0)).cluster 0) rfl rfl (by decide) (by decide) rfl rfl (by decide) (.inl ⟨_, _, rfl⟩))

/-- An engine of a region that is being pre-empted. -/
def halting : State :=
  { engine (filling true 0) with
    clusters := (engine (filling true 0)).clusters.set 0 { (engine (filling true 0)).cluster 0 with running := true, req := asked false }
    prectl := ⟨0, true, false, false, false, []⟩ }

theorem test_engine_stopped_meets (h : Obligations.EngineTileEvents) : Goes (exec (.tstoreRow) halting) :=
  ⟨_, (h.1.2.1 halting 0 rfl (by decide)).2.2.2⟩

theorem test_row_0_meets (h : Obligations.EngineTileEvents) : Goes (exec (.tileRowWritten) (engine (filling true 0))) :=
  goes_of (h.1.2.2.1 (engine (filling true 0)) 0 0 1 6 5 (filling true 0) ((engine (filling true 0)).cluster 0) rfl rfl (by decide) (by decide) rfl rfl rfl (by decide) rfl (by decide) (by decide))

theorem test_row_127_meets (h : Obligations.EngineTileEvents) : Goes (exec (.tileRowWritten) (engine (filling true 127))) :=
  goes_of (h.1.2.2.1 (engine (filling true 127)) 0 0 1 6 5 (filling true 127) ((engine (filling true 127)).cluster 0) rfl rfl (by decide) (by decide) rfl rfl rfl (by decide) rfl (by decide) (by decide))

theorem test_pass_waits_meets (h : Obligations.EngineTileEvents) : Goes (exec (.matrixPassComplete) (passing 1 1)) :=
  ⟨_, (h.1.2.2.2.1 (passing 1 1) 0 0 1 0 1 0 0x580 ⟨.mma 1 0 1 0 0x580 false, true, 1, 128, 128, false, 0, 0, 0, []⟩ ((passing 1 1).cluster 0) { walk false with delivered := 1 } { walk true with delivered := 1 } rfl rfl (by decide) (by decide) rfl rfl rfl (by decide) rfl rfl).1 (by decide) (.inl (by decide))⟩

theorem test_pass_meets (h : Obligations.EngineTileEvents) : Goes (exec (.matrixPassComplete) (passing 1 2)) :=
  goes_of ((h.1.2.2.2.1 (passing 1 2) 0 0 1 0 1 0 0x580 ⟨.mma 1 0 1 0 0x580 false, true, 1, 128, 128, false, 0, 0, 0, []⟩ ((passing 1 2).cluster 0) { walk false with delivered := 2 } { walk true with delivered := 2 } rfl rfl (by decide) (by decide) rfl rfl rfl (by decide) rfl rfl).2.2 (by decide) (by decide) (by decide) (by decide) (by decide) (by decide) (by decide) rfl rfl (by decide))

theorem test_retire_meets (h : Obligations.EngineTileEvents) : Goes (exec (.matrixPassComplete) (passing 4 4)) :=
  goes_of ((h.1.2.2.2.1 (passing 4 4) 0 0 1 0 1 0 0x580 ⟨.mma 1 0 1 0 0x580 false, true, 4, 128, 128, false, 0, 0, 0, []⟩ ((passing 4 4).cluster 0) { walk false with delivered := 4 } { walk true with delivered := 4 } rfl rfl (by decide) (by decide) rfl rfl rfl (by decide) rfl rfl).2.1 (by decide) (by decide))

/-- A TSTORE of one row to 0x1000. -/
def rowStore : EngSlot := ⟨.tstore 1 0x1000 512 [[(.dev 0x1000, 512)]], true, 0, 1, 128, false, 0, 0, 0, []⟩

theorem no_walks : ∀ d ∈ (engine rowStore).clusters, d.walks = List.replicate 8 none := by decide

theorem test_tstore_row_meets (h : Obligations.EngineTileEvents) : Goes (exec (.tstoreRow) (engine rowStore)) :=
  goes_of (h.1.2.2.2.2 (engine rowStore) 0 0 1 0x1000 512 0x1000 [[(.dev 0x1000, 512)]] rowStore ((engine rowStore).cluster 0) rfl rfl
    (by decide) (by decide) rfl rfl (by decide) (by decide) (by decide)
    (fun d m _ x => by rw [no_walks d m] at x; exact nomatch List.eq_of_mem_replicate x))

theorem test_fetch_meets (h : Obligations.EngineTileEvents) : Goes (exec (.walkTileFetch) (fetching 1)) :=
  (let ⟨t, _, x⟩ := (h.2.1 (fetching 1) 0 2 (allowed 1) rfl (by decide) rfl (by decide)).1 (by decide) (by decide) (by decide +kernel) (by decide +kernel); ⟨t, x.1⟩)

theorem test_fetch_none_meets (h : Obligations.EngineTileEvents) : Goes (exec (.walkTileFetch) (fetching 0)) :=
  ⟨_, (h.2.1 (fetching 0) 0 2 (allowed 0) rfl (by decide) rfl (by decide)).2.1 (by decide) rfl⟩

theorem test_fetch_permits_meets (h : Obligations.EngineTileEvents) : Goes (exec (.walkTileFetch) (fetching 0)) :=
  goes_of (h.2.1 (fetching 0) 0 2 (allowed 0) rfl (by decide) rfl (by decide)).2.2.1

theorem test_deliver_none_meets (h : Obligations.EngineTileEvents) : Goes (exec (.walkTileDelivered) (fetching 0)) :=
  ⟨_, (h.2.1 (fetching 0) 0 2 (allowed 0) rfl (by decide) rfl (by decide)).2.2.2.2 (by decide)⟩

/-- A walk with one tile fetched. -/
def fetchedOne : State :=
  pay (grp.modCluster 0 fun c => { c with walks := c.walks.set 2 (some { allowed 0 with data := [⟨[], []⟩] }) }) [0, 2]

theorem test_deliver_meets (h : Obligations.EngineTileEvents) : Goes (exec (.walkTileDelivered) fetchedOne) :=
  ⟨_, (h.2.1 fetchedOne 0 2 ({ allowed 0 with data := [⟨[], []⟩] }) rfl (by decide) rfl (by decide)).2.2.2.1 (by decide)⟩

theorem test_trd_serve_meets (h : Obligations.EngineTileEvents) : Goes (exec (.trdServe) (fly grp (.trd me ⟨(0, 0), false, 0, 1, 127, 2, BitVec.allOnes 96⟩))) :=
  goes_of (h.2.2.1 (fly grp (.trd me ⟨(0, 0), false, 0, 1, 127, 2, BitVec.allOnes 96⟩)) [] [] me ⟨(0, 0), false, 0, 1, 127, 2, BitVec.allOnes 96⟩ rfl (fun _ h => nomatch h) (by decide) (by decide) rfl)

theorem test_drain_row_meets (h : Obligations.EngineTileEvents) : Goes (exec (.tdrainRow) rowed) :=
  goes_of (h.2.2.2.1 rowed bootTid false ⟨grp.cur.cluster, 1, 6, 0, 1, [0x3F800000], [0], 0x200, 4, [[.dev 0x200]], 0⟩ rowed.cur (by decide) rfl rfl (by decide))

theorem test_drain_none_meets (h : Obligations.EngineTileEvents) : Goes (exec (.tdrainRow) grp) :=
  ⟨_, h.2.2.2.2 grp (by decide)⟩

theorem test_diepwr_meets (h : Obligations.DieEvents) : Goes (exec (.diepwrReq) (pay State.reset [0, 0, 3, 0])) :=
  ⟨_, (h.1 (pay State.reset [0, 0, 3, 0]) 0 3 0 (.inl rfl)).2 rfl (by decide)⟩

theorem test_diepwr_other_meets (h : Obligations.DieEvents) : Goes (exec (.diepwrReq) (pay State.reset [0, 0, 3, 1])) :=
  ⟨_, (h.1 (pay State.reset [0, 0, 3, 1]) 0 3 1 (.inl rfl)).1 (by decide)⟩

theorem test_die_busy_meets (h : Obligations.DieEvents) : Goes (exec (.diePowerDown) (pay (grp.modDie 0 fun d => { d with power := { d.power with req := 1 } }) [0, 0])) :=
  ⟨_, (h.2.1 (pay (grp.modDie 0 fun d => { d with power := { d.power with req := 1 } }) [0, 0]) 0 rfl (by decide)).1 (by decide)⟩

theorem test_die_d1_meets (h : Obligations.DieEvents) : Goes (exec (.diePowerDown) (pay (State.reset.modDie 0 fun d => { d with power := { d.power with req := 1 } }) [0, 0])) :=
  ⟨_, (h.2.1 (pay (State.reset.modDie 0 fun d => { d with power := { d.power with req := 1 } }) [0, 0]) 0 rfl (by decide)).2.1 (by decide) (by decide) (by decide)⟩

theorem test_die_d2_meets (h : Obligations.DieEvents) : Goes (exec (.diePowerDown) (pay (State.reset.modDie 0 fun d => { d with power := { d.power with req := 2 } }) [0, 0])) :=
  goes_of ((h.2.1 (pay (State.reset.modDie 0 fun d => { d with power := { d.power with req := 2 } }) [0, 0]) 0 rfl (by decide)).2.2.1 (by decide) (by decide) (by decide) (by decide +kernel))

theorem test_die_wakes_meets (h : Obligations.DieEvents) : Goes (exec (.dieWakeComplete) (pay (State.reset.modDie 0 fun d => { d with power := { d.power with state := 1 } }) [0, 0])) :=
  ⟨_, (h.2.1 (pay (State.reset.modDie 0 fun d => { d with power := { d.power with state := 1 } }) [0, 0]) 0 rfl (by decide)).2.2.2.1 (by decide) (by decide) (by decide) (by decide)⟩

theorem test_die_awake_meets (h : Obligations.DieEvents) : Goes (exec (.dieWakeComplete) (pay State.reset [0, 0])) :=
  ⟨_, (h.2.1 (pay State.reset [0, 0]) 0 rfl (by decide)).2.2.2.2.1 (by decide)⟩

theorem test_die_fence_meets (h : Obligations.DieEvents) : Goes (exec (.dieLinkFail) (pay State.reset [0, 0])) :=
  (let ⟨t, _, x, _⟩ := (h.2.1 (pay State.reset [0, 0]) 0 rfl (by decide)).2.2.2.2.2.2; ⟨t, x⟩)

theorem test_die_fenced_meets (h : Obligations.DieEvents) : Goes (exec (.dieSelfFence) (pay (State.reset.modDie 0 fun d => { d with fenced := true }) [0, 0])) :=
  ⟨_, ((h.2.1 (pay (State.reset.modDie 0 fun d => { d with fenced := true }) [0, 0]) 0 rfl (by decide)).2.2.2.2.2.1 (by decide)).2⟩

theorem test_mdie_down_meets (h : Obligations.DieEvents) : Goes (exec (.diePowerDown) (pay (State.reset.modMdie 0 fun d => { d with power := { d.power with req := 2 } }) [0, 1])) :=
  goes_of ((h.2.2.1 (pay (State.reset.modMdie 0 fun d => { d with power := { d.power with req := 2 } }) [0, 1]) 0 rfl (by decide)).1 (by decide) (by decide))

/-- A request waits at memory die 0. -/
def pestered : State := (pay State.reset [0, 1]).modMdie 0 fun d => { d with held := [.req ⟨0x100000001, 0, 0, 4, 0, none⟩] }

theorem test_mdie_busy_meets (h : Obligations.DieEvents) : Goes (exec (.diePowerDown) pestered) :=
  ⟨_, (h.2.2.1 pestered 0 rfl (by decide)).2.1 (by decide)⟩

theorem test_mdie_wakes_meets (h : Obligations.DieEvents) : Goes (exec (.dieWakeComplete) (pay (State.reset.modMdie 0 fun d => { d with power := { d.power with state := 2 } }) [0, 1])) :=
  ⟨_, (h.2.2.1 (pay (State.reset.modMdie 0 fun d => { d with power := { d.power with state := 2 } }) [0, 1]) 0 rfl (by decide)).2.2.1 (by decide) (by decide)⟩

theorem test_throttle_104_meets (h : Obligations.DieEvents) : Goes (exec (.thermalThrottle) (pay State.reset [0, 0, 104])) :=
  ⟨_, (h.2.2.2.1 (pay State.reset [0, 0, 104]) 0 104 rfl (by decide)).1 (by decide)⟩

theorem test_throttle_105_meets (h : Obligations.DieEvents) : Goes (exec (.thermalThrottle) (pay State.reset [0, 0, 105])) :=
  goes_of ((h.2.2.2.1 (pay State.reset [0, 0, 105]) 0 105 rfl (by decide)).2.1 (by decide) (by decide))

theorem test_throttle_waits_meets (h : Obligations.DieEvents) : Goes (exec (.thermalThrottle) ({ pay State.reset [0, 0, 105] with links := { Link.reset with changing := true } :: State.reset.links.drop 1 })) :=
  goes_of ((h.2.2.2.1 ({ pay State.reset [0, 0, 105] with links := { Link.reset with changing := true } :: State.reset.links.drop 1 }) 0 105 rfl (by decide)).2.2.1 (by decide) (by decide) ⟨0, by decide, by decide⟩)

theorem test_unthrottle_99_meets (h : Obligations.DieEvents) : Goes (exec (.thermalUnthrottle) (pay State.reset [0, 0, 99])) :=
  goes_of ((h.2.2.2.1 (pay State.reset [0, 0, 99]) 0 99 rfl (by decide)).2.2.2.1 (by decide))

theorem test_unthrottle_100_meets (h : Obligations.DieEvents) : Goes (exec (.thermalUnthrottle) (pay State.reset [0, 0, 100])) :=
  ⟨_, (h.2.2.2.1 (pay State.reset [0, 0, 100]) 0 100 rfl (by decide)).2.2.2.2 (by decide)⟩

theorem test_emergency_114_meets (h : Obligations.DieEvents) : Goes (exec (.thermalEmergency) (pay grp [0, 114])) :=
  ⟨_, (h.2.2.2.2.1 (pay grp [0, 114]) 0 114 rfl (by decide)).1 (by decide)⟩

theorem test_emergency_115_meets (h : Obligations.DieEvents) : Goes (exec (.thermalEmergency) (pay grp [0, 115])) :=
  goes_of ((h.2.2.2.2.1 (pay grp [0, 115]) 0 115 rfl (by decide)).2 (by decide))

theorem test_trip_meets (h : Obligations.DieEvents) : Goes (exec (.thermalTrip) (pay State.reset [0])) :=
  goes_of ((h.2.2.2.2.2.1 (pay State.reset [0]) 0 rfl (by decide)).1)

theorem test_over_cap_meets (h : Obligations.DieEvents) : Goes (exec (.powerOverCap) (pay State.reset [0])) :=
  ⟨_, h.2.2.2.2.2.2.1 (pay State.reset [0]) 0 rfl⟩

/-- Die 0 is the hottest. -/
def hottest : State := (pay State.reset [5, 1]).modDie 0 fun d => { d with power := { d.power with temp := 90 } }

theorem test_over_cap_throttles_meets (h : Obligations.DieEvents) : Goes (exec (.powerOverCap) hottest) :=
  goes_of (h.2.2.2.2.2.2.2.1 hottest 5 0 rfl (by decide) (by decide) (by decide) (by decide) rfl rfl rfl)

theorem test_bank_fail_meets (h : Obligations.DieEvents) : Goes (exec (.weightRefreshFail) (pay State.reset [0, 31])) :=
  goes_of (h.2.2.2.2.2.2.2.2.1 (pay State.reset [0, 31]) 0 31 rfl (by decide) (by decide))

theorem test_uncorrectable_meets (h : Obligations.DieEvents) : Goes (exec (.memoryUncorrectable) (pay State.reset [64, 0, 0])) :=
  goes_of ((h.2.2.2.2.2.2.2.2.2.1 (pay State.reset [64, 0, 0]) 64 0).2.1 rfl (by decide))

theorem test_uncorrectable_clean_meets (h : Obligations.DieEvents) : Goes (exec (.memoryUncorrectable) (pay State.reset [64, 1, 0])) :=
  ⟨_, (h.2.2.2.2.2.2.2.2.2.1 (pay State.reset [64, 1, 0]) 64 0).1 rfl⟩

theorem test_weight_word_meets (h : Obligations.DieEvents) : Goes (exec (.memoryUncorrectable) (pay State.reset [64, 0, 0, 1])) :=
  ⟨_, (h.2.2.2.2.2.2.2.2.2.1 (pay State.reset [64, 0, 0, 1]) 64 0).2.2 0 rfl⟩

theorem test_bad_register_meets (h : Obligations.DieEvents) : Goes (exec (.registerUncorrectable) (pay grp [bootTid, 0, 8, 0])) :=
  ⟨_, h.2.2.2.2.2.2.2.2.2.2.1 (pay grp [bootTid, 0, 8, 0]) bootTid 0 8 0 rfl (by decide)⟩

theorem test_retire_cluster_0_meets (h : Obligations.DieEvents) : Goes (exec (.clusterRetire) (pay (State.reset.modDie 0 fun d => { d with spares := 0 }) [0])) :=
  goes_of ((h.2.2.2.2.2.2.2.2.2.2.2.1 (pay (State.reset.modDie 0 fun d => { d with spares := 0 }) [0]) 0 rfl (by decide) (by decide) (fun _ h => nomatch h) (by decide) (by decide)).1 (by decide))

theorem test_retire_cluster_2_meets (h : Obligations.DieEvents) : Goes (exec (.clusterRetire) (pay (State.reset.modDie 0 fun d => { d with spares := 2 }) [0])) :=
  goes_of ((h.2.2.2.2.2.2.2.2.2.2.2.1 (pay (State.reset.modDie 0 fun d => { d with spares := 2 }) [0]) 0 rfl (by decide) (by decide) (fun _ h => nomatch h) (by decide) (by decide)).2 (by decide))

theorem test_retire_channel_meets (h : Obligations.DieEvents) : Goes (exec (.channelRetire) (pay State.reset [0, 1])) :=
  ⟨_, h.2.2.2.2.2.2.2.2.2.2.2.2.1 (pay State.reset [0, 1]) 0 1 rfl (by decide)⟩

theorem test_alarm_meets (h : Obligations.DieEvents) : Goes (exec (.securityAlarm) (pay State.reset [0])) :=
  goes_of (h.2.2.2.2.2.2.2.2.2.2.2.2.2 (pay State.reset [0]) 0 rfl)

theorem test_form_diepwr_runs (h : Obligations.DieFormsComplete) : Goes (exec (.diepwrReq) (pay State.reset [0, 0, 1, 0])) :=
  ⟨_, h.1 (pay State.reset [0, 0, 1, 0]) 0 1 rfl (by decide)⟩

theorem test_form_power_down_runs (h : Obligations.DieFormsComplete) : Goes (exec (.diePowerDown) (pay (State.reset.modDie 0 fun d => { d with power := { d.power with req := 1 } }) [0, 0])) :=
  ⟨_, h.2.1 (pay (State.reset.modDie 0 fun d => { d with power := { d.power with req := 1 } }) [0, 0]) 0 rfl (by decide) (by decide) (by decide)⟩

theorem test_form_wake_runs (h : Obligations.DieFormsComplete) : Goes (exec (.dieWakeComplete) (pay (State.reset.modDie 0 fun d => { d with power := { d.power with state := 1 } }) [0, 0])) :=
  ⟨_, h.2.2.1 (pay (State.reset.modDie 0 fun d => { d with power := { d.power with state := 1 } }) [0, 0]) 0 rfl (by decide) (by decide) (by decide) (by decide)⟩

theorem test_form_throttle_runs (h : Obligations.DieFormsComplete) : Goes (exec (.thermalThrottle) (pay State.reset [0, 0, 105])) :=
  goes_of ((h.2.2.2.1 (pay State.reset [0, 0, 105]) 0 105 rfl (by decide)).1 (by decide) (by decide))

theorem test_form_unthrottle_runs (h : Obligations.DieFormsComplete) : Goes (exec (.thermalUnthrottle) (pay State.reset [0, 0, 99])) :=
  goes_of ((h.2.2.2.1 (pay State.reset [0, 0, 99]) 0 99 rfl (by decide)).2 (by decide))

theorem test_form_emergency_runs (h : Obligations.DieFormsComplete) : Goes (exec (.thermalEmergency) (pay State.reset [0, 115])) :=
  goes_of (h.2.2.2.2.1 (pay State.reset [0, 115]) 0 115 rfl (by decide) (by decide))

theorem test_form_trip_runs (h : Obligations.DieFormsComplete) : Goes (exec (.thermalTrip) (pay State.reset [0])) :=
  goes_of (h.2.2.2.2.2.1 (pay State.reset [0]) 0 rfl (by decide))

theorem test_form_link_fail_runs (h : Obligations.DieFormsComplete) : Goes (exec (.dieLinkFail) (pay State.reset [0, 0])) :=
  goes_of (h.2.2.2.2.2.2.1 (pay State.reset [0, 0]) 0 rfl (by decide)).1

theorem test_form_self_fence_runs (h : Obligations.DieFormsComplete) : Goes (exec (.dieSelfFence) (pay State.reset [0, 0])) :=
  goes_of (h.2.2.2.2.2.2.1 (pay State.reset [0, 0]) 0 rfl (by decide)).2

theorem test_form_over_cap_runs (h : Obligations.DieFormsComplete) : Goes (exec (.powerOverCap) (pay State.reset [0])) :=
  ⟨_, h.2.2.2.2.2.2.2.1 (pay State.reset [0]) 0 rfl⟩

theorem test_form_memory_runs (h : Obligations.DieFormsComplete) : Goes (exec (.memoryUncorrectable) (pay State.reset [64, 0, 0])) :=
  ⟨_, h.2.2.2.2.2.2.2.2.1 (pay State.reset [64, 0, 0]) 64 rfl (by decide)⟩

theorem test_form_register_runs (h : Obligations.DieFormsComplete) : Goes (exec (.registerUncorrectable) (pay grp [bootTid, 5, 8, 0])) :=
  ⟨_, h.2.2.2.2.2.2.2.2.2.1 (pay grp [bootTid, 5, 8, 0]) bootTid 5 8 0 rfl (by decide)⟩

theorem test_form_refresh_runs (h : Obligations.DieFormsComplete) : Goes (exec (.weightBankRefresh) ({ pay State.reset [0] with clock := 1000 })) :=
  ⟨_, h.2.2.2.2.2.2.2.2.2.2.1 ({ pay State.reset [0] with clock := 1000 }) 0 rfl (by decide)⟩

theorem test_form_refresh_fail_runs (h : Obligations.DieFormsComplete) : Goes (exec (.weightRefreshFail) (pay State.reset [0, 31])) :=
  goes_of (h.2.2.2.2.2.2.2.2.2.2.2.1 (pay State.reset [0, 31]) 0 31 rfl (by decide) (by decide))

theorem test_form_cluster_retire_runs (h : Obligations.DieFormsComplete) : Goes (exec (.clusterRetire) (pay (State.reset.modDie 0 fun d => { d with spares := 2 }) [0])) :=
  ⟨_, h.2.2.2.2.2.2.2.2.2.2.2.2.1 (pay (State.reset.modDie 0 fun d => { d with spares := 2 }) [0]) 0 rfl (by decide) (by decide)⟩

theorem test_form_channel_retire_runs (h : Obligations.DieFormsComplete) : Goes (exec (.channelRetire) (pay State.reset [0, 1])) :=
  ⟨_, h.2.2.2.2.2.2.2.2.2.2.2.2.2.1 (pay State.reset [0, 1]) 0 1 rfl (by decide)⟩

theorem test_form_alarm_runs (h : Obligations.DieFormsComplete) : Goes (exec (.securityAlarm) (pay State.reset [0])) :=
  goes_of (h.2.2.2.2.2.2.2.2.2.2.2.2.2.2 (pay State.reset [0]) 0 rfl)

theorem test_training_127_meets (h : Obligations.LinkEvents) : Goes (exec (.linkTraining) (pay State.reset [0, 127, 1, 0])) :=
  goes_of ((h.1 (pay State.reset [0, 127, 1, 0]) 0 127 1 rfl (by decide)).2 (by decide) (by decide))

theorem test_training_128_meets (h : Obligations.LinkEvents) : Goes (exec (.linkTraining) (pay State.reset [0, 128, 1, 0])) :=
  goes_of ((h.1 (pay State.reset [0, 128, 1, 0]) 0 128 1 rfl (by decide)).1 (by decide))

theorem test_training_whole_meets (h : Obligations.LinkEvents) : Goes (exec (.linkTraining) (pay State.reset [0, 128, 1, 1])) :=
  goes_of (h.2.1 (pay State.reset [0, 128, 1, 1]) 0 128 1 rfl rfl (by decide) (by decide))

theorem test_crc_meets (h : Obligations.LinkEvents) : Goes (exec (.flitCrcError) ({ pay State.reset [0, 0, 3] with links := { Link.reset with up := true } :: State.reset.links.drop 1 })) :=
  ⟨_, (h.2.2.1 ({ pay State.reset [0, 0, 3] with links := { Link.reset with up := true } :: State.reset.links.drop 1 }) 0 (by decide)).1 3 rfl (by decide)⟩

theorem test_crc_again_meets (h : Obligations.LinkEvents) : Goes (exec (.flitCrcError) ({ pay State.reset [0, 1] with links := { Link.reset with replays := 6 } :: State.reset.links.drop 1 })) :=
  ⟨_, (h.2.2.1 ({ pay State.reset [0, 1] with links := { Link.reset with replays := 6 } :: State.reset.links.drop 1 }) 0 (by decide)).2.1 rfl (by decide)⟩

theorem test_crc_down_meets (h : Obligations.LinkEvents) : Goes (exec (.flitCrcError) ({ pay State.reset [0, 1] with links := { Link.reset with up := true, replays := 7 } :: State.reset.links.drop 1 })) :=
  goes_of ((h.2.2.1 ({ pay State.reset [0, 1] with links := { Link.reset with up := true, replays := 7 } :: State.reset.links.drop 1 }) 0 (by decide)).2.2.1 rfl (by decide) rfl)

theorem test_timeout_meets (h : Obligations.LinkEvents) : Goes (exec (.linkAckTimeout) ({ pay State.reset [0] with links := { Link.reset with up := true } :: State.reset.links.drop 1 })) :=
  goes_of ((h.2.2.1 ({ pay State.reset [0] with links := { Link.reset with up := true } :: State.reset.links.drop 1 }) 0 (by decide)).2.2.2 rfl |>.1)

theorem test_lane_spare_meets (h : Obligations.LinkEvents) : Goes (exec (.laneRetire) ({ pay State.reset [0] with links := { Link.reset with up := true } :: State.reset.links.drop 1 })) :=
  ⟨_, (h.2.2.1 ({ pay State.reset [0] with links := { Link.reset with up := true } :: State.reset.links.drop 1 }) 0 (by decide)).2.2.2 rfl |>.2.1 rfl⟩

theorem test_lane_narrow_meets (h : Obligations.LinkEvents) : Goes (exec (.laneRetire) ({ pay State.reset [0] with links := { Link.reset with up := true, spare := true, width := 2 } :: State.reset.links.drop 1 })) :=
  ⟨_, (h.2.2.1 ({ pay State.reset [0] with links := { Link.reset with up := true, spare := true, width := 2 } :: State.reset.links.drop 1 }) 0 (by decide)).2.2.2 rfl |>.2.2.1 rfl (by decide)⟩

theorem test_lane_last_meets (h : Obligations.LinkEvents) : Goes (exec (.laneRetire) ({ pay State.reset [0] with links := { Link.reset with up := true, spare := true, width := 3 } :: State.reset.links.drop 1 })) :=
  goes_of ((h.2.2.1 ({ pay State.reset [0] with links := { Link.reset with up := true, spare := true, width := 3 } :: State.reset.links.drop 1 }) 0 (by decide)).2.2.2 rfl |>.2.2.2.1 rfl rfl)

theorem test_width_none_meets (h : Obligations.LinkEvents) : Goes (exec (.widthChangeComplete) ({ pay State.reset [0] with links := { Link.reset with up := true } :: State.reset.links.drop 1 })) :=
  ⟨_, (h.2.2.1 ({ pay State.reset [0] with links := { Link.reset with up := true } :: State.reset.links.drop 1 }) 0 (by decide)).2.2.2 rfl |>.2.2.2.2.1 rfl⟩

theorem test_width_done_meets (h : Obligations.LinkEvents) : Goes (exec (.widthChangeComplete) ({ pay State.reset [0] with links := { Link.reset with up := true, changing := true } :: State.reset.links.drop 1 })) :=
  goes_of ((h.2.2.1 ({ pay State.reset [0] with links := { Link.reset with up := true, changing := true } :: State.reset.links.drop 1 }) 0 (by decide)).2.2.2 rfl |>.2.2.2.2.2 rfl)

theorem test_host_here_meets (h : Obligations.LinkEvents) : Goes (exec (.hostLoss) ({ pay State.reset [0, 0] with links := { Link.reset with up := true } :: State.reset.links.drop 1 })) :=
  ⟨_, (h.2.2.2.1 ({ pay State.reset [0, 0] with links := { Link.reset with up := true } :: State.reset.links.drop 1 }) 0).1 rfl (by decide)⟩

theorem test_host_loss_meets (h : Obligations.LinkEvents) : Goes (exec (.hostLoss) (pay ported [0, 1])) :=
  goes_of ((h.2.2.2.1 (pay ported [0, 1]) 0).2 rfl)

theorem test_adopt_meets (h : Obligations.LinkEvents) : Goes (exec (.hownAdopt) (pay State.reset [1, 0])) :=
  goes_of ((h.2.2.2.2.1 (pay State.reset [1, 0]) 1 0 rfl (by decide) rfl (by decide)).1 rfl)

theorem test_adopt_stale_meets (h : Obligations.LinkEvents) : Goes (exec (.hownAdopt) (pay State.reset [1, 1])) :=
  goes_of ((h.2.2.2.2.1 (pay State.reset [1, 1]) 1 1 rfl (by decide) rfl (by decide)).2 (by decide))

theorem test_stale_clear_meets (h : Obligations.LinkEvents) : Goes (exec (.hownClearStale) (pay State.reset [1])) :=
  goes_of (h.2.2.2.2.2.1 (pay State.reset [1]) 1 rfl (by decide))

theorem test_reg_other_meets (h : Obligations.LinkEvents) : Goes (exec (.registerWrite) (pay State.reset [0x400, 9, 1])) :=
  ⟨_, (h.2.2.2.2.2.2 (pay State.reset [0x400, 9, 1]) 0x400 9 1 rfl).1 (by decide) (by decide) (by decide)⟩

theorem test_reg_tokcap_meets (h : Obligations.LinkEvents) : Goes (exec (.registerWrite) (pay State.reset [0x400, 9, 0])) :=
  ⟨_, (h.2.2.2.2.2.2 (pay State.reset [0x400, 9, 0]) 0x400 9 0 rfl).2.1 rfl rfl⟩

theorem test_reg_link_meets (h : Obligations.LinkEvents) : Goes (exec (.registerWrite) (pay State.reset [23, 48, 0])) :=
  goes_of ((h.2.2.2.2.2.2 (pay State.reset [23, 48, 0]) 23 48 0 rfl).2.2 rfl (by decide) (by decide))

theorem test_heartbeat_meets (h : Obligations.FirmwareEvents) : Goes (exec (.firmwareHeartbeatTimeout) running) :=
  goes_of ((h.1 running 0 1 rfl rfl (by decide) (by decide)).1)

theorem test_update_bad_meets (h : Obligations.FirmwareEvents) : Goes (exec (.liveUpdate) (pay running [2, 0, 1, 7, 7, 0])) :=
  goes_of ((h.1 (pay running [2, 0, 1, 7, 7, 0]) 0 1 rfl rfl (by decide) (by decide)).2.1 2 0 1 7 7 0 rfl (.inl (by decide)))

theorem test_update_meets (h : Obligations.FirmwareEvents) : Goes (exec (.liveUpdate) (pay running [1, 1, 1, 7, 7, 0])) :=
  goes_of ((h.1 (pay running [1, 1, 1, 7, 7, 0]) 0 1 rfl rfl (by decide) (by decide)).2.2.1 1 7 rfl (fun _ e => by cases e; decide))

theorem test_update_standby_fails_meets (h : Obligations.FirmwareEvents) : Goes (exec (.liveUpdate) (pay running [1, 1, 1, 7, 7, 1])) :=
  goes_of ((h.1 (pay running [1, 1, 1, 7, 7, 1]) 0 1 rfl rfl (by decide) (by decide)).2.2.2 1 1 7 rfl)

theorem test_update_waits_meets (h : Obligations.FirmwareEvents) : Goes (exec (.liveUpdate) State.reset) :=
  ⟨_, (h.2.1 State.reset rfl).2⟩

/-- Complex A active, B down. -/
def single : State := { running with complexes := [{ Complex.reset with up := true, active := true }, .reset] }

theorem test_no_standby_meets (h : Obligations.FirmwareEvents) : Goes (exec (.firmwareHeartbeatTimeout) single) :=
  goes_of (h.2.2.1 single 0 rfl rfl rfl rfl rfl).2

theorem test_boot_up_meets (h : Obligations.FirmwareEvents) : Goes (exec (.complexBoot) (pay running [0])) :=
  ⟨_, (h.2.2.2.1 (pay running [0]) 0 rfl (by decide) rfl).1 rfl⟩

theorem test_boot_recovery_meets (h : Obligations.FirmwareEvents) : Goes (exec (.complexBoot) ({ pay State.reset [0] with complexes := [{ Complex.reset with slot0 := ⟨1, 1, 0, 1, true⟩ }, .reset] })) :=
  goes_of ((h.2.2.2.1 ({ pay State.reset [0] with complexes := [{ Complex.reset with slot0 := ⟨1, 1, 0, 1, true⟩ }, .reset] }) 0 rfl (by decide) rfl).2.1 rfl rfl rfl)

theorem test_boot_meets (h : Obligations.FirmwareEvents) : Goes (exec (.complexBoot) (pay State.reset [0])) :=
  goes_of ((h.2.2.2.1 (pay State.reset [0]) 0 rfl (by decide) rfl).2.2.1 rfl rfl (by decide) (by decide) (.inl (by decide)))

theorem test_boot_unmarked_meets (h : Obligations.FirmwareEvents) : Goes (exec (.complexBoot) ({ pay State.reset [0] with complexes := [{ Complex.reset with mark0 := ⟨0, 0, 0⟩, mark1 := ⟨0, 0, 0⟩ }, .reset] })) :=
  goes_of ((h.2.2.2.1 ({ pay State.reset [0] with complexes := [{ Complex.reset with mark0 := ⟨0, 0, 0⟩, mark1 := ⟨0, 0, 0⟩ }, .reset] }) 0 rfl (by decide) rfl).2.2.2 rfl (by decide) (by decide) rfl)

theorem test_power_up_meets (h : Obligations.FirmwareEvents) : Goes (exec (.powerUp) (pay State.reset [1])) :=
  goes_of ((h.2.2.2.2.1 (pay State.reset [1])).2 rfl rfl rfl rfl)

theorem test_power_again_meets (h : Obligations.FirmwareEvents) : Goes (exec (.powerUp) running) :=
  ⟨_, (h.2.2.2.2.1 running).1 ⟨1, []⟩ rfl⟩

theorem test_device_reset_meets (h : Obligations.FirmwareEvents) : Goes (exec (.powerLoss) State.reset) :=
  (let ⟨t, _, x, _⟩ := h.2.2.2.2.2.1 State.reset; ⟨t, x⟩)

theorem test_servicer_meets (h : Obligations.FirmwareEvents) : Goes (exec (.registerServicer) (pay running [0, 9, 0])) :=
  goes_of ((h.2.2.2.2.2.2.1 (pay running [0, 9, 0]) 0 9 0 rfl).2.1 rfl (by decide) (by decide))

theorem test_servicer_head_meets (h : Obligations.FirmwareEvents) : Goes (exec (.registerServicer) (pay running [0, 9, 1])) :=
  ⟨_, (h.2.2.2.2.2.2.1 (pay running [0, 9, 1]) 0 9 1 rfl).1 (by decide)⟩

theorem test_servicer_waits_meets (h : Obligations.FirmwareEvents) : Goes (exec (.registerServicer) (pay State.reset [0, 9, 0])) :=
  ⟨_, (h.2.2.2.2.2.2.1 (pay State.reset [0, 9, 0]) 0 9 0 rfl).2.2 rfl rfl⟩

theorem test_spdm_meets (h : Obligations.FirmwareEvents) : Goes (exec (.spdmGetVersion) (pay running [0, 0])) :=
  ⟨_, (h.2.2.2.2.2.2.2 (pay running [0, 0]) 0 (by decide) (.inl rfl)).1.1 (by decide) rfl⟩

theorem test_spdm_served_meets (h : Obligations.FirmwareEvents) : Goes (exec (.spdmGetVersion) (pay running [2, 1])) :=
  ⟨_, (h.2.2.2.2.2.2.2 (pay running [2, 1]) 2 (by decide) (.inr rfl)).1.2.1 (by decide) rfl⟩

theorem test_spdm_waits_meets (h : Obligations.FirmwareEvents) : Goes (exec (.spdmGetVersion) (pay State.reset [0, 0])) :=
  ⟨_, (h.2.2.2.2.2.2.2 (pay State.reset [0, 0]) 0 (by decide) (.inl rfl)).1.2.2 (by decide) rfl⟩

theorem test_attach_meets (h : Obligations.DebugEvents) : Goes (exec (.fradbAttach) (pay State.reset [0])) :=
  ⟨_, (h.1 (pay State.reset [0]) 0 rfl).1 rfl (by decide) rfl⟩

theorem test_attach_cut_meets (h : Obligations.DebugEvents) : Goes (exec (.fradbAttach) ({ pay State.reset [0] with debugCut := true })) :=
  ⟨_, (h.1 ({ pay State.reset [0] with debugCut := true }) 0 rfl).2 rfl⟩

/-- Region 0 is attached after a breakpoint at 0x200000 was set. -/
def broken : State :=
  { pay tensored [0] with fradb := { grp.fradb with breaks := [⟨0x200000, [], 0, false⟩] } }

theorem test_attach_break_meets (h : Obligations.DebugEvents) : Goes (exec (.fradbAttach) broken) :=
  goes_of (h.2.1 broken 0x200000 0x200000 0 0 [] rfl rfl (by decide) rfl (by decide) (fun _ h => nomatch h) (by decide) (by decide))

theorem test_break_meets (h : Obligations.DebugEvents) : Goes (exec (.fradbBreak) (pay (attached false) [0x200000])) :=
  goes_of ((h.2.2.1 (pay (attached false) [0x200000]) 0x200000 0x200000 0 0 rfl (by decide) (by decide) (by decide) rfl rfl).1 rfl)

theorem test_break_hit_meets (h : Obligations.DebugEvents) : Goes (exec (.fradbBreakHit) (pay (attached false) [0x200000, 2])) :=
  goes_of ((h.2.2.1 (pay (attached false) [0x200000, 2]) 0x200000 0x200000 2 0 rfl (by decide) (by decide) (by decide) rfl rfl).2 rfl)

theorem test_continue_meets (h : Obligations.DebugEvents) : Goes (exec (.fradbContinue) (attached true)) :=
  goes_of ((h.2.2.2.1 (attached true) bootTid false (attached true).cur rfl (by decide) rfl).2.2.1 rfl (by decide) rfl).1

theorem test_step_meets (h : Obligations.DebugEvents) : Goes (exec (.fradbStep) (attached true)) :=
  goes_of ((h.2.2.2.1 (attached true) bootTid false (attached true).cur rfl (by decide) rfl).2.2.1 rfl (by decide) rfl).2

theorem test_step_unheld_meets (h : Obligations.DebugEvents) : Goes (exec (.fradbStep) (attached false)) :=
  ⟨_, ((h.2.2.2.1 (attached false) bootTid false (attached false).cur rfl (by decide) rfl).2.1 rfl (by decide) rfl).2⟩

theorem test_step_unattached_meets (h : Obligations.DebugEvents) : Goes (exec (.fradbStep) (pay grp [bootTid, 0])) :=
  ⟨_, ((h.2.2.2.1 (pay grp [bootTid, 0]) bootTid false (pay grp [bootTid, 0]).cur rfl (by decide) rfl).1 (.inr (by decide))).2⟩

theorem test_not_ready_none_meets (h : Obligations.DebugEvents) : Goes (exec (.fradbStepNotReady) (attached true)) :=
  ⟨_, ((h.2.2.2.1 (attached true) bootTid false (attached true).cur rfl (by decide) rfl).2.2.2 rfl (by decide)).1 (.inl (by decide))⟩

/-- A step whose instruction did not issue when it was tried. -/
def unready : State := { attached true with fradb := { (attached true).fradb with stepping := [(bootTid, false)], refused := [(bootTid, false)] } }

theorem test_not_ready_meets (h : Obligations.DebugEvents) : Goes (exec (.fradbStepNotReady) unready) :=
  ⟨_, ((h.2.2.2.1 unready bootTid false unready.cur rfl (by decide) rfl).2.2.2 rfl (by decide)).2 (by decide) (.inl (by decide))⟩

theorem test_intake_hold_meets (h : Obligations.DebugEvents) : Goes (exec (.fradbIntakeHold) grp) :=
  ⟨_, (h.2.2.2.2.1 grp).1 rfl⟩

theorem test_print_meets (h : Obligations.DebugEvents) : Goes (exec (.fradbPrint) (pay (attached false) [bootTid, 8, 0])) :=
  ⟨_, ((h.2.2.2.2.2 (pay (attached false) [bootTid, 8, 0]) rfl).1 bootTid 8 (pay (attached false) [bootTid, 8, 0]).cur false rfl rfl (by decide)).1 rfl (by decide)⟩

theorem test_print_pc_meets (h : Obligations.DebugEvents) : Goes (exec (.fradbPrint) (pay (attached false) [bootTid, 201, 0])) :=
  ⟨_, ((h.2.2.2.2.2 (pay (attached false) [bootTid, 201, 0]) rfl).1 bootTid 201 (pay (attached false) [bootTid, 201, 0]).cur false rfl rfl (by decide)).2.1 rfl rfl⟩

/-- A swapped-out group of an attached region. -/
def attachedSaved (ps : List Nat) : State :=
  { pay (attached false) ps with cur := { (attached false).cur with resident := false, saveRec := 0x300000 } }

theorem test_print_saved_meets (h : Obligations.DebugEvents) : Goes (exec (.fradbPrint) (attachedSaved [bootTid, 8, 0])) :=
  ⟨_, ((h.2.2.2.2.2 (attachedSaved [bootTid, 8, 0]) rfl).1 bootTid 8 (attachedSaved [bootTid, 8, 0]).cur false rfl rfl (by decide)).2.2
    rfl rfl (by decide)⟩

theorem test_save_saved_meets (h : Obligations.DebugEvents) : Goes (exec (.fradbSave) (attachedSaved [bootTid])) :=
  ⟨_, ((h.2.2.2.2.2 (attachedSaved [bootTid]) rfl).2.1 bootTid (attachedSaved [bootTid]).cur rfl rfl (by decide)).1 rfl (by decide)⟩

theorem test_show_save_meets (h : Obligations.DebugEvents) : Goes (exec (.fradbSave) (pay (attached false) [bootTid])) :=
  ⟨_, ((h.2.2.2.2.2 (pay (attached false) [bootTid]) rfl).2.1 bootTid (pay (attached false) [bootTid]).cur rfl rfl (by decide)).2.1 rfl⟩

theorem test_show_plq_meets (h : Obligations.DebugEvents) : Goes (exec (.fradbPlq) (pay (attached false) [bootTid])) :=
  ⟨_, ((h.2.2.2.2.2 (pay (attached false) [bootTid]) rfl).2.1 bootTid (pay (attached false) [bootTid]).cur rfl rfl (by decide)).2.2 rfl⟩

theorem test_show_name_meets (h : Obligations.DebugEvents) : Goes (exec (.fradbName) (pay (attached false) [bootTid])) :=
  (let ⟨_, x⟩ := (h.2.2.2.2.2 (pay (attached false) [bootTid]) rfl).2.2.1 bootTid rfl (by decide); ⟨_, x⟩)

theorem test_show_x_meets (h : Obligations.DebugEvents) : Goes (exec (.fradbX) (pay (attached false) [0x100, 1])) :=
  ⟨_, (h.2.2.2.2.2 (pay (attached false) [0x100, 1]) rfl).2.2.2.1 0x100 0x100 rfl (by decide)⟩

theorem test_show_x_absent_meets (h : Obligations.DebugEvents) : Goes (exec (.fradbX) (pay (attached false) [0x40000000, 1])) :=
  ⟨_, (h.2.2.2.2.2 (pay (attached false) [0x40000000, 1]) rfl).2.2.2.2.1 0x40000000 rfl (by decide)⟩

theorem test_show_skein_meets (h : Obligations.DebugEvents) : Goes (exec (.fradbSkein) (pay (attached false) [1])) :=
  (let ⟨_, x⟩ := (h.2.2.2.2.2 (pay (attached false) [1]) rfl).2.2.2.2.2.1 1 rfl; ⟨_, x⟩)

theorem test_show_row_meets (h : Obligations.DebugEvents) : Goes (exec (.fradbTileRow) (pay (tiled (attached false)) [0, 1, 127])) :=
  ⟨_, ((h.2.2.2.2.2 (pay (tiled (attached false)) [0, 1, 127]) rfl).2.2.2.2.2.2 0 1 127).2 rfl (by decide)⟩

theorem test_trapret_meets (h : Obligations.TrapReturn) : Goes (exec (.trapret) ({ grp with cur := { grp.cur with tcause := 0x2E, tpc := 0x100 } })) :=
  ⟨_, (h.1 ({ grp with cur := { grp.cur with tcause := 0x2E, tpc := 0x100 } }) (ready_of (by decide)) rfl (by decide)).1 (by decide)⟩

theorem test_trapret_other_meets (h : Obligations.TrapReturn) : Goes (exec (.trapret) ({ both with cur := { both.cur with tcause := 0x31, tpc := 0x100 } })) :=
  ⟨_, (h.1 ({ both with cur := { both.cur with tcause := 0x31, tpc := 0x100 } }) (ready_of (by decide)) rfl (by decide)).2 (by decide)⟩

theorem test_trapret_illegal_meets (h : Obligations.TrapReturn) : Goes (exec (.trapret) handled) :=
  ⟨_, h.2 handled (ready_of (by decide)) rfl (by decide) (by decide) (by decide)⟩

theorem test_trap_nested_meets (h : Obligations.TrapTaking) : Goes (exec (.trap 8 false false) ({ grp with cur := { grp.cur with tcause := 0x20 } })) :=
  goes_of ((h.2.1 8 false false ({ grp with cur := { grp.cur with tcause := 0x20 } }) rfl (ready_of (by decide)) rfl (by decide)).1 (by decide))

theorem test_trap_unhandled_meets (h : Obligations.TrapTaking) : Goes (exec (.trap 8 false false) grp) :=
  goes_of ((h.2.1 8 false false grp rfl (ready_of (by decide)) rfl (by decide)).2 (by decide) (by decide) (by decide))

theorem test_trap_sequencer_meets (h : Obligations.TrapTaking) : Goes (exec (.trapret) sqr) :=
  goes_of (h.2.2.1 sqr 0 .trapret (List.Mem.head _) (ready_of (by decide)) rfl (by decide))

theorem test_issuer_meets (h : Obligations.TrapTaking) : Goes (exec (.clust) handled) :=
  ⟨_, (h.2.2.2 handled (ready_of (by decide)) rfl).1 (by decide) (by decide) (by decide)⟩

theorem test_empty_waits_meets (h : Obligations.EmptySources) : Goes (exec (.sadd 8 9 10 false false) ({ grp with cur := grp.cur.setFull (.s 9) false })) :=
  goes_of ((h 8 9 10 false false ({ grp with cur := grp.cur.setFull (.s 9) false }) rfl (by decide) (by decide) rfl rfl).1 (by decide) (.inl rfl))

theorem test_empty_traps_meets (h : Obligations.EmptySources) : Goes (exec (.sadd 8 9 10 true false) ({ handled with cur := handled.cur.setFull (.s 9) false })) :=
  ⟨_, (h 8 9 10 true false ({ handled with cur := handled.cur.setFull (.s 9) false }) rfl (by decide) (by decide) rfl rfl).2.1 (by decide) rfl (by decide) rfl rfl (by decide) (by decide) (by decide)⟩

theorem test_busy_waits_meets (h : Obligations.EmptySources) : Goes (exec (.sadd 8 9 10 false false) ({ grp with cur := { grp.cur with pend := [.s 8] } })) :=
  goes_of ((h 8 9 10 false false ({ grp with cur := { grp.cur with pend := [.s 8] } }) rfl (by decide) (by decide) rfl rfl).2.2 (by decide) (by decide))

theorem test_roundTrip_meets (h : Obligations.DecodeEncode) :
    decode (encodeBytes (.sadd 11 8 9 false false) ++ [7]) = .ok (.sadd 11 8 9 false false, [7]) :=
  h (.sadd 11 8 9 false false) [7] rfl rfl

theorem test_wordMeans_meets (h : Obligations.DecodedWordIsEncoding) : (Instr.sadd 11 8 9 false false).WellFormed :=
  (h 0x04588120 0 _ (by decide) (by decide) rfl).1

/-- A SADD at the PC of the loaded group. -/
def fetched : State := State.reset.withFetchWord 32 0x04588120

/-- The state as it fetches. -/
def fetches : State :=
  (({ fetched.tock with agenda := [] } : State).turnTo bootTid false).modCur fun g => g.mapMe fun a => { a with turned := false }

/-- The place of the word, which the core's instruction TLB translates. -/
def wordAt : List Hit := [⟨0, .dev bootPc, .dev (bootPc + 4), some { ent with core := some (0, true) }, w64 bootPc⟩]

theorem test_stepDecoded_meets (h : Obligations.StepRunsDecoded) :
    step fetched = afterNext (({ fetched.tock with agenda := [] } : State).issued bootTid false)
      (exec (.sadd 11 8 9 false false) { fetches.touchAll false wordAt with ir := 0x04588120 }) :=
  ((h.1 fetched bootTid false [] bootGroup rfl rfl (by decide) (by decide) (by decide) (by decide) rfl).1 0x04588120 wordAt
    (by decide)).1 rfl _ rfl

theorem test_stepReserved_meets (h : Obligations.StepRunsDecoded) :
    ∃ f x, step (State.reset.withFetchWord 32 0) = afterNext f (exec .reservedEncoding x) :=
  ⟨_, _, ((h.1 (State.reset.withFetchWord 32 0) bootTid false [] bootGroup rfl rfl (by decide) (by decide) (by decide) (by decide)
    rfl).1 0 wordAt (by decide)).2.1 rfl .major rfl⟩

theorem test_fetchWord_meets (h : Obligations.StepRunsDecoded) : fetches.fetchWord (w64 bootPc) = .word 0x04588120 wordAt :=
  h.2.2.2.1 fetches (w64 bootPc) bootPc _ _ (by decide) (by decide) (by decide)

theorem test_issued_meets (h : Obligations.StepRunsDecoded) : (fetches.issued bootTid false fetches).mem = fetches.mem := by
  obtain ⟨f, _, e⟩ := h.2.2.1 fetches fetches bootTid false
  rw [e]

theorem test_agenda_meets (h : Obligations.StepRunsDecoded) :
    Goes (step { State.reset with agenda := [.event .powerUp []] }) :=
  ⟨_, (h.2.2.2.2.1 { State.reset with agenda := [.event .powerUp []] } .powerUp [] [] rfl).trans rfl⟩

theorem test_idle_meets (h : Obligations.StepRunsDecoded) : step State.reset = .next State.reset.tock :=
  (h.2.2.2.2.2.1 State.reset rfl).2.2.2 (by decide) (by decide) (by decide) (by decide)

theorem test_keeps_meets (h : Obligations.StepKeepsMemory) : State.reset.tock.MemoryOk :=
  h State.reset _ ⟨rfl, rfl, rfl, rfl⟩ rfl

theorem test_stepLong_meets (h : Obligations.StepRunsDecoded) :
    ∃ f x, step (State.reset.withFetchWord 64 0x0004FFFF2D480000) = afterNext f (exec (.limm 41 0x0004FFFF) x) :=
  ⟨_, _, ((h.1 (State.reset.withFetchWord 64 0x0004FFFF2D480000) bootTid false [] bootGroup rfl rfl (by decide) (by decide)
    (by decide) (by decide) rfl).1 0x2D480000 wordAt (by decide)).2.2.1 rfl 0x0004FFFF
    [⟨0, .dev (bootPc + 4), .dev (bootPc + 8), some { ent with core := some (0, true) }, w64 (bootPc + 4)⟩] _ (by decide) rfl⟩

/-- The loaded group at an address that is no multiple of four. -/
def astray : State :=
  { handled with agenda := [.arm bootTid false], cur := { handled.cur with armA := { handled.cur.armA with pc := 2 } } }

theorem test_stepTrap_meets (h : Obligations.StepRunsDecoded) : Goes (step astray) :=
  ⟨_, (h.1 astray bootTid false [] astray.cur rfl rfl (by decide) (by decide) (by decide) (by decide) rfl).2
    ⟨.misalign, 2, 2, 0⟩ (by decide) (by decide)⟩

/-! ### Words of the spec and what they decode to (R208 to R225) -/

theorem test_decode_sdivu : decodeWords 0x0860B870 0 = .ok (.sdivu 12 11 67 false false) := by decide
theorem test_decode_sshi : decodeWords 0x24409804 0 = .ok (.sshiSra 8 9 4) := by decide
theorem test_decode_brdn : decodeWords 0x40820004 0 = .ok (.brdn 2 4) := by decide
theorem test_decode_vqnt : decodeWords 0x64A08190 0 = .ok (.vqnt 20 8 12 false false) := by decide
theorem test_decode_strl : decodeWords 0x9C28237E 0 = .ok (.strlVector 5 2 1 2 62) := by decide
theorem test_decode_trd : decodeWords 0xC8402800 0 = .ok (.trd 8 2 64 false false) := by decide
theorem test_decode_mreq : decodeWords 0xC4645000 0 = .ok (.mreq 12 69 0 false false) := by decide
theorem test_decode_wake : decodeWords 0xD4008000 0 = .ok (.wake 8 false false) := by decide
theorem test_decode_watch : decodeWords 0xE0514000 0 = .ok (.watch 10 20 false false) := by decide
theorem test_decode_srd : decodeWords 0xFC0050F0 0 = .ok (.srd 10 15) := by decide
theorem test_decode_replay : decodeWords 0xFC140001 0 = .ok .replayDie := by decide
theorem test_decode_saddi : decodeWords 0x1450AFFF 0 = .ok (.saddi 10 10 0xFFF) := by decide
theorem test_decode_limm : decodeWords 0x2D480000 0x0004FFFF = .ok (.limm 41 0x0004FFFF) := by decide
theorem test_decode_bnez : decodeWords 0x3C8AFFFD 0 = .ok (.bnez 10 0xFFFD) := by decide
theorem test_decode_vfma : decodeWords 0x5C3040AC 0 = .ok (.vfma 6 4 5 false false) := by decide
theorem test_decode_expr : decodeWords 0x704840B0 0x000BE210 = .ok (.expr 9 4 5 5 false false 0x000BE210) := by decide
theorem test_decode_lds : decodeWords 0x88A085FF 0 = .ok (.lds 20 8 2 3 0x7F) := by decide
theorem test_decode_atom : decodeWords 0xA0188080 0 = .ok (.atomAdd 3 8 4 false false) := by decide
theorem test_decode_fence : decodeWords 0xB4000211 0 = .ok (.fence false false 2 1 1) := by decide
theorem test_decode_mma : decodeWords 0xCC140820 0 = .ok (.mma 2 64 65 false false) := by decide
theorem test_decode_depo : decodeWords 0xD5088AA8 0 = .ok (.depo 33 8 85 false false) := by decide
theorem test_decode_hnew : decodeWords 0xDC541800 0 = .ok (.hnew 10 65 64 false false) := by decide
theorem test_decode_setcoh : decodeWords 0xFC1840C1 0 = .ok (.setcoh 8 12 1) := by decide

/-- The bytes of the first word lie at the lowest addresses, low byte first (R2, R208). -/
theorem test_decode_bytes : decode [0x20, 0x81, 0x58, 0x04, 0x2A] = .ok (.sadd 11 8 9 false false, [0x2A]) := by decide
theorem test_decode_short : decode [0x20, 0x81, 0x58] = .error .truncated := by decide

/-! ### Terms that are not instructions (R212, R213, R224) -/

theorem test_illFormed_s : (Instr.sadd 8 96 9 false false).check = some .field := by decide
theorem test_illFormed_sx : (Instr.sadd 64 8 9 false false).check = some .field := by decide
theorem test_illFormed_sp : (Instr.sadd64 8 11 10 false false).check = some .field := by decide
theorem test_illFormed_sxp : (Instr.sadd64 9 10 12 false false).check = some .field := by decide
theorem test_illFormed_v : (Instr.vadd 128 1 2 false false).check = some .field := by decide
theorem test_illFormed_vp : (Instr.ld 2 5 0 2 0).check = some .field := by decide
theorem test_illFormed_p : (Instr.bany 8 0).check = some .field := by decide
theorem test_illFormed_pd : (Instr.pand 0 1 2 false false).check = some .field := by decide
theorem test_illFormed_t : (Instr.trd 8 16 64 false false).check = some .field := by decide
theorem test_illFormed_mb : (Instr.depo 40 8 10 false false).check = some .field := by decide
theorem test_illFormed_block : (Instr.take 10 false false).check = some .field := by decide
theorem test_illFormed_three : (Instr.ptos 62 1 false false).check = some .field := by decide
theorem test_illFormed_imm : (Instr.saddi 8 9 4096).check = some .field := by decide
theorem test_illFormed_sreg : (Instr.srd 10 19).check = some .sreg := by decide
theorem test_illFormed_sregPair : (Instr.srd 11 7).check = some .field := by decide
theorem test_illFormed_exprDepth : (Instr.expr 9 4 5 2 false false 0x40).check = some .expr := by decide
theorem test_illFormed_exprRest : (Instr.expr 9 4 5 1 false false 0x10).check = some .expr := by decide
theorem test_wellFormed_expr : (Instr.expr 9 4 5 5 false false 0xBE210).check = none := by decide

/-! ### One step on small states -/

/-- What a step leaves. -/
def after {α : Type} (o : Host.Outcome State Fault Refusal) (f : State → α) : Option α :=
  match o with
  | .next t => some (f t)
  | _ => none

/-- s10 and s11 of the loaded group. -/
def two (x y : W32) : State := put (put grp (.s 10) x) (.s 11) y

/-- What an instruction leaves in s8 from s10 and s11. -/
def s8 (i : Instr) (x y : W32) : Option W32 := after (exec i (two x y)) fun t => t.cur.val32 (.s 8)

theorem test_sadd_wraps : s8 (.sadd 8 10 11 false false) 0xFFFFFFFF 2 = some 1 := by decide
theorem test_ssub_order : s8 (.ssub 8 10 11 false false) 5 7 = some 0xFFFFFFFE := by decide
theorem test_ssra_sign : s8 (.ssra 8 10 11 false false) 0x80000000 36 = some 0xF8000000 := by decide
theorem test_sdiv_truncates : s8 (.sdiv 8 10 11 false false) 0xFFFFFFF9 2 = some 0xFFFFFFFD := by decide
theorem test_sdiv_zero : s8 (.sdiv 8 10 11 false false) 7 0 = some 0xFFFFFFFF := by decide
theorem test_sdiv_least : s8 (.sdiv 8 10 11 false false) 0x80000000 0xFFFFFFFF = some 0x80000000 := by decide
theorem test_srem_sign : s8 (.srem 8 10 11 false false) 0xFFFFFFF9 2 = some 0xFFFFFFFF := by decide
theorem test_smulh_sign : s8 (.smulh 8 10 11 false false) 0xFFFFFFFF 0x10000 = some 0xFFFFFFFF := by decide
theorem test_smulhu : s8 (.smulhu 8 10 11 false false) 0xFFFFFFFF 0x10000 = some 0xFFFF := by decide
theorem test_sclz_zero : s8 (.sclz 8 10 false false) 0 0 = some 32 := by decide
theorem test_saddi_sign : s8 (.saddi 8 10 0xFFF) 5 0 = some 4 := by decide
theorem test_slui : s8 (.slui 8 10 0xABC) 0x12345678 0 = some 0xABC45678 := by decide
theorem test_literal : s8 (.sadd 8 10 64 false false) 5 0 = some 5 := by decide

/-- v3 and v4 hold a word in every lane. -/
def vecs (m x y : W32) : State :=
  let g := ((md m).cur.putV 3 (BitVec.allOnes 96) (List.replicate 96 x) 0).putV 4 (BitVec.allOnes 96) (List.replicate 96 y) 0
  { md m with cur := g }

/-- What an instruction leaves in lane 95 of v2. -/
def v2 (i : Instr) (m x y : W32) : Option W32 := after (exec i (vecs m x y)) fun t => t.cur.lane 2 95

theorem test_vadd_wraps : v2 (.vadd 2 3 4 false false) 0x2001 0x7FFFFFFF 1 = some 0x80000000 := by decide
theorem test_vadd_saturates : v2 (.vadd 2 3 4 false false) 0x2081 0x7FFFFFFF 1 = some 0x7FFFFFFF := by decide
theorem test_vadd_bytes : v2 (.vadd 2 3 4 false false) 0x2004 0x01FF7F80 0x01010101 = some 0x02008081 := by decide
theorem test_vfadd : v2 (.vfadd 2 3 4 false false) 0x2006 0x3F800000 0x40000000 = some 0x40400000 := by decide
theorem test_vfmul_zeroInf : v2 (.vfmul 2 3 4 false false) 0x2006 0x7F800000 0 = some 0x7FC20000 := by decide
theorem test_vshuf_outside : v2 (.vshuf 2 3 4 false false) 0x2001 7 96 = some 0 := by decide

theorem test_jmpr : after (exec (.jmpr 10 false false) (two 0x1000 2)) (fun t => t.cur.me.pc) = some 0x200001000 := by decide
theorem test_trap_entry :
    after (exec (.trap 69 false false) handled) (fun t => (t.cur.me.pc, t.cur.tcause, t.cur.tpc, t.cur.tinfo)) =
      some (0x200000, 0x2E, 0x100000, 5) := by decide
theorem test_sts_bytes :
    after (exec (.sts 10 0 0 2 1) (two 0x11223344 0)) (fun t => (t.mem.get 4, t.mem.get 7, t.mem.get 8)) =
      some (0x44, 0x11, 0) := by decide
theorem test_lds_empties : after (exec (.lds 8 0 0 2 0) grp) (fun t => t.cur.full (.s 8)) = some false := by decide
theorem test_reset_memory : State.reset.mem.wf = true := by decide

end Sys2Proof.Tests
end

section
/-!
The scalar forms (R228 to R239): the model's word operations as arithmetic, the forms that share one meaning, and the
two obligations about them.
-/

namespace Sys2Proof.Machine

/-! ### The scalar operations as arithmetic on signed and unsigned values -/

/-- SSRA is the floor of a / 2^n (R231). -/
theorem sra32_eq_div (a : W32) (n : Nat) : sra32 a n = BitVec.ofInt 32 (a.toInt / 2 ^ n) := by
  rw [sra32, BitVec.sshiftRight_eq, Int.shiftRight_eq_div_pow]
  norm_cast

theorem ror32_eq_rotateRight (a : W32) {n : Nat} (h : n < 32) : ror32 a n = a.rotateRight n := by
  rw [ror32, BitVec.rotateRight_def, Nat.mod_eq_of_lt h]

/-- The upper half of a 64-bit word that is an integer x modulo 2^64 is x / 2^32. -/
theorem hiW_of_toNat_eq {y : W64} {x : Int} (h : (y.toNat : Int) = x % 2 ^ 64) :
    hiW y = BitVec.ofInt 32 (x / 2 ^ 32) := by
  apply BitVec.eq_of_toNat_eq
  rw [hiW, BitVec.toNat_setWidth, BitVec.toNat_ushiftRight, Nat.shiftRight_eq_div_pow, BitVec.toNat_ofInt]
  omega

theorem mulHigh_eq_div (a b : W32) : mulHigh a b = BitVec.ofInt 32 (a.toInt * b.toInt / 2 ^ 32) := by
  apply hiW_of_toNat_eq
  have e (x : W32) : x.signExtend 64 = BitVec.ofInt 64 x.toInt := rfl
  rw [e, e, ← BitVec.ofInt_mul, BitVec.toNat_ofInt]
  omega

theorem mulHighU_eq_div (a b : W32) : mulHighU a b = BitVec.ofNat 32 (a.toNat * b.toNat / 2 ^ 32) := by
  have e : ((a.setWidth 64 * b.setWidth 64 : W64).toNat : Int) = ((a.toNat * b.toNat : Nat) : Int) % 2 ^ 64 := by
    simp [BitVec.toNat_mul]
  rw [mulHighU, hiW_of_toNat_eq e]
  norm_cast

theorem toInt_eq_zero_iff (b : W32) : b.toInt = 0 ↔ b = 0 := by
  rw [← BitVec.toInt_inj, show (0 : W32).toInt = 0 from rfl]

theorem toNat_eq_zero_iff (b : W32) : b.toNat = 0 ↔ b = 0 := by
  rw [← BitVec.toNat_inj]; rfl

theorem divS_eq_tdiv (a b : W32) :
    divS a b = if b.toInt = 0 then BitVec.allOnes 32 else BitVec.ofInt 32 (a.toInt.tdiv b.toInt) := by
  have e : a.sdiv b = BitVec.ofInt 32 (a.toInt.tdiv b.toInt) :=
    BitVec.eq_of_toInt_eq (by rw [BitVec.toInt_sdiv, BitVec.toInt_ofInt])
  rw [divS, e]
  simp only [toInt_eq_zero_iff]
  rfl

theorem divU_eq_div (a b : W32) :
    divU a b = if b.toNat = 0 then BitVec.allOnes 32 else BitVec.ofNat 32 (a.toNat / b.toNat) := by
  rw [divU, ← BitVec.toNat_udiv, BitVec.ofNat_toNat, BitVec.setWidth_eq]
  simp only [toNat_eq_zero_iff]
  rfl

theorem remS_eq_tmod (a b : W32) :
    remS a b = if b.toInt = 0 then a else BitVec.ofInt 32 (a.toInt.tmod b.toInt) := by
  rw [remS, ← BitVec.toInt_srem, BitVec.ofInt_toInt]
  simp only [toInt_eq_zero_iff]

theorem remU_eq_mod (a b : W32) :
    remU a b = if b.toNat = 0 then a else BitVec.ofNat 32 (a.toNat % b.toNat) := by
  rw [remU, ← BitVec.toNat_umod, BitVec.ofNat_toNat, BitVec.setWidth_eq]
  simp only [toNat_eq_zero_iff]

theorem mul_eq_ofNat (a b : W32) : a * b = BitVec.ofNat 32 (a.toNat * b.toNat) := by
  rw [BitVec.ofNat_mul]; simp

theorem ite_slt_left_eq (a b : W32) : (if a.slt b then a else b) = if b.toInt < a.toInt then b else a := by
  simp only [BitVec.slt_iff_toInt_lt]
  split <;> split
  · omega
  · rfl
  · rfl
  · exact BitVec.eq_of_toInt_eq (by omega)

theorem ite_ult_left_eq (a b : W32) : (if a.ult b then a else b) = if b.toNat < a.toNat then b else a := by
  simp only [BitVec.ult_iff_lt, BitVec.lt_def]
  split <;> split
  · omega
  · rfl
  · rfl
  · exact BitVec.eq_of_toNat_eq (by omega)

theorem ite_slt_right_eq (a b : W32) : (if a.slt b then b else a) = if a.toInt < b.toInt then b else a := by
  simp only [BitVec.slt_iff_toInt_lt]

theorem ite_ult_right_eq (a b : W32) : (if a.ult b then b else a) = if a.toNat < b.toNat then b else a := by
  simp only [BitVec.ult_iff_lt, BitVec.lt_def]

theorem boolW_slt (a b : W32) : boolW (a.slt b) = if a.toInt < b.toInt then 1 else 0 := by
  simp only [boolW, BitVec.slt_iff_toInt_lt]

theorem boolW_ult (a b : W32) : boolW (a.ult b) = if a.toNat < b.toNat then 1 else 0 := by
  simp only [boolW, BitVec.ult_iff_lt, BitVec.lt_def]

theorem boolW_beq (a b : W32) : boolW (a == b) = if a = b then 1 else 0 := by
  simp only [boolW, beq_iff_eq]

theorem boolW_bne (a b : W32) : boolW (a != b) = if a = b then 0 else 1 := by
  simp only [boolW, bne_iff_ne, ite_not]

/-! ### Counting bits -/

theorem clz32_le (x : W32) : clz32 x ≤ 32 := by
  unfold clz32; split <;> omega

/-- A word that is not zero has its first one below its leading zeros. -/
theorem log2_toNat_eq {x : W32} (h : x.toNat ≠ 0) : Nat.log2 x.toNat = 31 - clz32 x ∧ clz32 x < 32 := by
  have := (Nat.log2_lt h).mpr x.isLt
  rw [clz32, if_neg h]
  omega

theorem getLsbD_above_clz32 (x : W32) {i : Nat} (h : i < clz32 x) : x.getLsbD (31 - i) = false := by
  by_cases h0 : x.toNat = 0
  · rw [BitVec.getLsbD, h0, Nat.zero_testBit]
  · obtain ⟨hl, hc⟩ := log2_toNat_eq h0
    exact Nat.testBit_lt_two_pow ((Nat.log2_lt h0).mp (by omega))

theorem getLsbD_at_clz32 (x : W32) (h : clz32 x < 32) : x.getLsbD (31 - clz32 x) = true := by
  have h0 : x.toNat ≠ 0 := fun e => by simp [clz32, e] at h
  rw [BitVec.getLsbD, ← (log2_toNat_eq h0).1]
  exact Nat.testBit_log2 h0

theorem popCount_eq_countP (n x : Nat) : popCount n x = (List.range n).countP fun i => x.testBit i := by
  induction n generalizing x with
  | zero => rfl
  | succ n ih =>
    rw [popCount, ih, List.range_succ_eq_map, List.countP_cons, List.countP_map, Nat.add_comm]
    congr 1
    · exact List.countP_congr fun i _ => by simp [Nat.testBit_succ]
    · rcases Nat.mod_two_eq_zero_or_one x with h | h <;> simp [h]

/-! ### Immediates -/

theorem sext12_eq_signExtend (i : Nat) : sext12 i = (BitVec.ofNat 12 i).signExtend 32 := by
  apply BitVec.eq_of_toNat_eq
  rw [sext12, sext64, BitVec.toNat_signExtend, BitVec.msb_eq_decide]
  simp only [BitVec.toNat_setWidth, BitVec.toNat_ofNat, decide_eq_true_eq]
  split <;> split <;> simp only [BitVec.toNat_ofNat] <;> omega

theorem getLsbD_low20 {j : Nat} (h : j < 32) : (0x000FFFFF#32).getLsbD j = decide (j < 20) := by
  revert j; decide

theorem getLsbD_high20 {j : Nat} (h : j < 32) : (0xFFFFF000#32).getLsbD j = decide (12 ≤ j) := by
  revert j; decide

theorem lui_eq_append (a : W32) (i : Nat) : lui a i = BitVec.ofNat 12 i ++ a.setWidth 20 := by
  apply BitVec.eq_of_getLsbD_eq
  intro j hj
  simp only [lui, BitVec.getLsbD_or, BitVec.getLsbD_and, getLsbD_low20 hj, BitVec.getLsbD_shiftLeft,
    BitVec.getLsbD_append, BitVec.getLsbD_setWidth, BitVec.getLsbD_ofNat]
  by_cases h : j < 20
  · simp [h]
  · have h12 : j - 20 < 12 := by omega
    have h32 : j - 20 < 32 := by omega
    simp [hj, h, h12, h32]

theorem modeSetm_eq_append (m : W32) (i : Nat) : modeSetm m i = m.extractLsb' 12 20 ++ BitVec.ofNat 12 i := by
  apply BitVec.eq_of_getLsbD_eq
  intro j hj
  simp only [modeSetm, BitVec.getLsbD_or, BitVec.getLsbD_and, getLsbD_high20 hj, BitVec.getLsbD_append,
    BitVec.getLsbD_extractLsb', BitVec.getLsbD_ofNat, show 4096 = 2 ^ 12 from rfl, Nat.testBit_mod_two_pow]
  by_cases h : j < 12
  · have h' : ¬ 12 ≤ j := by omega
    simp [hj, h, h']
  · have h' : 12 ≤ j := by omega
    have h20 : j - 12 < 20 := by omega
    simp [h, h', h20]

/-! ### What a well-formed instruction's fields satisfy -/

/-- Each branch of the static checks that passes has passed the operand fields (R430). -/
theorem fieldsOk_of_wellFormed {i : Instr} (h : i.WellFormed) : i.fieldsOk = true := by
  unfold Instr.WellFormed Instr.check at h
  split at h <;> grind

/-- The first operand field is an s register, alone or with more fields after it. -/
theorem lt_of_sx_and {d : Nat} {k : Bool} (h : (Kind.sx d && k) = true) : d < 64 :=
  of_decide_eq_true (Bool.and_elim_left h)

/-! ### The two-source forms (R231, R232, R234) -/

/-- A constructor with operands d SX, a S, b S whose meaning is d ← f a b. -/
structure IsScalarTwo (mk : Claims.Mk5) (f : W32 → W32 → W32) : Prop where
  exec_eq : ∀ (d a b : Nat) (ea eb : Bool) (s : State), exec (mk d a b ea eb) s = scalar2 f d a b ea eb s
  fields_eq : ∀ (d a b : Nat) (ea eb : Bool), (mk d a b ea eb).fieldsOk = (Kind.sx d && Kind.s a && Kind.s b)

/-- The operation that the model computes by, replaced by one that agrees with it on every operand. -/
theorem IsScalarTwo.of_eq {mk : Claims.Mk5} {f g : W32 → W32 → W32}
    (he : (fun d a b ea eb => exec (mk d a b ea eb)) = scalar2 f)
    (hk : (fun d a b ea eb => (mk d a b ea eb).fieldsOk) = fun d a b _ _ => Kind.sx d && Kind.s a && Kind.s b)
    (hf : ∀ x y, f x y = g x y) : IsScalarTwo mk g where
  exec_eq d a b ea eb s := by
    rw [← funext₂ hf, ← he]
  fields_eq d a b ea eb := congrArg (fun k : Nat → Nat → Nat → Bool → Bool → Bool => k d a b ea eb) hk

theorem isScalarTwo_of_mem : ∀ op ∈ Claims.scalarTwo, IsScalarTwo op.1 op.2 := by
  simp only [Claims.scalarTwo, List.forall_mem_cons]
  refine ⟨?sadd, ?ssub, ?sand, ?sor, ?sxor, ?sshl, ?sshr, ?ssra, ?smul, ?smulh, ?smulhu, ?sdiv, ?sdivu, ?srem,
    ?sremu, ?smin, ?smax, ?sminu, ?smaxu, ?sslt, ?ssltu, ?sseq, ?ssne, List.forall_mem_nil _⟩
  case sadd => exact .of_eq rfl rfl fun _ _ => rfl
  case ssub => exact .of_eq rfl rfl fun _ _ => rfl
  case sand => exact .of_eq rfl rfl fun _ _ => rfl
  case sor => exact .of_eq rfl rfl fun _ _ => rfl
  case sxor => exact .of_eq rfl rfl fun _ _ => rfl
  case sshl => exact .of_eq (f := fun a b => a <<< shAmt b) rfl rfl fun _ _ => rfl
  case sshr => exact .of_eq (f := fun a b => a >>> shAmt b) rfl rfl fun _ _ => rfl
  case ssra => exact .of_eq (f := fun a b => sra32 a (shAmt b)) rfl rfl fun a b => sra32_eq_div a (shAmt b)
  case smul => exact .of_eq rfl rfl mul_eq_ofNat
  case smulh => exact .of_eq rfl rfl mulHigh_eq_div
  case smulhu => exact .of_eq rfl rfl mulHighU_eq_div
  case sdiv => exact .of_eq rfl rfl divS_eq_tdiv
  case sdivu => exact .of_eq rfl rfl divU_eq_div
  case srem => exact .of_eq rfl rfl remS_eq_tmod
  case sremu => exact .of_eq rfl rfl remU_eq_mod
  case smin => exact .of_eq (f := fun a b => if a.slt b then a else b) rfl rfl ite_slt_left_eq
  case smax => exact .of_eq (f := fun a b => if a.slt b then b else a) rfl rfl ite_slt_right_eq
  case sminu => exact .of_eq (f := fun a b => if a.ult b then a else b) rfl rfl ite_ult_left_eq
  case smaxu => exact .of_eq (f := fun a b => if a.ult b then b else a) rfl rfl ite_ult_right_eq
  case sslt => exact .of_eq (f := fun a b => boolW (a.slt b)) rfl rfl boolW_slt
  case ssltu => exact .of_eq (f := fun a b => boolW (a.ult b)) rfl rfl boolW_ult
  case sseq => exact .of_eq (f := fun a b => boolW (a == b)) rfl rfl boolW_beq
  case ssne => exact .of_eq (f := fun a b => boolW (a != b)) rfl rfl boolW_bne

theorem IsScalarTwo.dest_lt {mk : Claims.Mk5} {f : W32 → W32 → W32} (h : IsScalarTwo mk f) {d a b : Nat}
    {ea eb : Bool} (wf : (mk d a b ea eb).WellFormed) : d < 64 := by
  have ok := fieldsOk_of_wellFormed wf
  rw [h.fields_eq, Bool.and_assoc] at ok
  exact lt_of_sx_and ok

theorem scalarTwoSource : Claims.ScalarTwoSource := by
  intro op hop d a b ea eb s wf R
  have form := isScalarTwo_of_mem op hop
  rw [form.exec_eq]
  exact scalar2_completes (form.dest_lt wf) R

/-! ### SSEL, SCLZ, SPOPC, SEMPTY (R233, R235) -/

theorem ssel_completes {d a b : Nat} {ea eb : Bool} {s : State} (hd : d < 64)
    (R : s.Ready (.ofS s.cur.sel d :: (s.cur.sregs a ++ s.cur.sregs b)) [.ofS s.cur.sel d]) :
    ∃ t, exec (.ssel d a b ea eb) s = .next t ∧
      t.cur.val32 (.ofS s.cur.sel d) =
        (if s.cur.val32 (.ofS s.cur.sel d) = 0 then s.cur.sval b else s.cur.sval a) ∧
      s.Completes t (.ofS s.cur.sel d :: (s.cur.sregs a ++ s.cur.sregs b)) [.ofS s.cur.sel d] fun x => x.next 4 := by
  have old : s.cur.sval d = s.cur.val32 (.ofS s.cur.sel d) := if_pos hd
  rw [← old]
  refine setS_completes (x := fun g => if g.sval d = 0 then g.sval b else g.sval a)
    (p := { preScalar s.cur d a b ea eb with
      srcs := blocking [.ofS s.cur.sel d] ++ (preScalar s.cur d a b ea eb).srcs })
    R hd rfl (fun r => ?_) (Pre.early_none rfl rfl rfl rfl rfl) (Pre.modeCheck_none rfl (.inl rfl) rfl rfl) rfl
  rw [exists_src_append, preScalar, exists_src_append, mem_blocking, Group.mem_srcA, Group.mem_srcB,
    List.mem_cons, List.mem_singleton, List.mem_append]

theorem sclz_completes {d a : Nat} {ea eb : Bool} {s : State} (hd : d < 64)
    (R : s.Ready (s.cur.sregs a) [.ofS s.cur.sel d]) :
    ∃ t, exec (.sclz d a ea eb) s = .next t ∧
      (∃ n ≤ 32, t.cur.val32 (.ofS s.cur.sel d) = w32 n ∧ (∀ i < n, (s.cur.sval a).getLsbD (31 - i) = false) ∧
        (n < 32 → (s.cur.sval a).getLsbD (31 - n) = true)) ∧
      s.Completes t (s.cur.sregs a) [.ofS s.cur.sel d] fun x => x.next 4 := by
  obtain ⟨t, go, value, frame⟩ := scalar1_completes (f := fun x => w32 (clz32 x)) (ea := ea) hd R
  exact ⟨t, go, ⟨_, clz32_le _, value, fun _ => getLsbD_above_clz32 _, getLsbD_at_clz32 _⟩, frame⟩

theorem spopc_completes {d a : Nat} {ea eb : Bool} {s : State} (hd : d < 64)
    (R : s.Ready (s.cur.sregs a) [.ofS s.cur.sel d]) :
    ∃ t, exec (.spopc d a ea eb) s = .next t ∧
      t.cur.val32 (.ofS s.cur.sel d) = w32 ((List.range 32).countP fun i => (s.cur.sval a).getLsbD i) ∧
      s.Completes t (s.cur.sregs a) [.ofS s.cur.sel d] fun x => x.next 4 := by
  obtain ⟨t, go, value, frame⟩ := scalar1_completes (f := fun x => w32 (popCount 32 x.toNat)) (ea := ea) hd R
  exact ⟨t, go, value.trans (congrArg w32 (popCount_eq_countP ..)), frame⟩

/-- SEMPTY has no source: it reads a full/empty bit, outside effective DET (R13, R32). -/
theorem sempty_completes {d a : Nat} {ea eb : Bool} {s : State} (hd : d < 64)
    (R : s.Ready [] [.ofS s.cur.sel d]) (det : s.cur.eff.det = false) :
    ∃ t, exec (.sempty d a ea eb) s = .next t ∧
      t.cur.val32 (.ofS s.cur.sel d) = (if s.cur.full (.ofS s.cur.sel a) = true then 0 else 1) ∧
      s.Completes t [] [.ofS s.cur.sel d] fun x => x.next 4 := by
  obtain ⟨t, go, value, frame⟩ := setS_completes (len := 4)
    (p := { seqOk := true, timing := true, dests := [.ofS s.cur.sel d] })
    (x := fun g => boolW (!g.full (.ofS g.sel a))) R hd rfl (by simp)
    (Pre.early_none rfl rfl rfl rfl rfl) (Pre.modeCheck_none rfl (.inr det) rfl rfl) rfl
  refine ⟨t, go, value.trans ?_, frame⟩
  cases s.cur.full (.ofS s.cur.sel a) <;> rfl

theorem scalarSelectCount : Claims.ScalarSelectCount := by
  refine ⟨fun d a b ea eb s wf R => ?ssel, fun d a ea eb s wf R => ?sclz, fun d a ea eb s wf R => ?spopc,
    fun d a ea eb s wf R det => ?sempty⟩
  case ssel =>
    have ok : (Kind.sx d && Kind.s a && Kind.s b) = true := fieldsOk_of_wellFormed wf
    rw [Bool.and_assoc] at ok
    exact ssel_completes (lt_of_sx_and ok) R
  case sclz => exact sclz_completes (lt_of_sx_and (fieldsOk_of_wellFormed wf)) R
  case spopc => exact spopc_completes (lt_of_sx_and (fieldsOk_of_wellFormed wf)) R
  case sempty => exact sempty_completes (lt_of_sx_and (fieldsOk_of_wellFormed wf)) R det

/-- Settles O1: the two-source forms by their common form and one equation each, the others by their own lemmas. -/
theorem scalarArithmetic : Obligations.ScalarArithmetic :=
  ⟨scalarTwoSource, scalarSelectCount⟩

/-! ### The immediate forms, LIMM, SETM (R236 to R239) -/

/-- A constructor whose well-formed instructions name an s register d and have the meaning d ← f a imm. -/
structure IsScalarImm (mk : Nat → Nat → Nat → Instr) (f : W32 → Nat → W32) : Prop where
  exec_eq : ∀ (d a imm : Nat) (s : State), (mk d a imm).WellFormed →
    exec (mk d a imm) s = scalarImm (fun x => f x imm) d a s
  dest_lt : ∀ {d a imm : Nat}, (mk d a imm).WellFormed → d < 64

/-- The operation that the model computes by, replaced by one that agrees with it on an immediate of w bits. -/
theorem IsScalarImm.of_eq {mk : Nat → Nat → Nat → Instr} {f g : W32 → Nat → W32} (w : Nat)
    (he : (fun d a imm => exec (mk d a imm)) = fun d a imm => scalarImm (fun x => f x imm) d a)
    (hk : (fun d a imm => (mk d a imm).fieldsOk) = fun d a imm => Kind.sx d && Kind.s a && Kind.bits w imm)
    (hf : ∀ x imm, imm < 2 ^ w → f x imm = g x imm) : IsScalarImm mk g := by
  have fields {d a imm : Nat} (wf : (mk d a imm).WellFormed) : d < 64 ∧ imm < 2 ^ w := by
    have ok := fieldsOk_of_wellFormed wf
    rw [show (mk d a imm).fieldsOk = _ from congrArg (fun k : Nat → Nat → Nat → Bool => k d a imm) hk] at ok
    simp only [Kind.sx, Kind.bits, Bool.and_eq_true, decide_eq_true_eq] at ok
    obtain ⟨⟨hd, -⟩, hi⟩ := ok
    exact ⟨hd, hi⟩
  refine ⟨fun d a imm s wf => ?_, fun wf => (fields wf).1⟩
  rw [← funext fun x => hf x imm (fields wf).2]
  exact congrArg (fun e : Nat → Nat → Nat → State → _ => e d a imm s) he

theorem isScalarImm_of_mem : ∀ op ∈ Claims.scalarImm, IsScalarImm op.1 op.2 := by
  simp only [Claims.scalarImm, List.forall_mem_cons]
  refine ⟨?saddi, ?sandi, ?sori, ?sxori, ?shl, ?shr, ?sra, ?ror, ?slui, List.forall_mem_nil _⟩
  case saddi => exact .of_eq (f := fun x imm => x + sext12 imm) 12 rfl rfl fun x imm _ => by rw [sext12_eq_signExtend]
  case sandi => exact .of_eq (f := fun x imm => x &&& sext12 imm) 12 rfl rfl fun x imm _ => by rw [sext12_eq_signExtend]
  case sori => exact .of_eq (f := fun x imm => x ||| sext12 imm) 12 rfl rfl fun x imm _ => by rw [sext12_eq_signExtend]
  case sxori => exact .of_eq (f := fun x imm => x ^^^ sext12 imm) 12 rfl rfl fun x imm _ => by rw [sext12_eq_signExtend]
  case shl => exact .of_eq 5 rfl rfl fun _ _ _ => rfl
  case shr => exact .of_eq 5 rfl rfl fun _ _ _ => rfl
  case sra => exact .of_eq (f := sra32) 5 rfl rfl fun x n _ => sra32_eq_div x n
  case ror => exact .of_eq (f := ror32) 5 rfl rfl fun x _ h => ror32_eq_rotateRight x h
  case slui => exact .of_eq (f := lui) 12 rfl rfl fun x imm _ => lui_eq_append x imm

theorem limm_completes {d value : Nat} {s : State} (hd : d < 64) (R : s.Ready [] [.ofS s.cur.sel d]) :
    ∃ t, exec (.limm d value) s = .next t ∧ t.cur.val32 (.ofS s.cur.sel d) = BitVec.ofNat 32 value ∧
      s.Completes t [] [.ofS s.cur.sel d] fun x => x.next 8 :=
  setS_completes (p := { seqOk := true, dests := [.ofS s.cur.sel d] }) (x := fun _ => w32 value) R hd rfl (by simp)
    (Pre.early_none rfl rfl rfl rfl rfl) (Pre.modeCheck_none rfl (.inl rfl) rfl rfl) rfl

/-- What SETM makes of its arm but for the PC (R239). -/
def Arm.setm (imm : Nat) (a : Arm) : Arm := { a with mode := modeSetm a.mode imm }

theorem Arm.setm_rest {a b : Arm} (imm : Nat) (h : a.rest = b.rest) : (a.setm imm).rest = (b.setm imm).rest :=
  congrArg (Arm.setm imm) h

theorem setm_completes {imm : Nat} {s : State} (R : s.Ready [] []) :
    ∃ t, exec (.setm imm) s = .next t ∧ s.Completes t [] [] fun x => (x.setm imm).next 4 := by
  have writes : s.cur.Writes (s.cur.mapMe (Arm.setm imm)) [] (Arm.setm imm) :=
    (Group.Writes.refl s.cur).mapMe (Arm.setm imm) (fun _ => ⟨rfl, rfl⟩) fun _ _ => Arm.setm_rest imm
  obtain ⟨t, go, frame, -, -⟩ := issue_completes (len := 4) (p := { seqOk := true })
    (f := fun g => g.mapMe (Arm.setm imm)) R (by simp)
    (Pre.early_none rfl rfl rfl rfl rfl) (Pre.modeCheck_none rfl (.inl rfl) rfl rfl) rfl writes
  exact ⟨t, go, frame⟩

theorem Arm.setm_next (a : Arm) (imm : Nat) : (a.setm imm).next 4 =
    { a with mode := a.mode.extractLsb' 12 20 ++ BitVec.ofNat 12 imm, pc := a.pc + 4 } := by
  rw [Arm.setm, modeSetm_eq_append]
  rfl

/-- Settles O3: the immediate forms by their common form and one equation each, LIMM and SETM by their own lemmas. -/
theorem scalarImmediate : Obligations.ScalarImmediate := by
  refine ⟨fun op hop d a imm s wf R => ?imm, fun d value s wf R => ?limm, fun imm s _ R => ?setm⟩
  case imm =>
    have form := isScalarImm_of_mem op hop
    rw [form.exec_eq d a imm s wf]
    exact scalarImm_completes (form.dest_lt wf) R
  case limm => exact limm_completes (lt_of_sx_and (fieldsOk_of_wellFormed wf)) R
  case setm =>
    obtain ⟨t, go, frame⟩ := setm_completes (imm := imm) R
    simp only [Arm.setm_next] at frame
    exact ⟨t, go, frame⟩

end Sys2Proof.Machine
end

section
/-!
The return from a trap (R335) and its obligation; on the way, the trap frame's word, an instruction that puts its arm's
PC itself, and the trap that an instruction's own effect takes at a trap entry (R363).
-/

namespace Sys2Proof.Machine

/-! ### The arm that has the turn, changed -/

theorem Group.mapArm_eq (g : Group) (b : Bool) (f : Arm → Arm) : g.mapArm b f =
    { g with
      armA := if b then g.armA else f g.armA
      armB := if b then f g.armB else g.armB } := by
  cases b <;> rfl

theorem Group.mapMe_eq (g : Group) (f : Arm → Arm) : g.mapMe f =
    { g with
      armA := if g.sel then g.armA else f g.armA
      armB := if g.sel then f g.armB else g.armB } :=
  g.mapArm_eq g.sel f

/-! ### TCAUSE's fields as bits (R334) -/

theorem bitAt_toNat {w : Nat} (x : BitVec w) (n : Nat) : bitAt x.toNat n = x.getLsbD n := by
  rw [bitAt, BitVec.getLsbD, Nat.testBit_eq_decide_div_mod_eq]
  rfl

theorem tcauseInh_eq_getLsbD (t : W32) : tcauseInh t = t.getLsbD 5 := bitAt_toNat t 5

theorem tcauseArm_eq_getLsbD (t : W32) : tcauseArm t = t.getLsbD 4 := bitAt_toNat t 4

theorem tcauseCause_eq_mod (t : W32) : tcauseCause t = t.toNat % 16 :=
  congrArg (· % 16) (Nat.div_one t.toNat)

theorem Cause.code_lt (c : Cause) : c.code < 16 := by
  cases c <;> decide

theorem tcauseWord_code (c : Cause) (armB inh : Bool) (detail : Nat) :
    tcauseWord c.code armB inh detail =
      w32 (c.code + (if armB then 16 else 0) + (if inh then 32 else 0) + detail % 256 * 256) := by
  have cause : fieldAt c.code 4 0 = c.code := (Nat.mul_one _).trans (Nat.mod_eq_of_lt c.code_lt)
  rw [tcauseWord, cause]
  rfl

/-! ### Instructions that a group alone executes -/

/-- Checks that a group passes: no field depends on VREGS or ET, and no privilege is asked for (R226). -/
theorem Pre.early_none_of_group {p : Pre} {s : State} (hq : s.cur.seq = none) (h1 : p.vs = []) (h2 : p.even = true)
    (h3 : p.seqOnly = false) (h4 : p.priv = 0) : p.early s = none := by
  simp [Pre.early, Pre.fieldsOk, Group.isSeq, hq, h1, h2, h3, h4]

/-- An instruction without operands that reads no MODE meets no check in a group. -/
theorem State.Ready.verdict_group {s : State} (R : s.Ready [] []) (hq : s.cur.seq = none) :
    ({} : Pre).verdict s = .go :=
  Pre.verdict_go (Pre.early_none_of_group hq rfl rfl rfl rfl) (Pre.modeCheck_none rfl (.inl rfl) rfl rfl)
    (List.forall_mem_nil _) (List.forall_mem_nil _) rfl R.sound

/-- An issue whose checks pass and whose effect has put its arm's PC. -/
theorem issue_jump {len : Nat} {p : Pre} {body : State → Eff} {s t : State} (hr : s.cur.me.replay = false)
    (hv : p.verdict s = .go) (hb : body s = .jump t) :
    issue len p body s = .next (t.finish p) := by
  rw [issue_eq, issueState_go hr hv, hb]
  rfl

/-! ### A trap taken at a trap entry (R363) -/

theorem Group.trapEntry_ready (g : Group) : (g.mapMe Arm.ready).trapEntry = g.trapEntry := by
  simp only [Group.mapMe_eq, Group.trapEntry, Group.val32, Group.arm]
  cases g.sel <;> rfl

/-- With INH clear and a trap entry, a trap of another kind than MCHECK writes its frame and no record. -/
theorem State.trapGroup_entered {s : State} {t : Trap} (hi : tcauseInh s.cur.tcause = false)
    (he : s.cur.trapEntry ≠ 0) (hm : t.cause ≠ .mcheck) :
    s.trapGroup t = { s with
      cur := { s.cur with
        tpc := s.cur.me.pc, taddr := t.addr, tinfo := t.info
        tcause := tcauseWord t.cause.code s.cur.sel true t.detail }.setPc s.cur.trapEntry } := by
  rw [State.trapGroup, if_neg (by rw [hi]; decide), if_neg he, State.logMcheck, if_neg hm]
  rfl

theorem State.takeTrap_group {s : State} {t : Trap} (hq : s.cur.seq = none) (hb : t.cause ≠ .brk) :
    s.takeTrap t = s.trapGroup t := by
  rw [State.takeTrap, hq]
  exact if_neg fun h => hb h.1

/-- A trap of an arm that owes no destination and that fradb does not step is entered as R363 says. -/
theorem State.Ready.trapped_entered {s : State} {srcs dests : List RegId} (R : s.Ready srcs dests)
    (hq : s.cur.seq = none) {t : Trap} (hb : t.cause ≠ .brk) :
    s.TrapEntered (.next (s.trapped t)) t.cause t.detail t.addr t.info := by
  intro inh entry mcheck
  rw [State.trapped_off R.noStep R.noPass R.owesNone, State.takeTrap_group (by simpa using hq) hb,
    State.trapGroup_entered (by simpa using inh) (by rw [State.modCur_cur, Group.trapEntry_ready]; exact entry) mcheck,
    State.modCur_cur, Group.trapEntry_ready, tcauseWord_code]
  simp only [State.modCur, Group.setPc, Group.mapMe_eq, Group.me, Group.trapEntry, pairOf]
  cases s.cur.sel <;> rfl

/-! ### TRAPRET (R335) -/

/-- Where the return from a trap goes on: at TPC, or TPC + 4 for SOFT (R335). -/
def Group.returnPc (g : Group) : W64 := if g.tcause.toNat % 16 = 14 then g.tpc + 4 else g.tpc

theorem State.returnTrap_eq (s : State) :
    s.returnTrap = s.modCur fun g =>
      { g with tcause := g.tcause &&& 0xFFFFFFDF#32 }.mapArm (g.tcause.getLsbD 4)
        fun a => { a with pc := g.returnPc } := by
  simp only [State.returnTrap, tcauseCause_eq_mod, tcauseArm_eq_getLsbD]
  rfl

/-- TRAPRET in the trapped arm itself: the arm is ready where the return put it. -/
theorem exec_trapret_own {s : State} (R : s.Ready [] []) (hq : s.cur.seq = none)
    (inh : tcauseInh s.cur.tcause = true) (own : tcauseArm s.cur.tcause = s.cur.sel) :
    exec .trapret s = .next (s.returnTrap.modCur fun g => g.mapMe Arm.ready) := by
  refine (issue_jump R.fresh (R.verdict_group hq) ((if_neg (by simp [inh])).trans (if_pos own))).trans ?_
  rw [State.finish_off (s := s.returnTrap) R.noStep R.noPass]
  rfl

/-- TRAPRET in the other arm, which goes on at its own next instruction. -/
theorem exec_trapret_other {s : State} (R : s.Ready [] []) (hq : s.cur.seq = none)
    (inh : tcauseInh s.cur.tcause = true) (other : tcauseArm s.cur.tcause ≠ s.cur.sel) :
    exec .trapret s = .next ((s.returnTrap.modCur fun g => g.mapMe Arm.ready).advance 4) := by
  refine (issue_done R.fresh (R.verdict_group hq) ((if_neg (by simp [inh])).trans (if_neg other))).trans ?_
  rw [State.finish_off (s := s.returnTrap) R.noStep R.noPass]
  rfl

theorem exec_trapret_illegal {s : State} (R : s.Ready [] []) (hq : s.cur.seq = none)
    (inh : tcauseInh s.cur.tcause = false) : exec .trapret s = .next (s.trapped (s.illegal 0x0E)) :=
  issue_trap R.fresh (R.verdict_group hq) (if_pos (by simp [inh]))

/-- Settles O51: TRAPRET by the arm that trapped, by the other arm, and with INH clear, each by its own lemma. -/
theorem trapReturn : Obligations.TrapReturn := by
  refine ⟨fun s R hq inh => ⟨fun own => ?own, fun other => ?other⟩, fun s R hq inh => ?illegal⟩
  case own =>
    rw [exec_trapret_own R hq ((tcauseInh_eq_getLsbD _).trans inh) ((tcauseArm_eq_getLsbD _).trans own),
      State.returnTrap_eq]
    simp only [State.modCur, Group.mapMe_eq, Group.mapArm_eq, own]
    cases s.cur.sel <;> rfl
  case other =>
    have notOwn : tcauseArm s.cur.tcause ≠ s.cur.sel := by
      rw [tcauseArm_eq_getLsbD, other]
      exact Bool.not_ne_self _
    rw [exec_trapret_other R hq ((tcauseInh_eq_getLsbD _).trans inh) notOwn, State.returnTrap_eq]
    simp only [State.advance, State.modCur, Group.mapMe_eq, Group.mapArm_eq, other]
    cases s.cur.sel <;> rfl
  case illegal =>
    rw [exec_trapret_illegal R hq inh]
    exact R.trapped_entered hq (t := s.illegal 0x0E) nofun inh

end Sys2Proof.Machine
end
